-- ==== Sys2Proof/Word.lean ====
section
/-! DEFINITION. Sys2Proof/Word.lean: the word types of the node and the names of its units (00_scope, R3–R5). -/
namespace Sys2Proof

/-- One byte. -/
abbrev Byte := BitVec 8

/-- One 32-bit register word (R566). -/
abbrev Word := BitVec 32

/-- One 64-bit context register (R239). -/
abbrev XWord := BitVec 64

/-- A run of bytes, lowest address first (R5). -/
abbrev Bytes := List Byte

/-- A stamp (R4): rack time in ns, node identifier, sequence number. -/
structure Stamp where
  time : BitVec 64
  node : BitVec 16
  seq  : BitVec 16
  deriving DecidableEq, Repr, Inhabited

/-- A general core, named by tile and number within the tile (00_scope, Names of units). -/
structure CoreId where
  tile : Fin 96
  core : Fin 9
  deriving DecidableEq, Repr, Inhabited

/-- A matrix array, named by tile and number within the tile. -/
structure ArrayId where
  tile : Fin 96
  arr  : Fin 4
  deriving DecidableEq, Repr, Inhabited

/-- The two paths to the registers (R566). -/
inductive RegPath where
  | host | mgmt
  deriving DecidableEq, Repr, Inhabited

/-- The two register spaces: the register window and the bit-alias window (R518, R582). -/
inductive RegSpace where
  | bar0 | bar2
  deriving DecidableEq, Repr, Inhabited

end Sys2Proof
end

