-- ==== Sys2Proof/Machine/Bits.lean ====
section
/-! DEFINITION. Sys2Proof/Machine/Bits.lean: byte order, bit fields, stamps as bytes, and unit numbers (R4, R5, R587). -/
namespace Sys2Proof

/-- The unsigned little-endian number that a run of bytes spells (R5). -/
def leNat : Bytes → Nat
  | [] => 0
  | b :: r => b.toNat + 256 * leNat r

/-- `n` bytes of `v`, little-endian (R5); bits beyond are dropped. -/
def toLE : Nat → Nat → Bytes
  | 0, _ => []
  | n + 1, v => BitVec.ofNat 8 v :: toLE n (v / 256)

/-- `n` bytes of `v`, most significant byte first: a standard interface's own order (R5). -/
def toBE (n v : Nat) : Bytes := (toLE n v).reverse

/-- The unsigned number that a run of bytes spells, most significant byte first. -/
def beNat (b : Bytes) : Nat := leNat b.reverse

/-- `n` zero bytes. -/
def zeros (n : Nat) : Bytes := List.replicate n 0

/-- The field of `n` bytes at offset `o` of a structure, little-endian (R5); bytes beyond the end read 0. -/
def fieldAt (b : Bytes) (o n : Nat) : Nat := leNat ((b.drop o).take n)

/-- Bytes `[o, o+n)` of a structure. -/
def slice (b : Bytes) (o n : Nat) : Bytes := (b.drop o).take n

/-- Replace the bytes of `b` from offset `o` on by `v`; `b` keeps its length where `v` fits. -/
def patch (b : Bytes) (o : Nat) (v : Bytes) : Bytes := b.take o ++ v ++ b.drop (o + v.length)

/-- Every byte of a run is 0: a reserved field as R7 asks. -/
def allZero (b : Bytes) : Bool := b.all (· == 0)

/-- Bits [hi:lo] of a number. -/
def bitsOf (v hi lo : Nat) : Nat := (v >>> lo) % 2 ^ (hi + 1 - lo)

/-- Bit `i` of a number. -/
def bitOf (v i : Nat) : Bool := v.testBit i

/-- A Bool as a bit of a number. -/
def b2n (b : Bool) : Nat := if b then 1 else 0

/-- The signed value of a number of `w` bits, two's complement. -/
def signedOf (w v : Nat) : Int := if v % 2 ^ w < 2 ^ (w - 1) then (v % 2 ^ w : Nat) else (v % 2 ^ w : Nat) - (2 ^ w : Nat)

/-- The two's-complement number of `w` bits of an integer. -/
def unsignedOf (w : Nat) (i : Int) : Nat := (i % (2 ^ w : Nat)).toNat

/-- The smallest multiple of `a` that is at least `v`. -/
def alignUp (v a : Nat) : Nat := (v + a - 1) / a * a

/-- ⌈a / b⌉. -/
def ceilDiv (a b : Nat) : Nat := (a + b - 1) / b

/-- The stamp of all ones, which orders after every stamp a reader carries (R116). -/
def Stamp.ones : Stamp := ⟨.allOnes 64, .allOnes 16, .allOnes 16⟩

/-- The stamp of all zeros. -/
def Stamp.zero : Stamp := ⟨0, 0, 0⟩

/-- The number whose order is the order of stamps (R4): time, then node, then sequence, each unsigned. -/
def Stamp.rank (s : Stamp) : Nat := s.time.toNat * 2 ^ 32 + s.node.toNat * 2 ^ 16 + s.seq.toNat

/-- Stamp `a` orders before stamp `b` (R4). -/
def Stamp.before (a b : Stamp) : Bool := a.rank < b.rank

/-- The 12 bytes of a stamp (R4, R5): time, node, sequence, lowest offset first. -/
def Stamp.bytes (s : Stamp) : Bytes := toLE 8 s.time.toNat ++ toLE 2 s.node.toNat ++ toLE 2 s.seq.toNat

/-- The stamp that 12 bytes at an offset of a structure spell. -/
def stampAt (b : Bytes) (o : Nat) : Stamp :=
  ⟨BitVec.ofNat 64 (fieldAt b o 8), BitVec.ofNat 16 (fieldAt b (o + 8) 2), BitVec.ofNat 16 (fieldAt b (o + 10) 2)⟩

/-- The number 9t + c of a core (R587). -/
def CoreId.num (c : CoreId) : Nat := 9 * c.tile.val + c.core.val

/-- The number 4t + a of an array (R587). -/
def ArrayId.num (a : ArrayId) : Nat := 4 * a.tile.val + a.arr.val

end Sys2Proof
end

