-- ==== Sys2Proof/Syntax.lean ====
section
/-! DEFINITION. Sys2Proof/Syntax.lean: the commands of the block, one constructor for each row of spec/opcode_table.json, with the
operands that the row's rule gives it. Bytes that come from outside the node (a message, what a host buffer holds, what a medium
answers) are operands. -/
namespace Sys2Proof

/-- Where a request message comes from (R133, R146, R532): a fabric channel with the frame's source node, link class, frame
tenant and Ethernet source address, or an NVMe submission queue entry. -/
inductive Source where
  | fabric (ch : Fin 128) (node : BitVec 16) (cls : Fin 8) (tenant : BitVec 8) (mac : BitVec 48)
  | nvme (sq : BitVec 16) (cid : BitVec 16)
  deriving DecidableEq, Repr

/-- One carrier's copy of the flash store, as the node reads it when it identifies the carrier (R66–R75): the slots' bytes, the slot
marked pending (some true is B), and the overlays by partition. -/
structure FlashStore where
  slotA : Option (List (BitVec 8)) := none
  slotB : Option (List (BitVec 8)) := none
  activeB : Bool := false
  pending : Option Bool := none
  overlays : List (Nat × List (BitVec 8)) := []
  /-- the store's blocks fail writes -/
  failing : Bool := false
  deriving DecidableEq, Repr

/-- What lies outside the node's own state and a command reads while it runs: the bytes of a host buffer (none where the host read fails),
the page keys that are unrecoverable when a recovery reads them, and the sequences of journal records that fail their CRC then. -/
structure Reads where
  buf : Option (List (BitVec 8)) := none
  unread : List Nat := []
  badRecs : List Nat := []
  deriving DecidableEq, Repr

/-- The commands. -/
inductive Instr where
  /-- REGISTER_WRITE (R11): A write through either path to a register that has no row of its own takes effect in the cycle it reaches the block. -/
  | registerWrite (path : RegPath) (off : BitVec 26) (words : List (BitVec 32 × Bool)) (reads : Reads)
  /-- BIT_ALIAS_WRITE (R577): A write to a BAR2 alias word performs one whole-word write in which only the aliased bit carries the written value. -/
  | bitAliasWrite (path : RegPath) (off : BitVec 27) (words : List (BitVec 32 × Bool)) (reads : Reads)
  /-- REGISTER_ACCESS_READ (R582): A management-path MCTP register access message with command read returns up to 16 words. -/
  | registerAccessRead (body : Bytes)
  /-- REGISTER_ACCESS_WRITE (R582): A management-path MCTP register access message with command write performs up to 16 word writes. -/
  | registerAccessWrite (body : Bytes) (reads : Reads)
  /-- GO_FLASH_STORE (R67): GRIST_CTRL.GO with SRC 0b00 starts a full load from the flash store, pending slot first, or fails BUSY while an image runs. -/
  | goFlashStore (path : RegPath) (persist : Bool) (drainMs : BitVec 8) (reads : Reads)
  /-- GO_INACTIVE_SLOT (R74): GRIST_CTRL.GO with SRC 0b01 loads the store's inactive slot with no fallback. -/
  | goInactiveSlot (path : RegPath) (persist : Bool) (drainMs : BitVec 8) (reads : Reads)
  /-- GO_HOST_BUFFER (R74): GRIST_CTRL.GO with SRC 0b10 loads a full image from the host buffer, persists it under R73, or starts a partial re-grist. -/
  | goHostBuffer (path : RegPath) (persist : Bool) (drainMs : BitVec 8) (reads : Reads)
  /-- GO_SOURCE_RESERVED (R74): GRIST_CTRL.GO with SRC 0b11 fails the load with SOURCE. -/
  | goSourceReserved (path : RegPath) (persist : Bool) (drainMs : BitVec 8)
  /-- REGRIST_DRAIN_END (R77): When the partition's queues are empty and no context holds a request, the partial re-grist stops the contexts and applies the partition. -/
  | regristDrainEnd (fault : Bool) (reads : Reads)
  /-- DRAIN_TIMEOUT (R78): When the drain outlasts DRAIN_MS, the node reopens admission under the old image and fails the load. -/
  | drainTimeout
  /-- PLDM_FIRMWARE_UPDATE (R75): A PLDM Type 5 firmware update delivers a full image, which the node treats as a GO with PERSIST = 1. -/
  | pldmFirmwareUpdate (image : Bytes) (reads : Reads)
  /-- POWER_SAMPLE (R308): Every 50 µs the node measures module power and applies the cap through divider steps and the matrix hold. -/
  | powerSample (mean : BitVec 16)
  /-- VECTOR_QUERY (R135): A vector query request (kind 0x01) is taken whole, admitted or refused, and run through the search stages. -/
  | vectorQuery (src : Source) (data : Bytes)
  /-- TEXT_QUERY (R135): A text query request (kind 0x02) is admitted, embedded and then searched. -/
  | textQuery (src : Source) (data : Bytes)
  /-- INSERT (R112): An INSERT request adds a vector under an id, with journal, delta append, directory entry and acknowledgement. -/
  | insert (src : Source) (data : Bytes)
  /-- UPSERT (R112): An UPSERT request adds a vector and deletes any live entry of the id under one acknowledgement stamp. -/
  | upsert (src : Source) (data : Bytes)
  /-- DELETE (R112): A DELETE request tombstones the live entry of the id, or answers NOT_FOUND. -/
  | delete (src : Source) (data : Bytes)
  /-- EMBED_PASSAGE (R138): An embed passage request (kind 0x06) runs the encoder and answers the vector, or upserts it. -/
  | embedPassage (src : Source) (data : Bytes)
  /-- FILTER_RECORDS (R416): A storage filter request (kind 0x10) scans namespace records and returns the passing records or places. -/
  | filterRecords (src : Source) (data : Bytes)
  /-- FILTER_COUNT (R416): A storage filter request (kind 0x11) counts the passing records of a range. -/
  | filterCount (src : Source) (data : Bytes)
  /-- QUERY_HOLD_RELEASE (R150): A query held for a future stamp is enqueued once the node's rack time passes the stamp's rack time. -/
  | queryHoldRelease (req : Nat)
  /-- REFUSAL_DEPARTED (R148): A refusal's last bit leaves the node, and its refusal buffer entry frees, which resumes credits or fetching. -/
  | refusalDeparted
  /-- UPDATE_RESUME (R115): An update waiting for a delta slot, a recent-delete entry or a merge resumes when the leaf is published or pruned. -/
  | updateResume (req : Nat)
  /-- LOOKUP_RETRY (R114): A directory lookup that met a leaf under publication starts again when the publication ends. -/
  | lookupRetry (req : Nat)
  /-- DIRECTORY_MERGE (R113): When the id directory log reaches its merge level, the node rewrites the base buckets and removes merged log entries. -/
  | directoryMerge (part : Fin 32) (index : Fin 16)
  /-- SCAN_RESULT_RETURN (R162): A mash scan result reaches the owner, and once a round's results are in, select keeps the survivors and issues lauter commands. -/
  | scanResultReturn (mash : Fin 8) (cmd : Nat)
  /-- LAUTER_RESULT_RETURN (R164): A lauter result reaches the owner; at round end it widens to another round or merges and answers. -/
  | lauterResultReturn (cmd : Nat)
  /-- PEER_ANSWER (R198): A peer answer arriving at a coordinator is kept for the merge if it arrives before the cut time, else discarded. -/
  | peerAnswer (node : BitVec 16) (data : Bytes)
  /-- BUDGET_CUT (R171): At the cut time the owner stops the query and forms a PARTIAL answer from what it holds. -/
  | budgetCut (req : Nat)
  /-- ANSWER_SENT (R168): The answer stage sends an answer to the reply node or NVMe answer buffer and frees its reserved entry. -/
  | answerSent (req : Nat)
  /-- AB_KEYF (R179): AB.KEYF writes the key of each FP32 lane. -/
  | abKeyf (core : Fin 864) (vd vs2 : Fin 32)
  /-- AB_KEYR (R179): AB.KEYR writes the score of each key lane. -/
  | abKeyr (core : Fin 864) (vd vs2 : Fin 32)
  /-- AB_CX (R180): AB.CX performs one bitonic compare-exchange step within one key/payload pair. -/
  | abCx (core : Fin 864) (vk vp : Fin 32) (ki pj : Fin 8) (m : Bool)
  /-- AB_CXP (R181): AB.CXP compares lane l of one pair with lane l of another and exchanges. -/
  | abCxp (core : Fin 864) (vka vpa vkb vpb : Fin 32) (d m : Bool)
  /-- AB_MX (R181): AB.MX compares lane l of one pair with lane 127 − l of another and exchanges. -/
  | abMx (core : Fin 864) (vka vpa vkb vpb : Fin 32) (d m : Bool)
  /-- AB_DROP (R182): AB.DROP turns repeated ids of a pair sorted in id order into padding and counts them. -/
  | abDrop (core : Fin 864) (rd vk vp rs1 : Fin 32)
  /-- AB_BND (R183): AB.BND turns every lane at or before a boundary entry into padding. -/
  | abBnd (core : Fin 864) (vk vp rs1 rs2 : Fin 32)
  /-- AB_QTAKE (R252): AB.QTAKE takes the oldest untaken entry of a queue, waits, or returns 0 when polling. -/
  | abQtake (core : Fin 864) (rd rs1 rs2 : Fin 32)
  /-- AB_QTAKE_WAKE (R252): A context waiting in AB.QTAKE receives an entry when one arrives. -/
  | abQtakeWake (part : Fin 32) (queue : BitVec 16)
  /-- AB_QPUT (R253): AB.QPUT posts one entry to a queue, or waits while the queue is full. -/
  | abQput (core : Fin 864) (rd rs1 rs2 : Fin 32) (rl : Bool)
  /-- AB_QPUT_WAKE (R253): A context waiting in AB.QPUT posts its entry when the queue has room. -/
  | abQputWake (part : Fin 32) (queue : BitVec 16)
  /-- AB_QREL (R254): AB.QREL frees the queue slot of a taken entry. -/
  | abQrel (core : Fin 864) (rs1 : Fin 32)
  /-- AB_YIELD (R257): AB.YIELD ends the current context's turn. -/
  | abYield (core : Fin 864)
  /-- AB_WAITW (R258): AB.WAITW completes when a word differs from a value, or waits for it to change. -/
  | abWaitw (core : Fin 864) (rd rs1 rs2 : Fin 32)
  /-- WAITW_WAKE (R258): A write that changes a watched word wakes the AB.WAITW context within 32 fT cycles. -/
  | waitwWake (core : Fin 864) (ctx : Fin 16)
  /-- WAITW_LIMIT (R258): When abwaitlim cycles pass with no change, AB.WAITW completes with the unchanged value. -/
  | waitwLimit (core : Fin 864) (ctx : Fin 16)
  /-- AB_STAMP (R259): AB.STAMP requests one stamp from the hub's stamp unit and yields. -/
  | abStamp (core : Fin 864) (rs1 : Fin 32)
  /-- STAMP_ARRIVES (R259): The requested stamp is written whole to its address and the context becomes ready. -/
  | stampArrives (core : Fin 864) (ctx : Fin 16)
  /-- AB_RAND (R260): AB.RAND writes a value computed from the partition seed and two operands. -/
  | abRand (core : Fin 864) (rd rs1 rs2 : Fin 32)
  /-- AB_TENANT (R261): AB.TENANT sets the context's tenant tag, or raises a tenant fault. -/
  | abTenant (core : Fin 864) (rs1 : Fin 32)
  /-- AB_VACQ (R249): AB.VACQ binds a free vector slot to the context, or waits for one. -/
  | abVacq (core : Fin 864)
  /-- VACQ_GRANT (R249): A context waiting in AB.VACQ receives a slot when one frees, in order of waiting. -/
  | vacqGrant (core : Fin 864)
  /-- AB_VREL (R249): AB.VREL waits for the context's vector instructions, then frees its slot. -/
  | abVrel (core : Fin 864)
  /-- AB_FDONE (R262): AB.FDONE ends a fence-hook diversion, passes any held request to the dispatcher and parks the context. -/
  | abFdone (core : Fin 864)
  /-- LOAD (R247): A scalar or vector load issues without blocking to core-local SRAM, tile SRAM, partition memory or a mash stack. -/
  | load (core : Fin 864) (word : BitVec 32)
  /-- STORE (R263): A store issues to its destination under RVWMO. -/
  | store (core : Fin 864) (word : BitVec 32)
  /-- AMO (R267): An AMO is performed at its destination with its aq and rl bits honoured. -/
  | amo (core : Fin 864) (word : BitVec 32)
  /-- LR (R267): LR loads and places a reservation on the aligned 64 bytes, in core-local or tile SRAM. -/
  | lr (core : Fin 864) (word : BitVec 32)
  /-- SC (R267): SC stores if the reservation holds. -/
  | sc (core : Fin 864) (word : BitVec 32)
  /-- FENCE (R263): FENCE holds its successor accesses until its predecessor accesses are performed. -/
  | fence (core : Fin 864) (word : BitVec 32)
  /-- FENCE_I (R267): FENCE.I executes as a no-op. -/
  | fenceI (core : Fin 864)
  /-- ECALL (R268): ECALL raises an environment-call exception. -/
  | ecall (core : Fin 864)
  /-- EBREAK (R268): EBREAK raises a breakpoint exception when no debugger is attached. -/
  | ebreak (core : Fin 864)
  /-- RV_INSTRUCTION (R239): Any other instruction of the implemented RV64 profile executes in the current context. -/
  | rvInstruction (core : Fin 864) (word : BitVec 32)
  /-- ACCESS_RESULT_ARRIVES (R246): A load, AMO or fetch result arrives and its waiting context becomes ready. -/
  | accessResultArrives (core : Fin 864) (ctx : Fin 16)
  /-- CORE_FENCE_REQUEST (R272): Setting a TILE_FENCE.CORE bit starts a drain of the core, diverting hooked contexts. -/
  | coreFenceRequest (path : RegPath) (core : Fin 864)
  /-- CORE_UNFENCE (R275): Clearing a TILE_FENCE.CORE bit ends a drain or unfences the core when the data bit is also 0. -/
  | coreUnfence (path : RegPath) (core : Fin 864)
  /-- CORE_FORCE (R273): Writing TILE_FENCE.FORCE hard-fences a core at once. -/
  | coreForce (path : RegPath) (core : Fin 864) (withCore : Bool)
  /-- CORE_DRAIN_END (R273): When every assigned context is parked, no access is outstanding and the vector unit is idle, the core is soft-fenced. -/
  | coreDrainEnd (core : Fin 864)
  /-- CORE_DRAIN_LIMIT (R273): When a core drain outlasts TILE_DRAIN.LIMIT_US, the core is hard-fenced. -/
  | coreDrainLimit (core : Fin 864)
  /-- GATHER_POOL (R223): The gather engine takes a pool command, checks it, binds a table version and starts forming windows. -/
  | gatherPool (tile : Fin 96)
  /-- GATHER_READ_RETIRE (R228): A row read retires through the reorder buffer and is applied to the pairs that name it. -/
  | gatherReadRetire (tile : Fin 96)
  /-- GATHER_COMPLETE (R233): After its last output row is written, the gather engine posts the command's completion. -/
  | gatherComplete (tile : Fin 96)
  /-- GATHER_PAUSE (R236): Writing GTH_CTRL.PAUSE stops or resumes the taking of new windows. -/
  | gatherPause (path : RegPath) (tile : Fin 96) (on : Bool)
  /-- PC_FLUSH (R236): Writing GTH_CTRL.PC_FLUSH invalidates the whole path cache. -/
  | pcFlush (path : RegPath) (tile : Fin 96)
  /-- GATHER_FENCE_REQUEST (R237): Setting TILE_FENCE.GATHER fences the gather engine, ending a running command FAILED. -/
  | gatherFenceRequest (path : RegPath) (tile : Fin 96)
  /-- GATHER_UNFENCE (R593): Clearing TILE_FENCE.GATHER unfences the engine when GDATA is also 0. -/
  | gatherUnfence (path : RegPath) (tile : Fin 96)
  /-- HEAT_APPLY (R219): The placement program takes a heat sample entry and raises the row's heat. -/
  | heatApply (part : Fin 32) (queue : BitVec 16)
  /-- HEAT_DECAY (R219): Once every decay period the placement program halves the heat of every row. -/
  | heatDecay (part : Fin 32) (table : BitVec 16)
  /-- PLACEMENT_ROUND (R221): Every round interval the placement program moves rows between widths and publishes a table version. -/
  | placementRound (part : Fin 32) (table : BitVec 16) (desc pub list : Nat) (pages : List Nat)
  /-- MATRIX (R282): The matrix engine takes a MATRIX descriptor, checks it and runs its phases. -/
  | matrix (tile : Fin 96)
  /-- MATRIX_ACC (R282): The matrix engine takes a MATRIX_ACC descriptor that adds an accumulator input. -/
  | matrixAcc (tile : Fin 96)
  /-- MATRIX_PHASE_END (R283): A phase ends and the engine starts the next phase, or drains the group at a group boundary. -/
  | matrixPhaseEnd (tile : Fin 96)
  /-- MATRIX_COMPLETE (R298): After the last Y element and exponent are written, the engine posts the descriptor's completion. -/
  | matrixComplete (tile : Fin 96)
  /-- MATRIX_PAUSE (R314): Writing MTX_CTRL.PAUSE stops or resumes the starting of phases. -/
  | matrixPause (path : RegPath) (tile : Fin 96) (on : Bool)
  /-- ARRAY_FORCE (R311): Writing MTX_CTRL.FORCE hard-fences an array and ends its descriptor FAILED. -/
  | arrayForce (path : RegPath) (array : Fin 384)
  /-- ARRAY_FENCE_REQUEST (R311): Setting a TILE_FENCE.ARRAY bit starts the array's drain. -/
  | arrayFenceRequest (path : RegPath) (array : Fin 384)
  /-- ARRAY_UNFENCE (R310): Clearing a TILE_FENCE.ARRAY bit ends a drain or unfences the array when its data bit is 0. -/
  | arrayUnfence (path : RegPath) (array : Fin 384)
  /-- ARRAY_DRAIN_LIMIT (R311): An array still serving at the drain limit is hard-fenced. -/
  | arrayDrainLimit (array : Fin 384)
  /-- RACKING (R122): At a racking decision the node racks a leaf: cut stamp, survivor reads, re-encoding, catch-up and publication. -/
  | racking (part : Fin 32) (index : Fin 16) (leaf : BitVec 32) (place : List Nat) (pub node : Nat) (bad : List Nat)
  /-- SPLIT (R125): The node divides a leaf's survivors by two-means into two new leaves. -/
  | split (part : Fin 32) (index : Fin 16) (leaf : BitVec 32) (placeA placeB : List Nat) (pub : Nat) (nodes : List Nat) (fwd : Nat) (bad : List Nat)
  /-- MERGE (R126): The node joins a leaf with a qualifying neighbour into one new leaf. -/
  | mergeLeaf (part : Fin 32) (index : Fin 16) (leaf : BitVec 32) (place : List Nat) (pub : Nat) (nodes : List Nat) (fwdA fwdB : Nat) (bad : List Nat)
  /-- READ_FLOOR_SWEEP (R118): Once a millisecond the node reclaims superseded versions, prunes recent deletes and frees pages before the read floor. -/
  | readFloorSweep (part : Fin 32)
  /-- REFINEMENT_ROUND (R329): After its window ends plus 2 ms, a refinement round trains on its samples and commits. -/
  | refinementRound (part : Fin 32) (index : Fin 16)
  /-- SAMPLE_ARRIVAL (R325): A refinement sample reaches the sample queue and is kept or dropped. -/
  | sampleArrival (part : Fin 32) (queue : BitVec 16)
  /-- REF_RUN (R322): REF_CMD run sets the refinement state running at the next round boundary. -/
  | refRun (path : RegPath)
  /-- REF_PAUSE (R322): REF_CMD pause pauses refinement at the next round boundary. -/
  | refPause (path : RegPath)
  /-- REF_STOP (R322): REF_CMD stop turns refinement off at the next round boundary. -/
  | refStop (path : RegPath)
  /-- REF_RESET_OPTIMISER (R322): REF_CMD reset optimiser zeroes the moments and reloads the master copy. -/
  | refResetOptimiser (path : RegPath)
  /-- REF_EVALUATE_NOW (R322): REF_CMD evaluate now evaluates the next committed round. -/
  | refEvaluateNow (path : RegPath)
  /-- PER_BANK_REFRESH (R352): Every refresh interval each bank receives a per-bank refresh, unless postponed. -/
  | perBankRefresh (stack : Fin 16) (bank : Fin 1024) (busBusy : Bool)
  /-- REFRESH_WINDOW (R354): Once every 256 intervals a channel takes an all-bank refresh window, which may carry a retraining. -/
  | refreshWindow (stack : Fin 16) (ch : Fin 32) (trained : Bool)
  /-- STACK_TEMP_READOUT (R345): Every 1 ms the controller reads the stack temperature, sets the refresh interval and requests retraining. -/
  | stackTempReadout (stack : Fin 16) (temp : BitVec 8)
  /-- MEM_TRAIN_REQ (R355): Writing MEM_TRAIN.REQ requests retraining of every channel in refresh windows. -/
  | memTrainReq (path : RegPath) (stack : Fin 16)
  /-- PARITY_ERROR (R345): A command/address parity error reissues the command once; a second fails the stack. -/
  | parityError (stack : Fin 16) (again : Bool)
  /-- STACK_FAIL (R378): A stack fails, failing owning partitions or, for a plain stack, closing every partition. -/
  | stackFail (stack : Fin 16)
  /-- START (R358): A START op in a bank's command page clears the sequence and runs chunk 0. -/
  | startOp (mash : Fin 8) (bank : Fin 1024)
  /-- CONTINUE (R358): A CONTINUE op runs the next chunk of the in-bank sequence. -/
  | continueOp (mash : Fin 8) (bank : Fin 1024)
  /-- ABORT (R358): An ABORT op stops the sequence at the end of the running chunk. -/
  | abortOp (mash : Fin 8) (bank : Fin 1024)
  /-- CHUNK_END (R361): At a chunk boundary the controller reads State, refreshes, serves held accesses and writes CONTINUE. -/
  | chunkEnd (mash : Fin 8) (bank : Fin 1024)
  /-- SCAN (R364): The mash dispatcher takes a SCAN command, checks it and starts the bank sequences of its ranges. -/
  | scan
  /-- SCAN_COMPLETE (R368): When the ranges are done the controller merges the lists and writes the result block and ready word. -/
  | scanComplete (mash : Fin 8) (cmd : Nat)
  /-- MSH_PAUSE (R380): Writing MSH_CTRL.PAUSE stops or resumes CONTINUE and START writes. -/
  | mshPause (path : RegPath) (mash : Fin 8) (on : Bool)
  /-- HOLD_CLR (R380): Writing MSH_CTRL.HOLD_CLR sets MSH_HOLD_MAX to 0. -/
  | holdClr (path : RegPath) (mash : Fin 8)
  /-- RESCORE (R407): A lauter engine takes a RESCORE command, reads records, filters and scores them. -/
  | rescore
  /-- FETCH (R407): A lauter engine takes a FETCH command and copies records into the result block. -/
  | fetch
  /-- WRITE (R407): A lauter engine takes a WRITE command and stages each entry's bytes. -/
  | lauterWrite
  /-- DEALLOCATE (R407): A lauter engine takes a DEALLOCATE command and deallocates each entry's page. -/
  | deallocate
  /-- LAUTER_COMPLETE (R411): The lauter engine writes a command's result block and then its ready word. -/
  | lauterComplete (cmd : Nat)
  /-- PAGE_READ_DONE (R403): A page read completes on a die and is decoded, or climbs the next step of the retry ladder. -/
  | pageReadDone (cmd : Nat) (part : Fin 32) (ext : BitVec 16) (page : BitVec 40) (decoded mapFail : Bool)
  /-- STRIPE_REBUILD (R405): The node reads the seven other pages of a stripe and XORs them, or declares the page unrecoverable. -/
  | stripeRebuild (cmd : Nat) (part : Fin 32) (ext : BitVec 16) (page : BitVec 40) (ok : Bool)
  /-- STRIPE_CLOSE (R394): A stripe is programmed when its data positions fill or its oldest page has waited CLOSE_US. -/
  | stripeClose (stream : Fin 3)
  /-- PROGRAM_DONE (R400): A stripe program ends; a failing status remaps the block and reprograms the stripe. -/
  | programDone (stripe : Nat) (failing : List (Fin 8))
  /-- ERASE_DONE (R400): A block erase ends; a failing status retires the block. -/
  | eraseDone (block : Nat) (failing : List (Fin 8))
  /-- DIE_TIMEOUT (R400): A die operation times out at 10 ms; the third timeout fails the die. -/
  | dieTimeout (ch : Fin 32) (target : Fin 16)
  /-- KILNING (R396): When the steep fill reaches START_PCT the node folds the oldest steep stripes into QLC streams. -/
  | kilning
  /-- GARBAGE_COLLECTION (R397): When the free pool falls below START_PCT the node collects the QLC stripe block with the fewest valid pages. -/
  | garbageCollection
  /-- WEAR_LEVELLING (R398): When a carrier's wear spread exceeds SPREAD the node moves cold data into the most worn free block. -/
  | wearLevelling
  /-- PATROL (R399): The node reads every valid page once per patrol period and relocates weak pages. -/
  | patrol (part : Fin 32) (ext : BitVec 16) (page : BitVec 40) (step : Fin 11)
  /-- CALIBRATION (R385): A due channel calibration starts at the first idle moment, or is forced after the calibration window. -/
  | calibration (ch : Fin 32) (forced : Bool)
  /-- CARRIER_PRESENT (R426): After Kc_PRSNT_N is low for 100 ms the node raises Kc_PWR_EN and waits for PGOOD. -/
  | carrierPresent (carrier : Fin 8)
  /-- CARRIER_PGOOD_TIMEOUT (R426): If Kc_PGOOD is not high within 50 ms the carrier is failed. -/
  | carrierPgoodTimeout (carrier : Fin 8)
  /-- CARRIER_IDENTIFIED (R426): After identity and training the carrier rejoins, rebuilds, forms storage or is refused. -/
  | carrierIdentified (carrier : Fin 8) (record : Option Bytes) (trained : Bool) (store : FlashStore)
  /-- SET_FORMATION (R387): The node decides the carrier set from the present carriers and brings storage up, forms a set or reports a reason. -/
  | setFormation (unread badRecs : List Nat)
  /-- REQUEST_REMOVAL (R428): FLS_CMD OP 1 requests removal of a carrier, granted only when every other carrier is online. -/
  | requestRemoval (path : RegPath) (carrier : Fin 8)
  /-- FORCE_REMOVAL (R429): FLS_CMD OP 2 removes a carrier at once without checking the others. -/
  | forceRemoval (path : RegPath) (carrier : Fin 8)
  /-- CANCEL_REMOVAL (R428): FLS_CMD OP 3 powers a pending or safe-to-remove carrier up again for a delta rebuild. -/
  | cancelRemoval (path : RegPath) (carrier : Fin 8)
  /-- ARM_ADOPTION (R427): FLS_CMD OP 4 arms adoption of a slot, or adopts a refused carrier of another set at once. -/
  | armAdoption (path : RegPath) (slot : Fin 8)
  /-- ADOPTION_EXPIRY (R427): An armed adoption lapses after 600 s. -/
  | adoptionExpiry
  /-- CARRIER_LOSS (R430): A carrier's presence or PGOOD drops or a channel fails, and the node stops its channels and continues degraded. -/
  | carrierLoss (carrier : Fin 8) (presence : Bool) (channel : Option (Fin 4))
  /-- REBUILD_COMPLETE (R433): When the last block of a rebuild is written the carrier becomes online. -/
  | rebuildComplete (carrier : Fin 8)
  /-- SHORT_PRESS (R661): A service-button press released within 4 s requests or cancels removal, as the carrier state decides. -/
  | shortPress (carrier : Fin 8)
  /-- BUTTON_HOLD (R661): A service-button press that reaches 4 s forces removal. -/
  | buttonHold (carrier : Fin 8)
  /-- CARRIER_SENSOR_READ (R435): A carrier sensor reading pauses or resumes background work and programs by temperature. -/
  | carrierSensorRead (carrier : Fin 8) (a b : BitVec 8)
  /-- CARRIER_ALERT (R435): Kc_ALERT_N low makes the node read that carrier's sensors at once. -/
  | carrierAlert (carrier : Fin 8) (a b : BitVec 8)
  /-- NVME_READ (R419): An NVMe Read returns staged or programmed data. -/
  | nvmeRead (sq cid : BitVec 16) (nsid : BitVec 32) (slba : BitVec 64) (nlb : BitVec 16) (dptr : BitVec 64) (bad : List Nat)
  /-- NVME_WRITE (R419): An NVMe Write completes once staged. -/
  | nvmeWrite (sq cid : BitVec 16) (nsid : BitVec 32) (slba : BitVec 64) (nlb : BitVec 16) (data : Option Bytes)
  /-- NVME_FLUSH (R419): An NVMe Flush completes at once. -/
  | nvmeFlush (sq cid : BitVec 16) (nsid : BitVec 32)
  /-- NVME_WRITE_ZEROES (R419): Write Zeroes deallocates whole pages and stages zeros for partial ones. -/
  | nvmeWriteZeroes (sq cid : BitVec 16) (nsid : BitVec 32) (slba : BitVec 64) (nlb : BitVec 16)
  /-- DATASET_MANAGEMENT (R419): Dataset Management deallocate deallocates whole pages and zeroes partial ones. -/
  | datasetManagement (sq cid : BitVec 16) (nsid : BitVec 32) (dealloc : Bool) (ranges : Option (List (BitVec 32 × BitVec 64)))
  /-- NVME_VERIFY (R419): Verify reads and decodes without transferring data. -/
  | nvmeVerify (sq cid : BitVec 16) (nsid : BitVec 32) (slba : BitVec 64) (nlb : BitVec 16) (bad : List Nat)
  /-- FIBRE_DETECT (R443): After an engine's fibre detect is active for 50 ms the node turns on transmitters and starts training. -/
  | fibreDetect (engine : Fin 8)
  /-- FIBRE_REMOVED (R442): When an engine's fibre detect goes inactive its transmitters turn off and its channels go down. -/
  | fibreRemoved (engine : Fin 8)
  /-- LINK_TRAINED (R443): A channel completes training and enters Init or Up. -/
  | linkTrained (ch : Fin 128)
  /-- TRAINING_TIMEOUT (R444): A channel still training after 2 s enters Failed. -/
  | trainingTimeout (ch : Fin 128)
  /-- TRAINING_RETRY (R444): Every 10 s a failed channel with active detect starts training again. -/
  | trainingRetry (ch : Fin 128)
  /-- LOCK_LOSS (R444): Loss of PCS, block lock or alignment on an up channel returns it to Training. -/
  | lockLoss (ch : Fin 128)
  /-- DATA_FRAME (R448): A received Galmel DATA frame is checked and reassembled, and a complete message is handed on. -/
  | dataFrame (ch : Fin 128) (frame : Bytes) (errored : Bool)
  /-- CREDIT (R456): A received CREDIT frame updates the class credit limits. -/
  | credit (ch : Fin 128) (frame : Bytes)
  /-- INIT (R451): A received LINK INIT is answered with INIT_ACK. -/
  | linkInit (ch : Fin 128) (frame : Bytes)
  /-- INIT_ACK (R451): A received INIT_ACK that echoes the current incarnation brings the channel up, once INIT has also been received. -/
  | initAck (ch : Fin 128) (frame : Bytes)
  /-- KEEPALIVE (R452): A received LINK KEEPALIVE shows the link alive. -/
  | keepalive (ch : Fin 128) (frame : Bytes)
  /-- TIME (R464): A received TIME frame carries a PTP message to the boundary clock. -/
  | timeFrame (ch : Fin 128) (frame : Bytes)
  /-- INIT_REPEAT (R451): Every 1 ms until the exchange completes the node sends INIT again. -/
  | initRepeat (ch : Fin 128)
  /-- KEEPALIVE_SEND (R452): After 10 µs with no frame sent the node sends a KEEPALIVE. -/
  | keepaliveSend (ch : Fin 128)
  /-- LINK_RX_TIMEOUT (R452): After 100 µs with no frame received the node re-initialises the link. -/
  | linkRxTimeout (ch : Fin 128)
  /-- CREDIT_SEND (R456): The receiver sends a CREDIT frame within 200 ns of freeing a unit, and at least every 10 µs. -/
  | creditSend (ch : Fin 128)
  /-- ETHERNET_FRAME (R462): A received Ethernet frame is checked and its carried Galmel DATA frame reassembled. -/
  | ethernetFrame (ch : Fin 128) (frame : Bytes)
  /-- REASSEMBLY_TIMEOUT (R462): An Ethernet-mode message still incomplete 1 ms after its first segment is dropped. -/
  | reassemblyTimeout (ch : Fin 128) (src : BitVec 16) (cls : BitVec 3) (mid : BitVec 16)
  /-- EGRESS_SELECT (R470): At each frame boundary the channel picks the next frame by control, time, strict and weighted fair queueing. -/
  | egressSelect (ch : Fin 128)
  /-- PTP_SYNC (R467): At each sync message the node measures its offset, updates the time state and sets the slew. -/
  | ptpSync (ch : Fin 128) (master : BitVec 64) (offset freq : Int)
  /-- SYNC_TIMEOUT (R466): No sync message for 3 intervals moves a Locked node to Holdover. -/
  | syncTimeout
  /-- COMP_GO (R486): COMP_CTRL.GO reads a composition map from the host buffer and adopts or rejects it. -/
  | compGo (path : RegPath) (buf : Option Bytes)
  /-- MAP_FETCH (R489): A received MAP_FETCH is answered with MAP_OFFER. -/
  | mapFetch (src : BitVec 16) (wanted : BitVec 32)
  /-- MAP_OFFER (R486): A received MAP_OFFER is adopted, rejected or confirms the held map. -/
  | mapOffer (src : BitVec 16) (map : Bytes)
  /-- MAP_FETCH_REPEAT (R489): Every 1 ms until a newer map is adopted the node sends MAP_FETCH again. -/
  | mapFetchRepeat
  /-- CONFIRM_FETCH (R490): Every 10 ms while its map is unconfirmed the node sends MAP_FETCH to each reachable search node. -/
  | confirmFetch
  /-- EPOCH_HOLD_TIMEOUT (R492): A request held for a newer epoch is refused BUSY when no such map is adopted within 2 ms. -/
  | epochHoldTimeout (held : Nat)
  /-- CLAIM (R501): A received CLAIM is answered YIELD, KEEP or NONE. -/
  | claim (src : BitVec 16) (shard : BitVec 16) (epoch : BitVec 32)
  /-- CLAIM_REPLY (R499): A received CLAIM_REPLY starts ownership or resolves an override. -/
  | claimReply (src : BitVec 16) (shard : BitVec 16) (result : BitVec 8) (epoch : BitVec 32) (stamp : BitVec 96)
  /-- CLAIM_REPEAT (R499): A pool that claims without owning sends CLAIM every 1 ms. -/
  | claimRepeat
  /-- CLAIM_HOLD_TIMEOUT (R500): A request held while a shard is claimed is refused BUSY after 5 ms. -/
  | claimHoldTimeout (held : Nat)
  /-- MIRROR_UPDATE (R496): A received MIRROR_UPDATE is journalled by the mirror and answered with MIRROR_ACK. -/
  | mirrorUpdate (src : BitVec 16) (body : Bytes)
  /-- MIRROR_ACK (R495): A received MIRROR_ACK lets the owner seal and acknowledge the update. -/
  | mirrorAck (src : BitVec 16) (shard : Fin 1024) (stamp : BitVec 96)
  /-- MIRROR_SYNC (R498): A received MIRROR_SYNC message loads shard state into a resyncing mirror. -/
  | mirrorSync (src : BitVec 16) (body : Bytes)
  /-- MIRROR_ACK_TIMEOUT (R497): After 1 ms with no MIRROR_ACK the owner holds the shard's acknowledgements. -/
  | mirrorAckTimeout (shard : Fin 1024)
  /-- LEND_READ (R507): A received LEND_READ is applied by the lender and answered with LEND_REPLY. -/
  | lendRead (src : BitVec 16) (body : Bytes)
  /-- LEND_WRITE (R507): A received LEND_WRITE is applied by the lender and answered with LEND_REPLY. -/
  | lendWrite (src : BitVec 16) (body : Bytes)
  /-- LEND_REPLY (R506): A received LEND_REPLY completes the borrower's lend command. -/
  | lendReply (src : BitVec 16) (body : Bytes)
  /-- LEND_COMMAND (R505): The lend unit takes a READ or WRITE lend command from queue 0xFFF0 and sends it to the lender. -/
  | lendCommand (part : Fin 32)
  /-- LEND_TIMEOUT (R506): A lend command with no reply within 2 ms completes FAILED. -/
  | lendTimeout (tag : Nat)
  /-- METER_SNAP (R514): Writing METER_SNAP.TAKE copies the selected meter set into the snapshot and clears its wrap bits. -/
  | meterSnap (path : RegPath)
  /-- PERST (R517): PERST_N, hot reset or link down clears the link, configuration space and NVMe controller. -/
  | perst (kind : Fin 3)
  /-- FLR (R517): A Function Level Reset clears configuration space and the NVMe controller. -/
  | flr
  /-- D3HOT_ENTRY (R517): Entry to D3hot clears the NVMe controller. -/
  | d3hotEntry
  /-- CC_EN_CLEAR (R524): Writing CC.EN from 1 to 0 clears the NVMe controller and ends its fetched commands. -/
  | ccEnClear (path : RegPath) (cc : BitVec 32)
  /-- CC_EN_SET (R522): Writing CC.EN = 1 makes the controller ready once a grist image runs. -/
  | ccEnSet (path : RegPath) (cc : BitVec 32)
  /-- CC_SHN (R525): CC.SHN stops fetching and completes shutdown when commands finish. -/
  | ccShn (path : RegPath) (cc : BitVec 32)
  /-- SHUTDOWN_TIMEOUT (R525): 100 ms after a shutdown request CSTS.SHST is set complete regardless. -/
  | shutdownTimeout
  /-- SQ_TAIL_DOORBELL (R524): An SQ tail doorbell lets the port fetch submission entries round-robin. -/
  | sqTailDoorbell (path : RegPath) (queue : Fin 512) (tail : BitVec 16)
  /-- CQ_HEAD_DOORBELL (R524): A CQ head doorbell frees completion slots and resumes fetching. -/
  | cqHeadDoorbell (path : RegPath) (queue : Fin 512) (head : BitVec 16)
  /-- CREATE_IO_SQ (R523): Admin Create I/O Submission Queue. -/
  | createIoSq (cid queue size cq : BitVec 16) (base : BitVec 64) (contiguous : Bool)
  /-- CREATE_IO_CQ (R523): Admin Create I/O Completion Queue. -/
  | createIoCq (cid queue size vector : BitVec 16) (base : BitVec 64) (interrupts contiguous : Bool)
  /-- DELETE_IO_SQ (R523): Admin Delete I/O Submission Queue, abandoning fetched commands. -/
  | deleteIoSq (cid queue : BitVec 16)
  /-- DELETE_IO_CQ (R523): Admin Delete I/O Completion Queue. -/
  | deleteIoCq (cid queue : BitVec 16)
  /-- IDENTIFY (R523): Admin Identify returns controller, namespace and command set structures. -/
  | identify (cid : BitVec 16) (cns csi : BitVec 8) (nsid : BitVec 32) (dptr : BitVec 64)
  /-- GET_LOG_PAGE (R523): Admin Get Log Page returns a supported log page. -/
  | getLogPage (cid : BitVec 16) (lid : BitVec 8) (off : BitVec 64) (len : BitVec 32) (dptr : BitVec 64)
  /-- SET_FEATURES (R523): Admin Set Features sets a supported feature. -/
  | setFeatures (cid : BitVec 16) (fid : BitVec 8) (value : BitVec 32)
  /-- GET_FEATURES (R523): Admin Get Features returns a supported feature. -/
  | getFeatures (cid : BitVec 16) (fid : BitVec 8) (value : BitVec 32)
  /-- ASYNC_EVENT_REQUEST (R523): Admin Asynchronous Event Request waits for a reported event. -/
  | asyncEventRequest (cid : BitVec 16)
  /-- NVME_ABORT (R534): Admin Abort cancels an Execute Program not yet passed to admission. -/
  | nvmeAbort (cid sq target : BitVec 16)
  /-- EXECUTE_PROGRAM (R531): Execute Program is checked, its request read with stamp and epoch substitution, and passed to admission. -/
  | executeProgram (sq cid : BitVec 16) (nsid : BitVec 32) (program rsid : BitVec 16) (param : Option Bytes)
  /-- PROGRAM_ACTIVATION_MANAGEMENT (R527): Program Activation Management reports or accepts activation and refuses deactivation. -/
  | programActivationManagement (sq cid : BitVec 16) (nsid : BitVec 32) (program : BitVec 16) (op : Fin 3)
  /-- LOAD_PROGRAM (R527): Load Program completes with Invalid Command Opcode. -/
  | loadProgram (sq cid : BitVec 16)
  /-- MEMORY_READ (R529): Memory Read transfers memory namespace bytes to host memory. -/
  | memoryRead (sq cid : BitVec 16) (nsid : BitVec 32) (off : BitVec 64) (len : BitVec 32) (dptr : BitVec 64)
  /-- MEMORY_WRITE (R529): Memory Write transfers host bytes into the memory namespace. -/
  | memoryWrite (sq cid : BitVec 16) (nsid : BitVec 32) (off : BitVec 64) (len : BitVec 32) (data : Option Bytes)
  /-- MEMORY_RANGE_SET_CREATE (R529): Memory Range Set Management create defines a range set. -/
  | memoryRangeSetCreate (sq cid : BitVec 16) (nsid : BitVec 32) (rsid : BitVec 16) (ranges : Option (List (BitVec 64 × BitVec 64)))
  /-- MEMORY_RANGE_SET_DELETE (R529): Memory Range Set Management delete removes a range set. -/
  | memoryRangeSetDelete (sq cid : BitVec 16) (nsid : BitVec 32) (rsid : BitVec 16)
  /-- HOST_READ_FAILURE (R535): A failed host memory read sets CSTS.CFS or completes the command with Data Transfer Error. -/
  | hostReadFailure (kind : Fin 3) (sq cid : BitVec 16)
  /-- SEQUENCER_RESET_RELEASE (R541): The node samples the straps, drives OSC_EN high and starts the start delay. -/
  | sequencerResetRelease
  /-- START_DELAY_END (R542): When the start delay ends the node checks the reference and starts the PLLs. -/
  | startDelayEnd
  /-- REFERENCE_CHECK_END (R542): After 100 µs of checking the node accepts the reference or retries, stopping after four failures. -/
  | referenceCheckEnd (ok : Bool)
  /-- PLL_LOCK (R542): Both PLLs lock and the domains switch to their default taps. -/
  | pllLock (locked : Bool)
  /-- REFERENCE_LOSS (R544): No reference edge for 1 µs puts both PLLs in holdover. -/
  | referenceLoss
  /-- REFERENCE_RETURN (R544): A reference in range for 100 µs lets both PLLs relock. -/
  | referenceReturn
  /-- ROOT_PLL_LOSS (R554): Root PLL loss moves management and stacks to auxiliary taps and starts a module reset. -/
  | rootPllLoss
  /-- TAP_SWITCH (R552): Writing CLK_SRC_SEL.TAP starts a glitch-free switch of the selected domain. -/
  | tapSwitch (path : RegPath) (tap : BitVec 4)
  /-- TAP_READY (R552): When the target tap is ready the multiplexer passes the new clock and clears PEND. -/
  | tapReady (dom : Fin 165)
  /-- TAP_TIMEOUT (R552): A target tap not ready within 100 µs abandons the switch. -/
  | tapTimeout (dom : Fin 165)
  /-- GATE_WRITE (R557): Writing CLK_GATE.GATE closes or opens a software gate, refused when in use. -/
  | gateWrite (path : RegPath) (gate : Bool)
  /-- RESET_N (R560): RESET_N held low for 10 µs starts a module reset. -/
  | resetN
  /-- RST_MODULE (R560): Writing 0x4D52 to RST_MODULE.KEY starts a module reset. -/
  | rstModule (path : RegPath)
  /-- MANAGEMENT_RESET_REQUEST (R560): The management reset request starts a module reset. -/
  | managementResetRequest
  /-- PARTITION_RESET (R561): RST_CTRL.KIND = 2 resets one partition's contexts and commands. -/
  | partitionReset (path : RegPath) (part : Fin 32)
  /-- PARTITION_RESET_END (R561): The partition reset ends when every context has restarted at its entry point. -/
  | partitionResetEnd (part : Fin 32) (bad : Option (Fin 1024))
  /-- CORE_RESET (R562): RST_CTRL.KIND = 1 hard-fences and unfences one core. -/
  | coreReset (path : RegPath) (tile : BitVec 7) (core : BitVec 4)
  /-- WATCHDOG_EXPIRY (R591): A unit's watchdog expires and the data path hard-fences it with a HANG record. -/
  | watchdogExpiry (unit : Fin 1344) (addr : BitVec 64) (us : BitVec 32)
  /-- CORE_TEST (R596): FLT_TEST kind 1 requests a core self-test. -/
  | coreTest (path : RegPath) (unit : BitVec 10)
  /-- ARRAY_TEST (R596): FLT_TEST kind 2 requests a matrix array self-test. -/
  | arrayTest (path : RegPath) (unit : BitVec 10)
  /-- GATHER_TEST (R596): FLT_TEST kind 3 requests a gather engine self-test. -/
  | gatherTest (path : RegPath) (unit : BitVec 10)
  /-- STACK_RETRAIN_TEST (R596): FLT_TEST kind 4 requests retraining of a stack. -/
  | stackRetrainTest (path : RegPath) (unit : BitVec 10)
  /-- FLASH_CALIBRATION_TEST (R596): FLT_TEST kind 5 makes a channel's calibration due at once. -/
  | flashCalibrationTest (path : RegPath) (unit : BitVec 10)
  /-- TEST_START (R597): A queued test starts once its unit is drained and a test slot is free. -/
  | testStart
  /-- TEST_END (R597): A test ends; a pass clears the data bit, a failure sets it with a SELF_TEST record. -/
  | testEnd (unit : Fin 1344) (pass : Bool) (pattern : BitVec 32)
  /-- TEST_ROTATION (R600): At each rotation interval the node requests a test of the next unit. -/
  | testRotation
  /-- CAPTURE_START (R605): CASK_CTRL.START with MODE 1 drains, cuts, resets and exports the base of the captured partitions. -/
  | captureStart (path : RegPath)
  /-- REPLAY_START (R610): CASK_CTRL.START with MODE 2 starts a replay of the captured partitions. -/
  | replayStart (path : RegPath)
  /-- CASK_STOP (R615): CASK_CTRL.STOP ends capture with END or stops replay. -/
  | caskStop (path : RegPath)
  /-- CASK_FEED (R610): CASK_FEED.GO reads segments from the host and re-executes their records. -/
  | caskFeed (path : RegPath) (buf : Option Bytes)
  /-- INPUT_LOW (R625): Bus below 700 V for 20 µs enters input low and reports it. -/
  | inputLow (vin : BitVec 10)
  /-- INPUT_LOW_END (R625): Bus above 720 V for 1 ms ends input low. -/
  | inputLowEnd (vin : BitVec 10)
  /-- BUS_FLUSH_TRIGGER (R627): Bus below 680 V for 5 µs triggers flush mode. -/
  | busFlushTrigger (vin : BitVec 10)
  /-- PWR_FAIL (R643): PWR_FAIL_N low for 1 µs triggers flush mode. -/
  | pwrFail
  /-- DRILL (R636): Writing 0x464C to PWR_CTRL.DRILL triggers a flush. -/
  | drill (path : RegPath)
  /-- FLUSH_COMPLETE (R627): The end record is programmed and the node enters the flushed state. -/
  | flushComplete
  /-- BUS_COLLAPSE (R630): The bus reaches 400 V, the converters stop and any unfinished flush is incomplete. -/
  | busCollapse (vin : BitVec 10)
  /-- INPUT_RETURN (R630): Bus above 740 V for 100 ms after a flush leads to a module reset with cause 5. -/
  | inputReturn (vin : BitVec 10)
  /-- CONVERTER_START (R640): Bus above 740 V for 100 ms starts the converters, and power-on reset follows. -/
  | converterStart (vin : BitVec 10)
  /-- TRAIL_WRITE (R623): The trail writer programs sealed records, and unsealed ones once 1 ms old, to the journal trail. -/
  | trailWrite
  /-- DURABILITY_SWEEP (R620): The sweep writes sweep images for changed leaves and indexes older than the horizon. -/
  | durabilitySweep (part : Fin 32) (index : Fin 16) (leaf : BitVec 32)
  /-- MAP_CHECKPOINT (R617): Each changed flash map page is rewritten within 60 s of its first change. -/
  | mapCheckpoint (page : Nat)
  /-- BUS_HIGH (R640): Bus above 870 V for 1 ms sets MOD_ERR.BUS_HIGH and writes a POWER record. -/
  | busHigh (vin : BitVec 10)
  /-- CARRIER_OVERCURRENT (R644): Kc_P12V above 2.5 A for 1 ms switches the output off and fails the carrier. -/
  | carrierOvercurrent (carrier : Fin 8)
  /-- CARRIER_POWER_EXCESS (R644): Carrier power above 150 W for 1 s sets MOD_ERR.CPWR. -/
  | carrierPowerExcess (watts : BitVec 8)
  /-- THERMAL_SAMPLE (R657): Every second each sensor is compared with its throttle and trip levels. -/
  | thermalSample (temps : List (BitVec 8))
  /-- THROTTLE_STEP (R658): Every 100 ms while a sensor is hot the node lowers, or later restores, the effective power cap. -/
  | throttleStep
  /-- OE_COOL (R660): An engine back at 70 °C or less restarts its channels. -/
  | oeCool (engine : Fin 8) (temp : BitVec 8)
  /-- TEMPERATURE_HISTORY_SAVE (R423): Once an hour the node saves the temperature histories. -/
  | temperatureHistorySave
  /-- LAMP_TEST (R664): Writing MOD_LOCATE.LAMP lights every LED for 3 s. -/
  | lampTest (path : RegPath)
  /-- MAX_CLR (R581): Writing DISP_CTRL.MAX_CLR sets DISP_RBUF.MAX to the current fill. -/
  | maxClr (path : RegPath)
  /-- EXTEST (R652): JTAG EXTEST drives the scanned contacts while RESET_N is low. -/
  | extest (captured shifted : BitVec 1368)
  /-- SAMPLE_PRELOAD (R652): JTAG SAMPLE/PRELOAD samples and preloads the boundary register. -/
  | samplePreload (captured shifted : BitVec 1368)
  /-- IDCODE (R652): JTAG IDCODE selects the IDCODE register, which reads 0x2481_65A7. -/
  | idcode
  /-- CLAMP (R652): JTAG CLAMP holds the outputs and bypasses, while RESET_N is low. -/
  | clamp
  /-- HIGHZ (R652): JTAG HIGHZ floats the outputs, while RESET_N is low. -/
  | highz
  /-- BYPASS (R652): JTAG BYPASS, and every unlisted code, selects the bypass register. -/
  | bypass (code : BitVec 8)
  /-- PRSNT_N_HIGH (R425): Kc_PRSNT_N rises for a carrier that is safe to remove, refused, failed, powering or identifying, which becomes absent, and after 100 ms high a tripped Kc_P12V output may come on again. -/
  | prsntNHigh (carrier : Fin 8)
  /-- PRESS_BEGIN (R661): Kc_BTN_N has been low for 20 ms, a press begins, MOD_BTN.PRESSED and EVENT set, and hold feedback starts 1 s in. -/
  | pressBegin (carrier : Fin 8)
  /-- RESET_N_RELEASE (R653): RESET_N rises and the start sequence of the held module reset runs; EXTEST, CLAMP and HIGHZ revert to BYPASS. -/
  | resetNRelease
  /-- RESET_HOLD_END (R560): The 1 ms hold of a module reset ends and the node reruns the start sequence from the step after the reference check. -/
  | resetHoldEnd
  /-- START_UP_END (R66): With the management controller running and the stacks trained, the node reads GSRC and loads from the flash store or waits for GO. -/
  | startUpEnd (reads : Reads)
  /-- PWR_FAIL_RELEASE (R643): Once PWR_FAIL_N has been high for 100 ms and R630 holds, the node performs the module reset that a low PWR_FAIL_N held back. -/
  | pwrFailRelease
  /-- AUX_PLL_LOSS (R563): The auxiliary PLL loses lock and CLK_STATUS.AUX_UNLOCK sets. -/
  | auxPllLoss
  /-- DIVIDE_DONE (R247): An integer divide or FP divide or square root finishes after 20 or 36 fT cycles and its yielded context becomes ready. -/
  | divideDone (core : Fin 864) (ctx : Fin 16)
  /-- VECTOR_UNIT_FREE (R248): The vector unit finishes an instruction's occupancy and a context that yielded waiting for it, or waiting in AB.VREL, becomes ready. -/
  | vectorUnitFree (core : Fin 864)
  /-- SHAPER_ELIGIBLE (R472): A queue's shaper credit grows back to 0 on an idle line and the queue becomes eligible, so the channel selects a frame. -/
  | shaperEligible (ch : Fin 128) (queue : Fin 8)
  /-- CAL_LATE (R385): A channel calibration overdue by 10 s sets FLS_CH_STATE.CAL_LATE and FLS_ERR.CAL_LATE. -/
  | calLate (ch : Fin 32)
  /-- BASE_EXPORT_END (R605): The memory base export of a capture completes and admission reopens, CASK_STATUS moving from base to capturing. -/
  | baseExportEnd
  /-- MIRROR_APPLY (R496): The mirror applies confirmed updates to its replica in ack stamp order and releases withheld MIRROR_ACKs as the backlog falls below 65,536. -/
  | mirrorApply (shard : Fin 1024)
  /-- SYNC_INTERVAL (R464): At each sync, announce and peer-delay interval the boundary clock sends its PTP messages on each port. -/
  | syncInterval (kind : Fin 3)
  /-- AGGREGATION_TIME (R537): The interrupt coalescing aggregation time of a completion queue runs out and the port sends its interrupt. -/
  | aggregationTime (queue : BitVec 16)
  /-- PCIE_LINK_UP (R516): After PERST_N is released the host link trains and comes up, and HOST_LINK shows its speed, width and mode. -/
  | pcieLinkUp (speed : BitVec 3) (width : BitVec 5) (flit msix : Bool)
  deriving DecidableEq, Repr

end Sys2Proof
end

