-- ==== Sys2Proof/Decode.lean ====
section
/-! DEFINITION. Sys2Proof/Decode.lean: the commands that a word spells by the bits of spec/opcode_table.json. No row of the table gives
bits: every row is an event, a message or a register action, and none has an encoding of its own. -/
namespace Sys2Proof

/-- The command that a word of `nbits` bits spells: none, since no row of the table has bits. -/
def decodeTableWord (_nbits _w : Nat) : Option Instr := none

end Sys2Proof
end

