-- ==== Sys2Proof/Config.lean ====
section
/-! DEFINITION. Sys2Proof/Config.lean: what an implementation fixes and the spec leaves open: opaque constants without a body, of
which nothing can be proved but that they are what they are. -/
namespace Sys2Proof.Config

/-- The `n`-th free value: an open value of the spec after which the node goes on, applied to State.freeCtr (assumption 2). -/
opaque freeValue : Nat → BitVec 64

/-- The fused module serial number (SYS_SERIAL_LO/HI have no reset value; assumption 4). -/
opaque fuseSerial : BitVec 64

/-- The fused base MAC address, which the node writes into FAB_MAC at start (FAB_MAC_LO; assumption 4). -/
opaque fuseMac : BitVec 48

/-- The fused rollback minimum that boot firmware writes into GRIST_SVN_MIN.MIN (R578; assumption 4). -/
opaque fuseSvnMin : BitVec 16

/-- The fused key revocations that boot firmware writes into GRIST_KEY_REVOKE (R578; assumption 4). -/
opaque fuseRevoke : BitVec 4

/-- The SHA-384 hash fused into each key slot, none for an unfused slot (R34; assumption 4). -/
opaque fuseKeyHash : Nat → Option (BitVec 384)

/-- The FP32 output of an encoder program for tokens, by dimension: a network is program content (assumption 24). -/
opaque encoderOut : Nat → List (BitVec 32) → Nat → BitVec 32

/-- The width of an encoder program's output, as 64 + 4n (R153; assumption 24). -/
opaque encoderWidth : Nat → Fin 241

/-- The FP32 ranking score that a ranking program gives a vector id for a query's context bytes (R167; assumption 24). -/
opaque rankerOut : Nat → List (BitVec 8) → Nat → BitVec 32

/-- The result of an unordered floating-point sum, whose association the V extension leaves open, and the flags it raises (assumption 33):
from the word, and vtype, vl, the rounding mode, the initial value and the active elements. -/
opaque unorderedSum : Nat → List Nat → BitVec 64 × BitVec 5

/-- Whether element or mask bit `i` of a vector destination, agnostic under vta or vma, becomes ones (assumption 33): from the word, vtype, vl
and vstart, the index, and the old value. -/
opaque agnosticOnes : Nat → List Nat → Nat → Nat → Bool

/-- Bytes of an NVMe Identify structure that the spec gives no value, by structure (CNS), command set and offset (assumption 38). -/
opaque identifyByte : Nat → Nat → Nat → BitVec 8

/-- Bytes of an NVMe log page that the spec gives no value, by log identifier and offset (assumption 38). -/
opaque logByte : Nat → Nat → BitVec 8

end Sys2Proof.Config
end

