-- ==== Sys2Proof/Machine/Crc.lean ====
section
/-! DEFINITION. Sys2Proof/Machine/Crc.lean: the two check codes of the node: CRC-32C (R31) and the header CRC-16 (R447). -/
namespace Sys2Proof

/-- One bit of the reflected CRC-32C. -/
def crc32cBit (c : Nat) : Nat := if c % 2 = 1 then (c >>> 1) ^^^ 0x82F63B78 else c >>> 1

/-- Eight bits. -/
def crc32cByte (c : Nat) (b : Byte) : Nat :=
  crc32cBit (crc32cBit (crc32cBit (crc32cBit (crc32cBit (crc32cBit (crc32cBit (crc32cBit (c ^^^ b.toNat))))))))

/-- The CRC-32C of a run of bytes (R31): Castagnoli, reflected, initial value and final XOR all ones. -/
def crc32c (d : Bytes) : Nat := (d.foldl crc32cByte 0xFFFFFFFF) ^^^ 0xFFFFFFFF

/-- One bit, then one byte, of the IEEE 802.3 frame check sequence (R460). -/
def fcsBit (c : Nat) : Nat := if c % 2 = 1 then (c >>> 1) ^^^ 0xEDB88320 else c >>> 1

def fcsByte (c : Nat) (b : Byte) : Nat :=
  fcsBit (fcsBit (fcsBit (fcsBit (fcsBit (fcsBit (fcsBit (fcsBit (c ^^^ b.toNat))))))))

/-- The IEEE 802.3 FCS of a frame from the destination address on. -/
def fcs (d : Bytes) : Nat := (d.foldl fcsByte 0xFFFFFFFF) ^^^ 0xFFFFFFFF

/-- One bit of the CRC-16 with polynomial 0x1021, not reflected. -/
def crc16Bit (c : Nat) : Nat := if c ≥ 0x8000 then ((c <<< 1) ^^^ 0x1021) % 0x10000 else (c <<< 1) % 0x10000

def crc16Byte (c : Nat) (b : Byte) : Nat :=
  crc16Bit (crc16Bit (crc16Bit (crc16Bit (crc16Bit (crc16Bit (crc16Bit (crc16Bit (c ^^^ (b.toNat <<< 8)))))))))

/-- The header CRC (R447). -/
def crc16 (d : Bytes) : Nat := d.foldl crc16Byte 0xFFFF

/-- Does a structure's CRC-32C field at offset `o` match its bytes before it. -/
def crcOk (d : Bytes) (o : Nat) : Bool := crc32c (d.take o) == fieldAt d o 4

end Sys2Proof
end

