-- ==== Sys2Proof/Machine/Maps.lean ====
section
/-! DEFINITION. Sys2Proof/Machine/Maps.lean: sparse maps from numbers to plain data in one canonical form (keys strictly rising, no
entry at the default value), so that equal contents are equal data; byte memories are such maps with default 0. -/
namespace Sys2Proof

/-- A sparse map: the listed keys rise strictly, and a key not listed holds the map's default value. -/
abbrev SMap (α : Type) := List (Nat × α)

/-- The value at a key. -/
def SMap.get {α : Type} (m : SMap α) (d : α) (k : Nat) : α :=
  match m with
  | [] => d
  | (k', v) :: r => if k' = k then v else SMap.get r d k

/-- Put an entry into its place in the order of keys. -/
def SMap.insert {α : Type} (m : SMap α) (k : Nat) (v : α) : SMap α :=
  match m with
  | [] => [(k, v)]
  | (k', v') :: r => if k < k' then (k, v) :: (k', v') :: r else if k' = k then (k, v) :: r else (k', v') :: SMap.insert r k v

/-- Take every entry of a key out. -/
def SMap.erase {α : Type} (m : SMap α) (k : Nat) : SMap α :=
  match m with
  | [] => []
  | (k', v') :: r => if k' = k then SMap.erase r k else (k', v') :: SMap.erase r k

/-- Set the value at a key; setting the default takes the entry out, so the form stays canonical. -/
def SMap.set {α : Type} [DecidableEq α] (m : SMap α) (d : α) (k : Nat) (v : α) : SMap α :=
  if v = d then SMap.erase m k else SMap.insert m k v

/-- Change the value at a key. -/
def SMap.modify {α : Type} [DecidableEq α] (m : SMap α) (d : α) (k : Nat) (f : α → α) : SMap α :=
  m.set d k (f (m.get d k))

/-- The canonical form: keys strictly rising and no entry at the default. -/
def SMap.wf {α : Type} [DecidableEq α] (d : α) : SMap α → Bool
  | [] => true
  | [(_, v)] => decide (v ≠ d)
  | (k, v) :: (k', v') :: r => decide (v ≠ d) && decide (k < k') && SMap.wf d ((k', v') :: r)

/-- The entries whose keys lie in [lo, hi). -/
def SMap.within {α : Type} (m : SMap α) (lo hi : Nat) : SMap α := m.filter fun e => lo ≤ e.1 && e.1 < hi

/-- The entries whose keys lie outside [lo, hi). -/
def SMap.without {α : Type} (m : SMap α) (lo hi : Nat) : SMap α := m.filter fun e => !(lo ≤ e.1 && e.1 < hi)

/-- A byte memory: listed bytes are not 0, and a byte that is not listed reads 0 (assumption 3). -/
abbrev Memory := List (Nat × BitVec 8)

/-- The canonical form of a byte memory. -/
def Memory.wf (m : Memory) : Bool := SMap.wf (0 : BitVec 8) m

/-- One byte of a memory. -/
def Memory.byte (m : Memory) (a : Nat) : Byte := SMap.get m 0 a

/-- Write one byte. -/
def Memory.setByte (m : Memory) (a : Nat) (v : Byte) : Memory := SMap.set m 0 a v

/-- `n` bytes from an address on. -/
def Memory.read (m : Memory) (a : Nat) : Nat → Bytes
  | 0 => []
  | n + 1 => m.byte a :: Memory.read m (a + 1) n

/-- Write a run of bytes from an address on. -/
def Memory.write (m : Memory) (a : Nat) : Bytes → Memory
  | [] => m
  | b :: r => Memory.write (m.setByte a b) (a + 1) r

/-- The little-endian number of `n` bytes at an address (R5). -/
def Memory.num (m : Memory) (a n : Nat) : Nat := leNat (m.read a n)

/-- Write a number little-endian (R5). -/
def Memory.setNum (m : Memory) (a n v : Nat) : Memory := m.write a (toLE n v)

/-- Write zeros over [a, a+n): every listed byte there goes back to 0. -/
def Memory.clear (m : Memory) (a n : Nat) : Memory := SMap.without m a (a + n)

end Sys2Proof
end

