-- ==== Sys2Proof/Machine/Types/Compose.lean ====
section
/-! DEFINITION. Sys2Proof/Machine/Types/Compose.lean: the composition map, shards, lending and metering (13_composition_and_tenancy),
with reset values. -/
namespace Sys2Proof.Machine

structure MapNode where
  id : Nat
  kind : Nat
  failed : Bool
  mac : BitVec 48
  deriving DecidableEq, Repr

structure MapLink where
  a : Nat
  chA : Nat
  b : Nat
  chB : Nat
  deriving DecidableEq, Repr

structure MapCorpus where
  id : Nat
  count : Nat
  first : Nat
  deriving DecidableEq, Repr

structure MapShard where
  id : Nat
  corpus : Nat
  mirrored : Bool
  takeover : Bool
  owner : Nat
  service : Nat
  mirrorService : Nat
  mirror : Nat
  previous : Nat
  index : Nat
  deriving DecidableEq, Repr

structure MapLend where
  id : Nat
  flash : Bool
  lenderPart : Nat
  lender : Nat
  extent : Nat
  borrower : Nat
  borrowerPart : Nat
  deriving DecidableEq, Repr

/-- A composition map (R482, R483). -/
structure CompMap where
  epoch : Nat
  nodes : List MapNode
  links : List MapLink
  corpora : List MapCorpus
  shards : List MapShard
  lends : List MapLend
  deriving DecidableEq, Repr

/-- COMP_SHARD_STATE.ROLE. -/
inductive ShardRole where
  | none | owner | claiming | resyncing | inSync | yielding | unavailable
  deriving DecidableEq, Repr

/-- An update that the mirror has journalled, or that waits for its MIRROR_ACK (R495, R496). -/
structure MirrorItem where
  ack : Stamp
  request : List (BitVec 8)
  journal : List (BitVec 8)
  /-- update in flight at the owner, and when it was sent -/
  upd : Nat
  sentAt : Nat
  sent : Bool := false
  deriving DecidableEq, Repr

/-- A shard as this node holds it (R495–R504). -/
structure Shard where
  role : ShardRole := .none
  /-- the keeping node of an override, and the epoch above which it ends -/
  override : Option (Nat × Nat) := none
  held : Bool := false
  ostamp : Stamp := ⟨0, 0, 0⟩
  lastAck : Stamp := ⟨0, 0, 0⟩
  /-- owner: updates waiting for MIRROR_ACK, oldest first -/
  unacked : List MirrorItem := []
  /-- mirror: confirmed updates not yet applied, in ack stamp order; acknowledgements withheld -/
  toApply : List MirrorItem := []
  withheld : List Stamp := []
  cut : Stamp := ⟨0, 0, 0⟩
  syncSeq : Nat := 0
  /-- this node's replica of the shard is in sync (R498) -/
  inSync : Bool := false
  /-- state bytes that MIRROR_SYNC messages have brought so far -/
  sync : List (BitVec 8) := []
  /-- final ack stamp a YIELD carried, which the replica must reach -/
  yieldTo : Option Stamp := none
  deriving DecidableEq, Repr

def Shard.reset : Shard := {}

/-- A lend command on its way (R505, R506). -/
structure LendCmd where
  tag : Nat
  part : Nat
  desc : List (BitVec 8)
  sentAt : Nat
  deriving DecidableEq, Repr

/-- The COMPOSE block (R486–R509, R513). -/
structure Comp where
  map : Option CompMap := none
  raw : List (BitVec 8) := []
  /-- the copy in the node reserve and the carriers' system areas (R488) -/
  stored : List (BitVec 8) := []
  node : BitVec 16 := 0
  alone : Bool := false
  confirmed : Bool := false
  busy : Bool := false
  refused : Bool := false
  err : BitVec 8 := 0
  hostAddr : BitVec 64 := 0
  hostLen : BitVec 32 := 0
  conflicts : BitVec 32 := 0
  shardSel : BitVec 10 := 0
  shards : SMap Shard := []
  /-- a newer epoch seen, from which node, and when MAP_FETCH was last sent -/
  wanted : Option (Nat × Nat) := none
  fetchAt : Nat := 0
  confirmAt : Nat := 0
  claimAt : Nat := 0
  /-- lend commands without a reply, the next tag, and lend ids whose contents were lost, with the epoch at the loss -/
  lends : List LendCmd := []
  nextTag : Nat := 1
  lost : List (Nat × Nat) := []
  zeroLend : List Nat := []
  deriving DecidableEq, Repr

/-- A meter set (R510–R512). -/
structure MeterSet where
  cnt : List (BitVec 64) := List.replicate 8 0
  wrap : BitVec 8 := 0
  macs : Nat := 0
  pj : Nat := 0
  deriving DecidableEq, Repr

def MeterSet.reset : MeterSet := {}

/-- The METER block (R514). -/
structure Meter where
  sel : BitVec 9 := 0
  sets : SMap MeterSet := []
  snap : List (BitVec 64) := List.replicate 8 0
  snapWrap : BitVec 8 := 0
  coef : List (BitVec 32) := [24900, 157, 1280, 300000, 20000000, 100000000, 25]
  deriving DecidableEq, Repr

end Sys2Proof.Machine
end

