-- ==== Sys2Proof/Machine/Types/Cores.lean ====
section
/-! DEFINITION. Sys2Proof/Machine/Types/Cores.lean: the state of the general cores, their contexts and the tile registers
(07_general_cores), of the queues contexts exchange work through, with reset values. -/
namespace Sys2Proof.Machine

/-- What a context waits for (R246–R259), or how it stands (TILE_CTX_STATE). -/
inductive CtxWait where
  | unassigned
  | ready
  /-- waiting for a memory result -/
  | memory
  /-- waiting for a divide or a square root -/
  | unit_
  /-- waiting for the vector unit -/
  | vunit
  /-- in AB.QTAKE: queue id and destination register -/
  | qtake (queue : Nat) (rd : Fin 32)
  /-- in AB.QPUT: queue id, source address, destination register -/
  | qput (queue : Nat) (src : Nat) (rd : Fin 32)
  /-- in AB.VACQ -/
  | vacq
  /-- in AB.VREL, until its vector instructions have completed -/
  | vrel
  /-- in AB.WAITW: word address, the value seen, destination register, uptime limit in fT cycles from the start -/
  | waitw (addr : Nat) (val : BitVec 64) (rd : Fin 32)
  /-- in AB.STAMP: address the stamp goes to -/
  | stamp (addr : Nat)
  /-- parked by a drain in AB.QTAKE, or by AB.FDONE -/
  | parked
  /-- stopped after eight faults (R270) -/
  | stopped
  deriving DecidableEq, Repr

/-- A queue entry that a context has taken and not released (R254). -/
structure TakenEntry where
  queue : Nat
  slot : Nat
  deriving DecidableEq, Repr

/-- The result of a load, AMO, LR or SC that has not reached its context yet (R247): the register and its value, or a vector load's data. -/
inductive PendRes where
  | int (rd : Fin 32) (v : BitVec 64)
  | float (rd : Fin 32) (v : BitVec 64)
  | vec
  deriving DecidableEq, Repr

/-- A hardware context (R243). Integer and floating registers are sparse: a register not listed reads 0, and x0 is never listed. -/
structure Ctx where
  pc : BitVec 64 := 0
  x : SMap (BitVec 64) := []
  f : SMap (BitVec 64) := []
  fcsr : BitVec 8 := 0
  vstart : BitVec 16 := 0
  vxsat : Bool := false
  vxrm : BitVec 2 := 0
  vl : BitVec 64 := 0
  vtype : BitVec 64 := BitVec.ofNat 64 (2 ^ 63)
  /-- the vector slot bound to the context, 0–7 -/
  slot : Option (Fin 8) := none
  abfhook : BitVec 64 := 0
  abfepc : BitVec 64 := 0
  abwaitlim : BitVec 64 := 0
  abcause : BitVec 2 := 0
  tenant : BitVec 9 := 0x100
  /-- the request held (R255): its number in the dispatcher's list -/
  held : Option Nat := none
  /-- in a diversion to its hook, and diverted once in this drain -/
  hook : Bool := false
  diverted : Bool := false
  /-- LR reservation: the address of the aligned 64 bytes, as a memory key -/
  resv : Option Nat := none
  /-- results on their way, oldest first, and stores held at a mash bank -/
  loads : List PendRes := []
  outst : Nat := 0
  /-- its held access has been served: the next instruction's access goes through (R362) -/
  grant : Bool := false
  taken : List TakenEntry := []
  wait : CtxWait := .unassigned
  faults : BitVec 8 := 0
  /-- rack times of recent faults, newest first (R270) -/
  faultAt : List Nat := []
  /-- uptime of the context's start at its entry point (R244) and instructions retired -/
  startAt : Nat := 0
  instret : BitVec 64 := 0
  /-- program id, 0 for none -/
  prog : Nat := 0
  deriving DecidableEq, Repr

def Ctx.reset : Ctx := {}

/-- TILE_CSTATE codes (R276). -/
inductive CoreState where
  | disabled | running | draining | fenced | testing
  deriving DecidableEq, Repr

/-- A general core: its state, current context, contexts by number, vector slots (register bytes keyed 512 × register + byte)
and the contexts waiting for a slot, oldest first. -/
structure Core where
  st : CoreState := .disabled
  cur : Fin 16 := 0
  ctxs : SMap Ctx := []
  slots : SMap (List (Nat × BitVec 8)) := []
  slotWait : List (Fin 16) := []
  drainAt : Nat := 0
  /-- context whose instruction occupies the vector unit -/
  vbusy : Option (Fin 16) := none
  deriving DecidableEq, Repr

def Core.reset : Core := {}

/-- The TILE registers of one tile that are not core state (R276). -/
structure TileRegs where
  core : BitVec 9 := 0
  array : BitVec 4 := 0
  gather : Bool := false
  limitUs : BitVec 16 := 0x01F4
  data : BitVec 9 := 0
  gdata : Bool := false
  hard : BitVec 9 := 0
  selCtx : BitVec 4 := 0
  selCore : BitVec 4 := 0
  cfault : BitVec 9 := 0
  deriving DecidableEq, Repr

def TileRegs.reset : TileRegs := {}

/-- Work that a standard program posted: the scan of a query's round and leaf, or the rescore of a round on a carrier (R161, R162). -/
inductive StdWork where
  | scan (req round leaf : Nat)
  | rescore (req round carrier : Nat)
  deriving DecidableEq, Repr

/-- One entry of a queue's storage (R252): its slot, whether a context has taken it, the tenant tag of its poster, and the request
it stands for where it is one. -/
structure QEntry where
  slot : Nat
  taken : Bool := false
  tag : BitVec 9 := 0x100
  req : Option Nat := none
  std : Option StdWork := none
  deriving DecidableEq, Repr

/-- A context named by core number and context number. -/
structure CtxRef where
  core : Nat
  ctx : Fin 16
  deriving DecidableEq, Repr

/-- The run state of a queue (R56, R252, R253): entries oldest first, and the contexts waiting to take or to post, oldest first. -/
structure QState where
  entries : List QEntry := []
  takers : List CtxRef := []
  posters : List CtxRef := []
  /-- answer entries reserved at admission and not yet used (R147) -/
  reserved : Nat := 0
  deriving DecidableEq, Repr

def QState.reset : QState := {}

end Sys2Proof.Machine
end

