-- ==== Sys2Proof/Machine/Types/Engines.lean ====
section
/-! DEFINITION. Sys2Proof/Machine/Types/Engines.lean: the state of the gather engines (06_embedding_tables), the matrix engines (08_matrix_engine) and
index refinement (09_quantisation_and_training), with reset values. FP32 values are their bits. -/
namespace Sys2Proof.Machine

/-- A bag's part in a window (R226, R231): its unique rows in ascending order, each with its weight and
its occurrences. -/
structure GthSeg where
  bag : Nat
  /-- the bag ends in this segment -/
  last : Bool
  rows : List (Nat × Nat × Nat)
  deriving DecidableEq, Repr

/-- A gather command in progress (R223–R234). -/
structure GthCmd where
  part : Nat
  desc : List (BitVec 8)
  tag : BitVec 9
  /-- descriptor offset of the version bound -/
  ver : Nat := 0
  /-- final status, once it is decided -/
  status : Option Nat := none
  /-- next bag, and position within it -/
  bag : Nat := 0
  pos : Nat := 0
  /-- the window being read: its segments, and its unique rows not yet retired, ascending -/
  segs : List GthSeg := []
  todo : List Nat := []
  windowOpen : Bool := false
  /-- rows read in earlier windows, rising -/
  seen : List Nat := []
  /-- accumulated weights by bag -/
  wsum : SMap Nat := []
  samples : List Nat := []
  windows : Nat := 0
  reads : Nat := 0
  coal : Nat := 0
  rereads : Nat := 0
  flash : Nat := 0
  absent : Nat := 0
  oor : Nat := 0
  errs : Nat := 0
  /-- rows in error, in the order in which they were met -/
  badRows : List Nat := []
  deriving DecidableEq, Repr

/-- A tile's gather engine and its GATHER block (R222–R236). -/
structure Gth where
  pause : Bool := false
  err : BitVec 4 := 0
  cmdCnt : BitVec 32 := 0
  readCnt : BitVec 32 := 0
  coalCnt : BitVec 32 := 0
  rereadCnt : BitVec 32 := 0
  sampleDrop : BitVec 32 := 0
  /-- path cache, most recently used first: descriptor offset, row index bits [39:8], row map page (R229) -/
  cache : List (Nat × Nat × Nat) := []
  cmd : Option GthCmd := none
  deriving DecidableEq, Repr

def Gth.reset : Gth := {}

/-- A matrix descriptor in progress (R282–R300). -/
structure MtxCmd where
  part : Nat
  desc : List (BitVec 8)
  tag : BitVec 9
  status : Option Nat := none
  /-- token block, first n-block of the group, chunk -/
  tb : Nat := 0
  nb : Nat := 0
  chunk : Nat := 0
  /-- arrays that serve the group, ascending; none while the group waits for one -/
  serving : List Nat := []
  /-- a phase runs -/
  running : Bool := false
  /-- accumulators of the token block, keyed token × 65,536 + output; an entry not listed is 0 -/
  acc : SMap Nat := []
  /-- MACs of the phases that have finished -/
  macs : Nat := 0
  served : BitVec 4 := 0
  clamped : Nat := 0
  nans : Nat := 0
  deriving DecidableEq, Repr

/-- A tile's matrix engine and its MATRIX block (R279–R314). -/
structure Mtx where
  pause : Bool := false
  err : BitVec 3 := 0
  data : BitVec 4 := 0
  hard : BitVec 4 := 0
  draining : BitVec 4 := 0
  /-- uptime at which each array's drain began -/
  drainAt : SMap Nat := []
  descCnt : BitVec 32 := 0
  macCnt : BitVec 64 := 0
  macHi : BitVec 32 := 0
  /-- cycle counters: what is added to them is free -/
  busyCyc : BitVec 32 := 0
  stallCyc : BitVec 32 := 0
  holdCyc : BitVec 32 := 0
  cmd : Option MtxCmd := none
  deriving DecidableEq, Repr

def Mtx.reset : Mtx := {}

/-- A refinement sample kept for its round, or in the reservoir (R324–R326): ack stamp and the queue entry's bytes. -/
structure RefSample where
  part : Nat
  index : Nat
  ack : Stamp
  data : List (BitVec 8)
  deriving DecidableEq, Repr

/-- The REFINE block and what the refinement program holds besides the training area (R320–R343). -/
structure Refn where
  selPart : BitVec 5 := 0
  selIndex : BitVec 4 := 0
  /-- training samples of the windows to come, and the validation reservoirs, oldest ack stamp first -/
  samples : List RefSample := []
  reservoir : List RefSample := []
  /-- evaluate the next committed round: partition × 16 + index -/
  evalNow : List Nat := []
  /-- next window whose round will run, and indexes whose training state exists, by partition × 16 + index -/
  win : SMap Nat := []
  trained : List Nat := []
  /-- rack pace (R335): uptime up to which tokens are counted and tokens in 10⁻⁹, and the cursor, by partition × 16 + index -/
  tokens : SMap (Nat × Nat) := []
  cursor : SMap Nat := []
  deriving DecidableEq, Repr

end Sys2Proof.Machine
end

