-- ==== Sys2Proof/Machine/Types/Fabric.lean ====
section
/-! DEFINITION. Sys2Proof/Machine/Types/Fabric.lean: the state of the optical fabric, its traffic control and the rack time base
(12_fabric), with reset values. -/
namespace Sys2Proof.Machine

/-- The state of a channel (R443, FAB_CH_STATE). -/
inductive ChState where
  | undefined | noFibre | training | init | up | failed
  deriving DecidableEq, Repr

/-- A message in an egress queue (R448): whole, with the segments already sent. -/
structure EgMsg where
  dest : BitVec 16
  tenant : BitVec 8
  colour : BitVec 2
  msgId : BitVec 16
  stamp : Stamp
  data : List (BitVec 8)
  /-- Ethernet destination address when the map does not list the destination (R460) -/
  mac : Option (BitVec 48) := none
  sent : Nat := 0
  /-- what its last bit leaving the node means: 0 nothing, 1 a refusal (R148), 2 an answer (R168) -/
  note : Nat := 0
  /-- meter set charged for its frame bytes (R510) -/
  set : Nat := 288
  deriving DecidableEq, Repr

/-- An egress queue with its weight, shaper and tags (R470–R472). Credit is in 1/8000 byte, so that r Mb/s adds r a nanosecond. -/
structure EgQueue where
  msgs : List EgMsg := []
  weight : BitVec 8 := 1
  rate : BitVec 24 := 0
  burst : BitVec 16 := 0x0100
  credit : Int := 0
  creditAt : Nat := 0
  tag : BitVec 48 := 0
  /-- the tag of the head frame, once computed -/
  headTag : Option (BitVec 48) := none
  /-- a shaper or credit hold has been seen since the head tag was computed -/
  wasHeld : Bool := false
  deriving DecidableEq, Repr

/-- A message being reassembled (R449), keyed by source node, link class and message id. -/
structure Reasm where
  src : BitVec 16
  cls : BitVec 3
  mid : BitVec 16
  next : Nat
  data : List (BitVec 8)
  tenant : BitVec 8
  colour : BitVec 2
  /-- accounted length so far (R475) and credit units held -/
  acct : Nat
  units : Nat
  /-- uptime at which segment 0 arrived (R462) -/
  since : Nat
  mac : BitVec 48
  epoch : BitVec 32
  deriving DecidableEq, Repr

/-- The reset weights of queues 0–7 (FAB_Q_WEIGHT). -/
def resetQueues : List EgQueue :=
  [{ weight := 0x01 }, { weight := 0x40 }, { weight := 0x20 }, { weight := 0x20 },
   { weight := 0x10 }, { weight := 0x10 }, { weight := 0x04 }, { weight := 0x01 }]

/-- A fabric channel (R43, R443–R459, R480). -/
structure Chan where
  state : ChState := .undefined
  eth : Bool := false
  width : BitVec 2 := 0
  engine : BitVec 3 := 0
  first : BitVec 4 := 0
  owner : BitVec 8 := 0xFF
  peer : BitVec 16 := 0xFFFF
  compat : Bool := false
  overhead : BitVec 6 := 0
  err : BitVec 7 := 0
  rxDrop : BitVec 32 := 0
  reinit : BitVec 32 := 0
  asym : BitVec 16 := 0
  incarnation : BitVec 32 := 0
  initSeen : Bool := false
  ackSeen : Bool := false
  /-- credit limits granted by the peer, units sent, units this receiver has made available, per class (R456) -/
  limit : List (BitVec 32) := List.replicate 8 0
  sent : List (BitVec 32) := List.replicate 8 0
  avail : List (BitVec 32) := List.replicate 8 0
  /-- units held in each class's receive pool, and whether freed units are not yet reported -/
  held : List Nat := List.replicate 8 0
  unreported : Bool := false
  reasm : List Reasm := []
  queues : List EgQueue := resetQueues
  vtime : BitVec 48 := 0
  /-- control frames waiting to go: LINK and CREDIT, then TIME (R470) -/
  ctl : List (List (BitVec 8)) := []
  timeq : List (List (BitVec 8)) := []
  lastRx : Nat := 0
  lastTx : Nat := 0
  /-- uptime at which the state was entered -/
  since : Nat := 0
  txOn : Bool := false
  /-- path delay in ps, and the last PTP message received -/
  pathDelay : Int := 0
  lastPtp : List (BitVec 8) := []
  deriving DecidableEq, Repr

/-- The state a channel has while the FABRIC section defines none there. -/
def Chan.reset : Chan := {}

/-- A policer profile (R474–R478, FAB_POL_*). -/
structure PolProfile where
  cir : BitVec 24 := 0
  pir : BitVec 24 := 0
  cbs : BitVec 16 := 0x0800
  pbs : BitVec 16 := 0x0800
  aware : Bool := false
  redDrop : Bool := false
  ylim : BitVec 7 := 0x64
  green : BitVec 32 := 0
  yellow : BitVec 32 := 0
  red : BitVec 32 := 0
  deriving DecidableEq, Repr

def PolProfile.reset : PolProfile := {}

/-- A binding's policer: its two buckets in 1/8000 byte and when they were last brought up to date (R476). -/
structure Bucket where
  tp : Nat
  tc : Nat
  upTo : Nat
  deriving DecidableEq, Repr

/-- The FABRIC block (R480). -/
structure Fab where
  fdet : BitVec 8 := 0
  /-- detect lines as last seen, with the uptime since which each is active -/
  detRaw : BitVec 8 := 0
  etype : BitVec 16 := 0x88B5
  vlan : Bool := false
  seg1k : Bool := false
  vid : BitVec 12 := 0
  mac : BitVec 48 := 0
  self : Bool := false
  domain : BitVec 8 := 0
  prio1 : BitVec 8 := 0x80
  prio2 : BitVec 8 := 0x80
  chSel : BitVec 7 := 0
  qSel : BitVec 3 := 0
  chans : SMap Chan := []
  polSel : BitVec 6 := 0
  pols : SMap PolProfile := []
  buckets : List (Nat × Bucket) := []
  /-- next message id per (destination node × 8 + link class) (R448) -/
  msgIds : SMap (BitVec 16) := []
  /-- messages that wait for egress space or for a channel, oldest first, with their class -/
  waiting : List (Nat × Nat × EgMsg) := []
  deriving DecidableEq, Repr

/-- The time state (R466). -/
inductive TimeState where
  | free | locked | holdover
  deriving DecidableEq, Repr

/-- The rack time base and the stamp unit (R20, R21, R463–R468, R668). -/
structure TimeBase where
  /-- uptime in ns since power-on: the model's own clock, never set back -/
  up : Nat := 0
  rack : BitVec 64 := 0
  /-- fraction of a nanosecond of rack time not yet counted, in 10⁻⁶ ns -/
  frac : Nat := 0
  /-- slew in ppm, and the frequency correction held for the master's rate in ppm -/
  slew : Int := 0
  freq : Int := 0
  state : TimeState := .free
  fault : Bool := false
  port : BitVec 7 := 0x7F
  via : Bool := false
  offset : BitVec 16 := 0
  setTo : BitVec 64 := 0
  /-- consecutive sync intervals within ±20 ns -/
  good : Nat := 0
  /-- uptime of the last sync message -/
  syncAt : Nat := 0
  /-- the time state has been Locked since the latest reset (R21, R468) -/
  lockedOnce : Bool := false
  /-- the stamp floor once it is known (R668) -/
  floor : Option Nat := none
  /-- last stamp issued that is no zero stamp: its rack time, and the next sequence number at that time -/
  lastTime : BitVec 64 := 0
  nextSeq : Nat := 0
  issued : Bool := false
  zeroSeq : BitVec 16 := 0
  /-- identifier the stamp unit uses: 0xFFFF until the first map (R21) -/
  node : BitVec 16 := 0xFFFF
  /-- rack time before which the next stamp waits after the identifier changed (R21) -/
  notBefore : Nat := 0
  deriving DecidableEq, Repr

end Sys2Proof.Machine
end

