-- ==== Sys2Proof/Machine/Types/Grist.lean ====
section
/-! DEFINITION. Sys2Proof/Machine/Types/Grist.lean: what a grist image defines, and the GRIST block (02_grist_image). -/
namespace Sys2Proof.Machine

/-- GRIST_STATUS.STATE (R82). -/
inductive GState where
  | empty | loading | draining | applying | running | failed
  deriving DecidableEq, Repr

/-- GRIST_PSTATE codes. -/
inductive PState where
  | absent | running | reloading | failed
  deriving DecidableEq, Repr

/-- A memory extent (R48): bytes [base GiB, base + length GiB) of a stack. -/
structure MemExt where
  stack : Nat
  scan : Bool
  base : Nat
  len : Nat
  deriving DecidableEq, Repr

/-- A flash extent (R51). -/
structure FlashExt where
  id : Nat
  nvme : Bool
  blk4k : Bool
  sizeGB : Nat
  place : Nat
  deriving DecidableEq, Repr

/-- A route entry (R53). -/
structure Route where
  src : Nat
  dst : Nat
  classes : BitVec 8
  waypoint : Nat
  deriving DecidableEq, Repr

/-- A queue (R56). -/
structure QueueDef where
  id : Nat
  kind : Nat
  depth : Nat
  esize : Nat
  home : Nat
  high : Nat
  off : Nat
  deriving DecidableEq, Repr

/-- A tenant binding (R58). -/
structure Binding where
  tenant : Nat
  service : Nat
  rights : BitVec 4
  limit : Nat
  policer : Nat
  deriving DecidableEq, Repr

/-- A program assignment (R60). -/
structure Assign where
  tile : Nat
  ctxMask : BitVec 16
  coreMask : BitVec 9
  deriving DecidableEq, Repr

/-- A program (R60). -/
structure Program where
  id : Nat
  code : List (BitVec 8)
  data : List (BitVec 8)
  zeroed : Nat
  entry : Nat
  assigns : List Assign
  deriving DecidableEq, Repr

/-- One stage of a service (R63). -/
structure Stage where
  code : Nat
  optional : Bool
  program : Nat
  deriving DecidableEq, Repr

/-- A service (R63). -/
structure Service where
  index : Nat
  kind : Nat
  reqQ : Nat
  updQ : Nat
  ansQ : Nat
  entryProg : Nat
  maxK : Nat
  beam : Nat
  widen : Nat
  defBudget : Nat
  ceiling : Nat
  nvme : Nat
  dist : BitVec 3
  stages : List Stage
  deriving DecidableEq, Repr

/-- A partition as its sections define it (R45–R65). -/
structure Part where
  num : Nat
  prio : Nat
  name : List (BitVec 8)
  /-- owned tiles, ascending, with their 14 enable bits -/
  tiles : List (Nat × BitVec 14)
  seed : BitVec 64
  mem : List MemExt
  flash : List FlashExt
  queues : List QueueDef
  tenants : List Binding
  routes : List Route
  programs : List Program
  services : List Service
  deriving DecidableEq, Repr

/-- A fabric channel entry (R43). -/
structure ChanDef where
  ch : Nat
  engine : Nat
  first : Nat
  width : Nat
  eth : Bool
  owner : Nat
  deriving DecidableEq, Repr

/-- The CLOCK section (R40). -/
structure ClockDef where
  tileDiv : Nat := 5
  meshDiv : Nat := 3
  flashDiv : Nat := 12
  gating : BitVec 3 := 0
  cap : Nat := 1450
  calUs : Nat := 0
  partDiv : List Nat := []
  deriving DecidableEq, Repr

/-- An image as its bytes spell it, once its checks have passed. -/
structure Image where
  partial_ : Bool
  target : Nat
  id : BitVec 64
  base : BitVec 64
  hash : BitVec 384
  clock : ClockDef
  chans : List ChanDef
  parts : List Part
  deriving DecidableEq, Repr

/-- A load in progress: its bytes, where they came from and what was sampled at GO (R83). -/
structure Load where
  image : Image
  raw : List (BitVec 8)
  persist : Bool
  /-- uptime at which the drain began, and its limit in ms -/
  drainAt : Nat
  drainMs : Nat
  deriving DecidableEq, Repr

/-- The GRIST block and the running image (R36, R66–R83). -/
structure Grist where
  src : BitVec 2 := 0
  persist : Bool := false
  drainMs : BitVec 8 := 0x64
  state : GState := .empty
  refused : Bool := false
  fallback : Bool := false
  nosect : Bool := true
  err : BitVec 8 := 0
  errSection : BitVec 10 := 0x3FF
  part : BitVec 5 := 0
  lastPartial : Bool := false
  pstate : SMap PState := []
  hostAddr : BitVec 64 := 0
  hostLen : BitVec 32 := 0
  svnMin : BitVec 16 := 0
  locked : Bool := false
  revoke : BitVec 4 := 0
  hash : BitVec 384 := 0
  phashSel : BitVec 5 := 0
  phash : SMap (BitVec 384) := []
  /-- identifier, clock policy and partitions of what runs -/
  imageId : BitVec 64 := 0
  clock : ClockDef := {}
  parts : List Part := []
  /-- the load in progress, if one drains -/
  load : Option Load := none
  /-- admission is open (R69 step 12) -/
  admitting : Bool := false
  deriving DecidableEq, Repr

/-- The divider steps power capping has taken (R42), newest first, and whether new matrix descriptors are held (R308). -/
structure CapState where
  steps : List (Nat × Nat) := []
  hold : Bool := false
  /-- effective cap in W once a load ran; thermal steps lower it (R658) -/
  cap : Nat := 1450
  /-- uptime of the last step made or undone -/
  stepAt : Nat := 0
  deriving DecidableEq, Repr

end Sys2Proof.Machine
end

