-- ==== Sys2Proof/Machine/Types/Flash.lean ====
section
/-! DEFINITION. Sys2Proof/Machine/Types/Flash.lean: the state of the flash channels, carriers, translation layer and lauter engines
(11_flash_and_storage), with reset values. A logical page is named by one number, its page key (partition, extent, page). -/
namespace Sys2Proof.Machine

/-- The carrier states (R425), in the order of their codes. -/
inductive CarState where
  | absent | powering | identifying | online | rebuilding | removal | safe | lost | refused | failed
  deriving DecidableEq, Repr

/-- The storage states (FLS_STATUS.STATE), in the order of their codes. -/
inductive FlsState where
  | down | forming | ready | degraded | rebuilding | readOnly | failed
  deriving DecidableEq, Repr

/-- A carrier's identity record (R386): the fields that decide, and its two tables as bytes. -/
structure Ident where
  targets : Nat := 16
  ordering : List (BitVec 8) := []
  serial : BitVec 64 := 0
  setId : BitVec 64 := 0
  position : BitVec 8 := 0xFF
  format : Stamp := ⟨0, 0, 0⟩
  dieCmds : List (BitVec 8) := []
  retry : List (BitVec 8) := []
  deriving DecidableEq, Repr

/-- A carrier slot: pins, state, identity, flash store and media counts. -/
structure Carrier where
  state : CarState := .absent
  /-- debounced presence, and power enable -/
  present : Bool := false
  pwrEn : Bool := false
  pgood : Bool := false
  ident : Option Ident := none
  store : FlashStore := {}
  /-- serial number of the carrier that last left this slot, and the stripe blocks changed since (R433) -/
  leftSerial : Option (BitVec 64) := none
  changed : List Nat := []
  /-- stripe blocks still to rebuild, and how many there were; delta or full -/
  todo : List Nat := []
  total : Nat := 0
  delta : Bool := false
  /-- bytes rebuilt when the rate was last set, and the uptime of that moment (R433) -/
  doneBytes : Nat := 0
  doneAt : Nat := 0
  /-- readings of sensors A and B, °C signed; pauses in force at 75 and 85 °C (R435) -/
  pause75 : Bool := false
  pause85 : Bool := false
  /-- temperature histories of its two sensors as the identity record holds them, by sensor of the carrier × 64 + bin (R423) -/
  hist : SMap Nat := []
  pagesRead : BitVec 64 := 0
  pagesProg : BitVec 64 := 0
  erased : BitVec 64 := 0
  retired : Nat := 0
  /-- the reason it was refused was that it belongs to another set (R427) -/
  foreign : Bool := false
  deriving DecidableEq, Repr

def Carrier.reset : Carrier := {}

/-- A flash channel (R385, R436). -/
structure FlashCh where
  failed : Bool := false
  trained : Bool := false
  calDue : Bool := false
  calLate : Bool := false
  /-- uptime at which the calibration fell due, temperature at the last one -/
  dueAt : Nat := 0
  lastCal : Nat := 0
  calTemp : BitVec 8 := 0
  /-- uptime at which the calibration that runs ends -/
  calUntil : Nat := 0
  deriving DecidableEq, Repr

def FlashCh.reset : FlashCh := {}

/-- A staged page (R392, R393): the bytes written so far by offset, the 16-byte granules they cover, its hint, when its oldest
byte was staged and how often it was staged since it was last kilned. -/
structure Staged where
  data : List (Nat × BitVec 8) := []
  granules : List Nat := []
  hint : Nat := 0
  since : Nat := 0
  stamp : Stamp := ⟨0, 0, 0⟩
  deriving DecidableEq, Repr

/-- The streams (R395). -/
inductive Stream where
  | steep | hot | cold
  deriving DecidableEq, Repr

/-- A stripe (R389): its block, page, what each of the eight positions holds (the page key, or none for filler or parity), its
program stamp, the position skipped while degraded, and whether it has programmed. -/
structure Stripe where
  block : Nat
  page : Nat
  slots : List (Option Nat)
  stream : Stream
  stamp : Stamp := ⟨0, 0, 0⟩
  skip : Option Nat := none
  /-- the staged pages as they stood when the program began -/
  snap : List (Nat × Staged) := []
  programmed : Bool := false
  programming : Bool := false
  deriving DecidableEq, Repr

/-- A stripe block in use: one member block on each carrier at the same channel, target, plane and block. -/
structure SBlock where
  oneBit : Bool
  stream : Stream
  closed : Bool := false
  /-- order in which it was opened -/
  order : Nat
  next : Nat := 0
  /-- an erase of it is in progress -/
  erasing : Bool := false
  deriving DecidableEq, Repr

/-- Where a page of a lauter command came from (R403–R405, R411). -/
inductive ReadFrom where
  /-- the staging buffer -/
  | staging
  /-- no copy exists: the page reads as zeros (R391) -/
  | unmapped
  /-- ladder step 1–8 -/
  | step (n : Nat)
  | rebuild
  | unrecoverable
  deriving DecidableEq, Repr

/-- A distinct page that a lauter command reads: the ladder step being tried, 9 when step 8 has failed, whether its stripe rebuild runs
or has failed, and where the page came from once it did. -/
structure PageRead where
  key : Nat
  step : Nat := 1
  rebuilding : Bool := false
  rebuildFailed : Bool := false
  got : Option ReadFrom := none
  deriving DecidableEq, Repr

/-- A lauter command taken and not complete (R406, R409). -/
structure LauterCmd where
  id : Nat
  carrier : Nat
  part : Nat
  queue : Nat
  desc : List (BitVec 8)
  tag : BitVec 9
  /-- the rescore of a standard search (R162), where a standard program posted it -/
  std : Option StdWork := none
  /-- status to report without doing anything (R413) -/
  refuse : Option Nat := none
  reads : List PageRead := []
  /-- write and deallocate entries applied so far -/
  applied : Nat := 0
  /-- a standard rescore that is complete: passing entries as (key, id), filtered and unread -/
  finished : Option (List (Nat × Nat) × Nat × Nat) := none
  deriving DecidableEq, Repr

/-- The FLASH block, the translation layer and the lauter engines (R381–R437). -/
structure Fls where
  state : FlsState := .down
  reason : BitVec 4 := 0
  /-- the set has been decided since the module started (R387) -/
  decided : Bool := false
  adoptSlot : BitVec 3 := 0
  adopt : Bool := false
  adoptAt : Nat := 0
  cmdCarrier : BitVec 3 := 0
  kilnStart : BitVec 8 := 0x32
  kilnHigh : BitVec 8 := 0x5A
  gcStart : BitVec 8 := 0x06
  gcUrgent : BitVec 8 := 0x02
  closeUs : BitVec 16 := 0x07D0
  spread : BitVec 16 := 0x0320
  fastSteps : BitVec 4 := 0x2
  weakStep : BitVec 4 := 0x5
  patrolDays : BitVec 8 := 0x07
  mbps : BitVec 16 := 0x07D0
  err : BitVec 9 := 0
  chSel : BitVec 5 := 0
  readCnt : BitVec 32 := 0
  retryCnt : BitVec 32 := 0
  rebuiltCnt : BitVec 32 := 0
  unrecCnt : BitVec 32 := 0
  progCnt : BitVec 32 := 0
  eraseCnt : BitVec 32 := 0
  ltrCnt : BitVec 32 := 0
  ltrBad : BitVec 32 := 0
  chans : SMap FlashCh := []
  cmds : List LauterCmd := []
  deriving DecidableEq, Repr

/-- What the media themselves hold: kept through every reset (R559). -/
structure Media where
  setId : BitVec 64 := 0
  ordering : List (BitVec 8) := []
  /-- programmed bytes by byte key, page key × 16,384 + byte -/
  data : List (Nat × BitVec 8) := []
  /-- stripe that holds each page's current copy -/
  map : SMap Nat := []
  stripes : List (Nat × Stripe) := []
  nextStripe : Nat := 1
  blocks : List (Nat × SBlock) := []
  nextOrder : Nat := 0
  /-- wear units per stripe block × 8 + position, retired or bad member blocks, weak reads per member block -/
  wear : SMap Nat := []
  badBlocks : List Nat := []
  weak : SMap Nat := []
  failedDies : List Nat := []
  timeouts : SMap Nat := []
  /-- write hint of each page's current copy (R395, R407) -/
  hints : SMap Nat := []
  /-- times each page was staged since it was last kilned -/
  heat : SMap Nat := []
  errCounts : SMap Nat := []
  bytesStaged : Nat := 0
  bytesProg : Nat := 0
  /-- spare member blocks used -/
  spareUsed : Nat := 0
  unsafeShutdowns : Nat := 0
  readOnly : Bool := false
  /-- the reserve-loss mark (R378) -/
  reserveLost : Bool := false
  /-- the other histories, as the system area holds them (R423) -/
  hist : SMap Nat := []
  /-- namespace reads and writes counted for the health log -/
  hostReads : Nat := 0
  hostWrites : Nat := 0
  readUnits : Nat := 0
  writeUnits : Nat := 0
  deriving DecidableEq, Repr

end Sys2Proof.Machine
end

