-- ==== Sys2Proof/Machine/Types/HostPort.lean ====
section
/-! DEFINITION. Sys2Proof/Machine/Types/HostPort.lean: the state of the host port and its NVMe controller (14_host_port), with reset
values. -/
namespace Sys2Proof.Machine

/-- A submission queue (R522–R524): its completion queue, size in entries, host tail and fetched head. -/
structure NvSq where
  id : Nat
  cq : Nat
  size : Nat
  base : Nat
  tail : Nat := 0
  head : Nat := 0
  deriving DecidableEq, Repr

/-- A completion queue: its vector, whether interrupts are enabled, the node's tail, the host's head and the phase tag. -/
structure NvCq where
  id : Nat
  size : Nat
  base : Nat
  ien : Bool
  vector : Nat
  tail : Nat := 0
  head : Nat := 0
  phase : Bool := true
  /-- entries whose interrupt coalescing holds back (R537) -/
  coalesced : Nat := 0
  deriving DecidableEq, Repr

/-- A command fetched and not completed (R524). -/
structure NvCmd where
  sq : Nat
  cid : BitVec 16
  /-- an Execute Program's answer region in the memory namespace, with its capacity -/
  answerAt : Nat := 0
  capacity : Nat := 0
  deriving DecidableEq, Repr

/-- The controller's features (R523). -/
structure NvFeatures where
  queues : BitVec 32 := 0x007F007F
  coalesce : BitVec 32 := 0
  vectorCfg : SMap (BitVec 32) := []
  asyncCfg : BitVec 32 := 0
  tempThr : BitVec 32 := 0
  deriving DecidableEq, Repr

/-- The NVMe controller: cleared as R517 and R524 say. -/
structure Nvme where
  cc : BitVec 32 := 0
  rdy : Bool := false
  cfs : Bool := false
  shst : BitVec 2 := 0
  shutAt : Nat := 0
  aqa : BitVec 32 := 0
  asq : BitVec 64 := 0
  acq : BitVec 64 := 0
  intms : BitVec 32 := 0
  sqs : List NvSq := []
  cqs : List NvCq := []
  cmds : List NvCmd := []
  lastSq : Nat := 0
  feats : NvFeatures := {}
  /-- Asynchronous Event Requests outstanding (command identifiers), and events waiting for one -/
  aers : List (BitVec 16) := []
  events : List (BitVec 32) := []
  /-- critical warnings reported and still standing (R421, R523) -/
  warned : Nat := 0
  /-- the temperature threshold event has been reported and still stands -/
  hotSent : Bool := false
  changedNs : List Nat := []
  ranges : List (Nat × List (Nat × Nat)) := []
  deriving DecidableEq, Repr

/-- The HOST block and the link (R516–R539). -/
structure HostBlk where
  speed : BitVec 3 := 0
  width : BitVec 5 := 0
  flit : Bool := false
  d3 : Bool := false
  err : BitVec 5 := 0
  execCnt : BitVec 32 := 0
  linkDn : BitVec 32 := 0
  nvme : Nvme := {}
  msixEnabled : Bool := false
  msix : List (Nat × BitVec 8) := []
  pba : List Nat := []
  deriving DecidableEq, Repr

end Sys2Proof.Machine
end

