-- ==== Sys2Proof/Machine/Types/Hub.lean ====
section
/-! DEFINITION. Sys2Proof/Machine/Types/Hub.lean: the state of the hub blocks: clocks and resets (15), SYSTEM and DISPATCH (16),
FAULT and CASK (17), POWER (18), MODULE and the test access port (19), with their reset values. -/
namespace Sys2Proof.Machine

/-- Where the start sequence stands (R541, R542, R560, R66). -/
inductive StartPhase where
  /-- rails good, the internal sequencer still held in reset -/
  | held
  /-- OSC_EN high, the start delay runs -/
  | delay
  /-- the reference is being checked -/
  | checking
  /-- REF_OK, both PLLs lock, every domain but 164 on tap 0 -/
  | locking
  /-- default taps; stacks train, carriers are identified -/
  | training
  /-- the start is over -/
  | up
  /-- four failed attempts (R542) -/
  | failed
  /-- a module reset holds every domain in reset (R560) -/
  | resetHold
  deriving DecidableEq, Repr

/-- The tap selection of one clock domain (R552, R563). -/
structure DomClk where
  tap : BitVec 4
  cur : BitVec 4
  pend : Bool
  deriving DecidableEq, Repr

/-- The CLOCK block and the start sequencer (R541–R558, R563). -/
structure Clk where
  phase : StartPhase := .held
  attempts : Nat := 0
  oscEn : Bool := false
  refOk : Bool := false
  auxLock : Bool := false
  rootLock : Bool := false
  refLost : Bool := false
  auxUnlock : Bool := false
  mgmtOnAux : Bool := false
  oscw : BitVec 3 := 0
  gsrc : Bool := false
  domSel : BitVec 8 := 0
  /-- domains whose tap differs from the default of R547 -/
  doms : List (Nat × DomClk) := []
  swNoTap : Bool := false
  swTimeout : Bool := false
  swBusy : Bool := false
  swDom : BitVec 8 := 0
  gateSel : BitVec 11 := 0
  /-- tree nodes whose software gate is closed, rising -/
  gates : List Nat := []
  gateRefused : Bool := false
  gateNode : BitVec 11 := 0
  /-- both PLLs in holdover since the reference was lost (R544) -/
  holdover : Bool := false
  deriving DecidableEq, Repr

/-- The RESET block (R559–R564). -/
structure Rst where
  tile : BitVec 7 := 0
  core : BitVec 4 := 0
  part : BitVec 5 := 0
  /-- partitions whose reset runs -/
  partBusy : List Nat := []
  /-- cores whose reset waits for their test to end (R562) -/
  coreWait : List Nat := []
  refused : Bool := false
  cause : BitVec 4 := 0
  modCnt : BitVec 32 := 0
  /-- a module reset requested during flush mode waits for its end (R562), with its cause -/
  modPend : Option (BitVec 4) := none
  /-- the 1 ms hold of the running module reset is over and RESET_N still holds it (R560, R653) -/
  holdOver : Bool := false
  deriving DecidableEq, Repr

/-- The SYSTEM block (R580): only what changes. -/
structure Sys where
  partial_ : Bool := false
  unmapped : Bool := false
  mgmtFmt : Bool := false
  errAddr : BitVec 27 := 0
  errBar2 : Bool := false
  scratch : BitVec 32 := 0
  deriving DecidableEq, Repr

/-- One error record (R587); `at_` is the model's uptime of its detection, for R589's 1 ms. -/
structure ErrRec where
  seq : BitVec 32
  cls : BitVec 8
  cause : BitVec 8
  action : BitVec 8
  part : BitVec 8
  stamp : Stamp
  kind : BitVec 8
  unit : BitVec 16
  loc : BitVec 64
  tag : BitVec 16
  count : BitVec 32
  detail : BitVec 64
  at_ : Nat
  deriving DecidableEq, Repr

/-- A self-test request (R596): kind and unit number. -/
structure TestReq where
  kind : BitVec 3
  unit : BitVec 10
  deriving DecidableEq, Repr

/-- The FAULT block: the error log (newest first, at most 65,536), class counters and self-tests (R587–R600, R614). -/
structure Flt where
  head : BitVec 32 := 0
  sel : BitVec 32 := 0
  ring : List ErrRec := []
  classSel : BitVec 8 := 0
  classCnt : SMap (BitVec 32) := []
  mask : BitVec 32 := 0x003FFFFE
  testKind : BitVec 3 := 0
  testUnit : BitVec 10 := 0
  queue : List TestReq := []
  /-- tests running (kinds 1 to 3), the drain before them included -/
  running : List TestReq := []
  lastKind : BitVec 3 := 0
  lastUnit : BitVec 10 := 0
  lastResult : BitVec 2 := 0
  refused : Bool := false
  period : BitVec 16 := 0
  rotPos : BitVec 11 := 0
  /-- the fence view the management controller holds (R595): fenced core numbers, then 10,000 + array, 20,000 + tile -/
  mgmtView : List Nat := []
  /-- sequence of the first record not yet saved to flash (R628) -/
  savedTo : BitVec 32 := 0
  deriving DecidableEq, Repr

/-- What a replayed context operation must return (R611): the record's type and body. -/
structure ReplayRec where
  typ : Nat
  part : Nat
  source : Nat
  rack : Nat
  body : List (BitVec 8)
  seg : Nat
  off : Nat
  deriving DecidableEq, Repr

/-- What the base of a capture still has to export (R605 steps 5 and 7): the rest of a partition's general memory, the rest of a scan extent of a
stack, and a flash page (extent and page) as it stood at the cut. -/
inductive CaskBase where
  | general (part off left : Nat)
  | scan (part stack off left : Nat)
  | flash (part ext page : Nat) (data : List (BitVec 8))
  deriving DecidableEq, Repr

/-- The CASK block: capture and replay (R605–R615). -/
structure Cask where
  mode : BitVec 2 := 0
  parts : BitVec 32 := 0
  collector : BitVec 16 := 0xFFFF
  state : BitVec 3 := 0
  err : BitVec 4 := 0
  bytes : BitVec 64 := 0
  hostAddr : BitVec 64 := 0
  hostLen : BitVec 32 := 0
  feedBusy : Bool := false
  divSeq : BitVec 32 := 0
  divOff : BitVec 16 := 0
  /-- partitions, collector and cut stamp sampled at START -/
  capParts : BitVec 32 := 0
  capCollector : BitVec 16 := 0xFFFF
  /-- the drain has ended and the cut stamp has been taken (R605 step 2) -/
  cut : Bool := false
  capId : Stamp := ⟨0, 0, 0⟩
  segSeq : BitVec 32 := 0
  /-- records of the segment being filled, oldest first -/
  cur : List (List (BitVec 8)) := []
  /-- bytes of whole segments waiting in the 8 GiB ring -/
  ring : List (List (BitVec 8)) := []
  /-- the base not yet exported -/
  base : List CaskBase := []
  /-- replay: the next segment sequence expected, whether BEGIN was seen, and records not yet consumed -/
  nextSeg : BitVec 32 := 0
  begun : Bool := false
  todo : List ReplayRec := []
  deriving DecidableEq, Repr

/-- The POWER block (R625–R637). `flashCopy` fields are the values kept in the system area. -/
structure Pwr where
  state : BitVec 3 := 0
  last : BitVec 3 := 0
  vin : BitVec 10 := 0
  errLow : Bool := false
  errIncomplete : Bool := false
  errTrail : Bool := false
  errJournal : Bool := false
  flushCnt : BitVec 32 := 0
  lastUs : BitVec 32 := 0
  lastMib : BitVec 16 := 0
  flushStamp : Stamp := ⟨0, 0, 0⟩
  horizon : BitVec 16 := 0x0258
  horizonUsed : BitVec 16 := 0x0258
  recPct : BitVec 8 := 0
  recPart : BitVec 5 := 0
  /-- uptime of the trigger of the flush that runs, and whether it is a drill, a trip, or has nothing to write -/
  trigAt : Nat := 0
  drill : Bool := false
  trip : Bool := false
  empty : Bool := false
  /-- bus recovered during the flush or in the flushed state (R630) -/
  returned : Bool := false
  /-- sensors that tripped and must cool first (R659) -/
  tripped : List Nat := []
  /-- the bus has collapsed: the module is off -/
  off : Bool := false
  deriving DecidableEq, Repr

/-- What the system area of flash keeps of the flushes (R636): copied back when storage forms. -/
structure PwrKept where
  cnt : BitVec 32 := 0
  last : BitVec 3 := 0
  us : BitVec 32 := 0
  mib : BitVec 16 := 0
  stamp : Stamp := ⟨0, 0, 0⟩
  deriving DecidableEq, Repr

/-- The MODULE block (R644, R657–R667). -/
structure Mod where
  therm : BitVec 2 := 0
  oeHot : Bool := false
  pin : BitVec 12 := 0
  locModule : Bool := false
  locCarrier : BitVec 8 := 0
  mbus : Bool := false
  maddr : BitVec 3 := 0
  tempSel : BitVec 6 := 0
  now : SMap (BitVec 8) := []
  maxT : SMap (BitVec 8) := []
  /-- temperature histories as counted, by sensor × 64 + bin (R423) -/
  hist : SMap Nat := []
  kOn : BitVec 8 := 0
  kTrip : BitVec 8 := 0
  /-- outputs kept off since an overcurrent, whatever the TRIP flag reads (R644) -/
  kOff : BitVec 8 := 0
  kEn : BitVec 8 := 0
  cpwr : BitVec 8 := 0
  pressed : BitVec 8 := 0
  event : BitVec 8 := 0
  err : BitVec 6 := 0
  /-- the lamp test and each carrier's refusal pattern last until these uptimes -/
  lampUntil : Nat := 0
  refuseUntil : SMap Nat := []
  /-- uptime at which each carrier's press began -/
  pressAt : SMap Nat := []
  /-- carriers showing blue after a forced removal, until their state changes -/
  forcedBlue : BitVec 8 := 0
  /-- attention lines low, by carrier -/
  alert : BitVec 8 := 0
  /-- sensors whose reading at or above the throttle level has been reported, and still stands (R658, R660) -/
  warm : List Nat := []
  /-- engines switched off for temperature (R660) -/
  oeOff : BitVec 8 := 0
  deriving DecidableEq, Repr

/-- The boundary-scan instruction in force (R652). -/
inductive JtagInstr where
  | extest | samplePreload | idcode | clamp | highz | bypass
  deriving DecidableEq, Repr

/-- The test access port (R652): the boundary register's 1,368 cells in one vector. -/
structure Jtag where
  instr : JtagInstr := .idcode
  boundary : BitVec 1368 := 0
  /-- the register that scans out, as its value: IDCODE, bypass or boundary -/
  scan : BitVec 1368 := 0x248165A7
  deriving DecidableEq, Repr

/-- Input pins and straps as the board drives them (R647, R650). -/
structure Pins where
  resetN : Bool := true
  perstN : Bool := true
  pwrFailN : Bool := true
  oscw : BitVec 3 := 0
  gsrc : Bool := false
  mbus : Bool := false
  maddr : BitVec 3 := 0
  deriving DecidableEq, Repr

/-- What leaves the node, in the order in which it leaves: the model's record of its outputs. -/
inductive Out where
  /-- a write into host memory through the host port -/
  | hostWrite (addr : Nat) (data : List (BitVec 8))
  /-- an MSI-X interrupt -/
  | irq (vector : Nat)
  /-- a frame on a fabric channel -/
  | frame (ch : Nat) (data : List (BitVec 8))
  /-- a management-path response body (R582) -/
  | mgmt (data : List (BitVec 8))
  /-- a PLDM event carrying an error record (R589) -/
  | pldm (data : List (BitVec 8))
  /-- a PTP message sent on a channel's port at one of the clock's intervals (R464): its kind -/
  | ptp (ch : Nat) (kind : Nat)
  deriving DecidableEq, Repr

/-- The DISPATCH block and its buffers (R147, R148, R581). -/
structure Disp where
  admitCnt : BitVec 32 := 0
  refuseCnt : BitVec 32 := 0
  dropCnt : BitVec 32 := 0
  fwdCnt : BitVec 32 := 0
  fill : BitVec 9 := 0
  max : BitVec 9 := 0
  lastStatus : BitVec 8 := 0
  lastTenant : BitVec 8 := 0
  lastService : BitVec 6 := 0
  deriving DecidableEq, Repr

end Sys2Proof.Machine
end

