-- ==== Sys2Proof/Machine/Types/Mem.lean ====
section
/-! DEFINITION. Sys2Proof/Machine/Types/Mem.lean: the state of the stack controllers and of the mash banks' command pages
(10_memory_and_mash_stacks), with reset values. -/
namespace Sys2Proof.Machine

/-- An ordinary access held for a busy bank (R362): its stack offset, the bytes it writes (none for a read, an AMO or a vector access,
which its context performs when it is served), the context and the uptime at which it entered the queue. -/
structure HeldAccess where
  off : Nat
  write : Option (List (BitVec 8))
  who : Option CtxRef
  since : Nat
  deriving DecidableEq, Repr

/-- A mash bank's command page (R357) with its hold queue and postponed refresh. Unset lookup-table and dead-map bytes read 0. -/
structure Bank where
  layout : BitVec 8 := 0
  c : BitVec 16 := 0
  start : BitVec 32 := 0
  count : BitVec 16 := 0
  first : BitVec 16 := 0
  state : BitVec 8 := 0
  chunk : BitVec 8 := 0
  dead : BitVec 16 := 0
  errors : BitVec 16 := 0
  /-- slots counted in `errors`, in the order in which they were met -/
  errSlots : List Nat := []
  dcount : BitVec 32 := 0
  dsum : BitVec 32 := 0
  lut : List (BitVec 8) := []
  deadMap : List (BitVec 8) := []
  /-- candidates held: slot number and scan sum, in scan order -/
  cands : List (Nat × Nat) := []
  /-- an ABORT waits for the end of the running chunk -/
  aborting : Bool := false
  held : List HeldAccess := []
  refresh : Bool := false
  /-- scan command that the sequence serves -/
  cmd : Option Nat := none
  deriving DecidableEq, Repr

def Bank.reset : Bank := {}

/-- One range of a scan command (R364). -/
structure ScanRange where
  stack : Nat
  off : Nat
  count : Nat
  first : Nat
  /-- list and counts once its bank is done -/
  result : Option (List (Nat × Nat) × Nat × Nat × Nat × Nat) := none
  started : Bool := false
  errSlots : List Nat := []
  deriving DecidableEq, Repr

/-- A scan command taken by a controller (R364, R365). -/
structure ScanCmd where
  id : Nat
  part : Nat
  queue : Nat
  desc : List (BitVec 8)
  tag : BitVec 9
  layout : Nat
  c : Nat
  ranges : List ScanRange
  /-- a standard walk's scan, with its dead slots -/
  std : Option StdWork := none
  lut : List (BitVec 8) := []
  dead : List Nat := []
  /-- status once complete; a standard walk's command waits for its result's return -/
  finished : Option Nat := none
  deriving DecidableEq, Repr

/-- A stack controller: MEM0–MEM15 (R379). -/
structure MemCtl where
  state : BitVec 2 := 0
  hot : Bool := false
  temp : BitVec 8 := 0
  trainPend : BitVec 32 := 0
  ce : BitVec 32 := 0
  ue : BitVec 32 := 0
  err : BitVec 4 := 0
  ueAddr : BitVec 37 := 0
  ppmax : BitVec 4 := 0
  /-- a command was reissued after a parity error (R345) -/
  reissued : Bool := false
  /-- temperature at which the channels were last trained (R355), and per-bank refreshes outstanding by pseudo-channel -/
  trainTemp : SMap (BitVec 8) := []
  outstanding : SMap Nat := []
  pause : Bool := false
  bankSel : BitVec 10 := 0
  holdMax : BitVec 16 := 0
  holdCnt : BitVec 32 := 0
  scanCnt : BitVec 32 := 0
  badCnt : BitVec 32 := 0
  banks : SMap Bank := []
  cmds : List ScanCmd := []
  /-- 64-byte units that read as uncorrectable -/
  bad : List Nat := []
  deriving DecidableEq, Repr

def MemCtl.reset : MemCtl := {}

end Sys2Proof.Machine
end

