-- ==== Sys2Proof/Machine/Types/Search.lean ====
section
/-! DEFINITION. Sys2Proof/Machine/Types/Search.lean: requests in the dispatcher, queries and updates in progress, the journal and the
images it names (03_vector_index, 04_search_pipeline, 05_selection_and_merge, 18_power_loss_and_recovery). -/
namespace Sys2Proof.Machine

/-- Where an admitted request stands. -/
inductive ReqAt where
  /-- a query held for a stamp ahead of rack time (R150) -/
  | hold
  | queued
  /-- its owner context has it (R156) -/
  | owned
  /-- its answer is formed and not yet sent (R168) -/
  | answered (answer : List (BitVec 8))
  deriving DecidableEq, Repr

/-- A request that was admitted and not yet answered (R146, R147, R170). Times are rack times in ns. -/
structure Req where
  id : Nat
  src : Source
  data : List (BitVec 8)
  part : Nat
  svc : Nat
  tenant : Nat
  queue : Nat
  ansQ : Nat
  ta : Nat
  td : Nat
  place : ReqAt
  owner : Option CtxRef := none
  /-- it was placed at the head of its queue again once (R169) -/
  rerun : Bool := false
  /-- its answer is discarded: the controller that submitted it was cleared (R524) -/
  discard : Bool := false
  /-- its answer queue entry's storage slot -/
  ansSlot : Nat := 0
  deriving DecidableEq, Repr

/-- A refusal in the refusal buffer (R148). -/
structure RefusalEntry where
  src : Source
  data : List (BitVec 8)
  deriving DecidableEq, Repr

/-- A request held outside the queues: for a newer map epoch (R492) or for a claimed shard (R500). -/
structure HeldReq where
  claim : Bool
  src : Source
  data : List (BitVec 8)
  /-- rack time and uptime of step 2 -/
  rack : Nat
  since : Nat
  discard : Bool := false
  deriving DecidableEq, Repr

/-- A forwarded request whose answer this node relays (R493). -/
structure Relay where
  tag : BitVec 64
  stamp : Stamp
  src : Source
  deriving DecidableEq, Repr

/-- A request whose refusal finds the refusal buffer full, on a path that stops its sender (R148): its credit units stay held. -/
structure Stalled where
  src : Source
  data : List (BitVec 8)
  units : Nat
  colour : Nat
  acct : Nat
  deriving DecidableEq, Repr

/-- The dispatcher's lists. -/
structure ReqBlk where
  next : Nat := 0
  reqs : List Req := []
  refusals : List RefusalEntry := []
  held : List HeldReq := []
  relays : List Relay := []
  stalled : List Stalled := []
  deriving DecidableEq, Repr

/-- What a mash bank's scan of one leaf returned (R161): candidates as slot and scan sum, dead slots skipped, and the count and sum of
the slots scored and not returned. -/
structure LeafResult where
  cands : List (Nat × Nat)
  dead : Nat
  discarded : Nat
  discardSum : Nat
  deriving DecidableEq, Repr

/-- One leaf of a round (R160–R162): the version's header, and the walk's values for it. -/
structure LeafScan where
  leaf : Nat
  header : Nat
  /-- bias and Δ of R108, FP32 -/
  bias : Nat
  delta : Nat
  lut : List (BitVec 8)
  visible : Nat
  deadSlots : List Nat
  /-- its scan command waits for room in the mash command queue -/
  posted : Bool := false
  result : Option LeafResult := none
  deriving DecidableEq, Repr

/-- A survivor (R162): leaf, slot, and its record's page and index. -/
structure Survivor where
  leaf : Nat
  slot : Nat
  page : Nat
  index : Nat
  deriving DecidableEq, Repr

/-- A partial list (R187). Entries are (key, payload), sums FP64. -/
structure PartialList where
  entries : List (Nat × Nat) := []
  exhausted : Bool := false
  degraded : Bool := false
  k : Nat := 0
  ties : Nat := 0
  dups : Nat := 0
  leaves : Nat := 0
  skipped : Nat := 0
  filtered : Nat := 0
  unread : Nat := 0
  leftOut : Nat := 0
  cutKey : Nat := 0
  deriving DecidableEq, Repr

/-- One round of a query (R164). -/
structure Round where
  leaves : List LeafScan
  /-- absent children and dropped links met for this round -/
  skipped : Nat := 0
  selected : Bool := false
  /-- survivors by carrier whose lauter command has not been posted, or has been posted and not returned -/
  toPost : List (Nat × List Survivor) := []
  waiting : List Nat := []
  leftOut : Nat := 0
  passing : List (Nat × Nat) := []
  filtered : Nat := 0
  unread : Nat := 0
  done : Bool := false
  deriving DecidableEq, Repr

/-- A peer of a coordinator (R166, R494). -/
structure PeerState where
  node : Nat
  /-- 0 waiting, 1 answered in time, 2 not sent for want of budget, 3 not sent for want of a channel, 4 answered with a failure -/
  st : Nat := 0
  list : PartialList := {}
  status : Nat := 0
  deriving DecidableEq, Repr

/-- The stage a query is in (R171). -/
inductive QStage where
  | embed | walk | scan | rescore | merge | rank
  deriving DecidableEq, Repr

/-- A query that its owner has taken (R157–R167). -/
structure Query where
  req : Nat
  part : Nat
  svc : Nat
  stamp : Stamp
  index : Nat
  dist : Nat
  k : Nat
  beam : Nat
  widen : Nat
  cands : Nat
  rescore : Nat
  level : Nat
  ranking : Bool
  /-- the query vector as the index's elements, raw, and q′ as FP32 -/
  raw : List Nat
  q : List Nat
  pred : List (BitVec 8)
  ctx : List (BitVec 8)
  stage : QStage
  frontier : List Nat := []
  taken : Nat := 0
  rounds : List Round := []
  peers : List PeerState := []
  coordinator : Bool := false
  /-- the merged list while the ranking stage runs -/
  merged : Option PartialList := none
  deriving DecidableEq, Repr

/-- What an update waits for (R115, R110, R114, R126, R495). -/
inductive UpdWait where
  | nothing
  /-- an earlier update of the same id -/
  | order
  /-- a leaf under publication met in the lookup -/
  | lookup (leaf : Nat)
  /-- a delta slot in a leaf -/
  | delta (leaf : Nat)
  /-- a merge that the leaf is part of -/
  | merging (leaf : Nat)
  /-- room in a leaf's recent-delete list -/
  | recent (leaf : Nat)
  /-- the mirror's acknowledgement of stamp A -/
  | mirror (ack : Stamp)
  /-- room in the staging buffer -/
  | staging
  /-- room to append to a leaf under racking -/
  | append (leaf : Nat)
  /-- an earlier update of the same id -/
  | lock
  /-- room in the journal tail -/
  | trail
  /-- the embed stage of an upsert of a passage -/
  | embed
  deriving DecidableEq, Repr

/-- An update in progress (R112). -/
structure Update where
  req : Nat
  part : Nat
  index : Nat
  adds : Bool
  upsert : Bool
  vid : Nat
  elems : List (BitVec 8)
  attrs : List (BitVec 8)
  wait : UpdWait
  /-- once applied: new leaf and slot, old leaf and slot, record place, journal sequence, and A -/
  newAt : Option (Nat × Nat) := none
  oldAt : Option (Nat × Nat) := none
  rec_ : Option (Nat × Nat) := none
  code : Nat := 0
  seq : Option Nat := none
  ack : Option Stamp := none
  status : Nat := 0
  /-- uptime at which its MIRROR_UPDATE was sent -/
  sentAt : Nat := 0
  deriving DecidableEq, Repr

/-- The delta stream of an index (R112, R669): its pages, the next record index of the last one. -/
structure DeltaStream where
  pages : List Nat := []
  next : Nat := 0
  deriving DecidableEq, Repr

def DeltaStream.reset : DeltaStream := {}

/-- A version that was superseded and waits for the read floor (R118). -/
structure OldVersion where
  part : Nat
  index : Nat
  /-- 0 leaf version, 1 interior version, 2 retired leaf with its forwarding record -/
  kind : Nat
  id : Nat
  header : Nat
  until_ : Stamp
  /-- flash pages to free with it -/
  pages : List Nat
  deriving DecidableEq, Repr

/-- A journal record (R621). -/
structure JRec where
  typ : Nat
  part : Nat
  objKind : Nat
  flags : Nat
  obj : Nat
  seq : Nat
  stamp : Stamp
  sealed : Option Stamp := none
  voided : Bool := false
  body : List (BitVec 8)
  /-- uptime at which it was written -/
  at_ : Nat
  inTrail : Bool := false
  /-- its seal has reached the trail -/
  sealTrail : Bool := false
  deriving DecidableEq, Repr

/-- An image on flash (R617, R619): what it restores, as pieces at partition memory offsets (scan false) or scan addresses. -/
structure Img where
  part : Nat
  objKind : Nat
  obj : Nat
  /-- 1 leaf version, 2 interior node, 3 forwarding record, 4 table, 5 leaf sweep, 6 index sweep, 7 codebook -/
  kind : Nat
  id : Nat
  cover : Stamp
  /-- sequence of the record that names it -/
  seq : Nat
  pages : List Nat
  pieces : List (Bool × Nat × List (BitVec 8))
  deriving DecidableEq, Repr

/-- The running side of the indexes of all partitions: queries, updates and what the programs hold. -/
structure SearchBlk where
  queries : List Query := []
  updates : List Update := []
  /-- delta streams by partition × 16 + index -/
  streams : SMap DeltaStream := []
  /-- entries in use of the directory logs by partition × 16 + index -/
  dirFill : SMap Nat := []
  /-- flash pages in use, as page keys, rising; and the page taken last in each extent, plus 1 -/
  used : List Nat := []
  lastPage : SMap Nat := []
  old : List OldVersion := []
  /-- leaves with a publication or a merge in progress: (partition, index, leaf) -/
  publishing : List (Nat × Nat × Nat) := []
  /-- objects changed since their newest image's cover stamp: (partition, index, leaf or 0xFFFFFFFF) -/
  changed : List (Nat × Nat × Nat) := []
  deriving DecidableEq, Repr

/-- What the node reserve and the system area hold of the durable state (R617–R624). -/
structure Durable where
  nextSeq : Nat := 0
  journal : List JRec := []
  images : List Img := []
  /-- flush area: flush stamp, and whether the end record is there -/
  flushed : Option (Stamp × Bool) := none
  /-- staged pages and journal tail that the flush wrote -/
  flushStaged : List Nat := []
  mapDirty : SMap Nat := []
  /-- a sealed record was lost in an incomplete flush (R633) -/
  tailLost : Bool := false
  deriving DecidableEq, Repr

end Sys2Proof.Machine
end

