-- ==== Sys2Proof/Machine/State.lean ====
section
/-! DEFINITION. Sys2Proof/Machine/State.lean: the state of the node, its faults and refusals, and the state after reset. -/
namespace Sys2Proof.Machine

/-- What stops the model. -/
inductive Fault where
  /-- Raised by `exec` (through `presented`) for a command whose operands no hardware could present, exactly where Instr.wf is false (assumption 8).
  Safe: no run of the hardware holds such a command. -/
  | illFormed
  deriving DecidableEq, Repr

/-- Why a command is turned away without a meaning. -/
inductive Refusal where
  /-- Raised by `exec` for a command that the model does not give a meaning yet, by its mnemonic. Safe. -/
  | notModelled (mnemonic : String)
  deriving DecidableEq, Repr

/-- The whole node. -/
structure State where
  clk : Clk := {}
  rst : Rst := {}
  sys : Sys := {}
  flt : Flt := {}
  cask : Cask := {}
  pwr : Pwr := {}
  pwrKept : PwrKept := {}
  mod : Mod := {}
  jtag : Jtag := {}
  pins : Pins := {}
  time : TimeBase := {}
  fab : Fab := {}
  disp : Disp := {}
  grist : Grist := {}
  cap : CapState := {}
  comp : Comp := {}
  meter : Meter := {}
  host : HostBlk := {}
  fls : Fls := {}
  media : Media := {}
  carriers : SMap Carrier := []
  staged : SMap Staged := []
  mem : SMap MemCtl := []
  dram : Memory := []
  tiles : SMap TileRegs := []
  tileSram : Memory := []
  coreSram : Memory := []
  cores : SMap Core := []
  gather : SMap Gth := []
  matrix : SMap Mtx := []
  refn : Refn := {}
  queues : SMap QState := []
  req : ReqBlk := {}
  srch : SearchBlk := {}
  dur : Durable := {}
  nvmMem : Memory := []
  freeCtr : Nat := 0
  out : List Out := []
  pending : List Instr := []
  deriving DecidableEq, Repr

/-- The node right after power-on reset, the internal sequencer still held (R541, R559). -/
def State.reset : State := {}

end Sys2Proof.Machine
end

