-- ==== Sys2Proof/Machine/Ops.lean ====
section
/-! DEFINITION. Sys2Proof/Machine/Ops.lean: the operations every chapter shares: the clock, the stamp unit, error records, the cask
log's records, free values and meters (R20, R21, R467, R587–R589, R606–R608, R510–R512). -/
namespace Sys2Proof.Machine

/-- The outcome of a command. -/
abbrev Res := Host.Outcome State Fault Refusal

/-- A bit vector with bit `i` set to `b`. -/
def bput {n : Nat} (v : BitVec n) (i : Nat) (b : Bool) : BitVec n :=
  if b then v ||| BitVec.ofNat n (2 ^ i) else v &&& ~~~ BitVec.ofNat n (2 ^ i)

/-- Element `i` of a list, with a default. -/
def nth {α : Type} (l : List α) (i : Nat) (d : α) : α := (l[i]?).getD d

/-- Replace element `i` of a list. -/
def setNth {α : Type} (l : List α) (i : Nat) (v : α) : List α := l.set i v

/-! ### Free values -/

/-- Take the next free value (assumption 2). -/
def State.takeFree (s : State) : BitVec 64 × State := (Config.freeValue s.freeCtr, { s with freeCtr := s.freeCtr + 1 })

/-! ### Outputs -/

/-- Something leaves the node. -/
def State.emit (s : State) (o : Out) : State := { s with out := s.out ++ [o] }

/-! ### Time -/

/-- The time base domain runs (R541, R547, R560). -/
def State.timeRuns (s : State) : Bool :=
  match s.clk.phase with
  | .training | .up => !s.pwr.off
  | _ => false

/-- Let `dt` nanoseconds pass (R467, R548): rack time gains the slew and the frequency correction, fractions kept. -/
def TimeBase.advance (t : TimeBase) (runs : Bool) (dt : Nat) : TimeBase :=
  if runs then
    let rate : Int := 1000000 + t.slew + t.freq
    let total : Nat := t.frac + dt * rate.toNat
    { t with up := t.up + dt, rack := t.rack + BitVec.ofNat 64 (total / 1000000), frac := total % 1000000 }
  else { t with up := t.up + dt }

/-- Let time pass. -/
def State.advance (s : State) (dt : Nat) : State := { s with time := s.time.advance s.timeRuns dt }

/-- An event that falls due at an uptime happens at that uptime: the clock moves up to it, never back (assumption 5). -/
def State.advanceTo (s : State) (t : Nat) : State := s.advance (t - s.time.up)

/-- The clock moves up to a rack time (assumption 5). -/
def State.advanceToRack (s : State) (t : Nat) : State :=
  if s.time.rack.toNat < t then
    { s with time := { s.time with up := s.time.up + (t - s.time.rack.toNat), rack := BitVec.ofNat 64 t, frac := 0 } }
  else s

/-- Rack time as a number. -/
def State.rack (s : State) : Nat := s.time.rack.toNat

/-! ### Stamps -/

/-- A stamp other than a zero stamp can be issued (R21, R468, R668). -/
def State.canStamp (s : State) : Bool := s.time.lockedOnce && s.time.floor.isSome

/-- Take one stamp from the stamp unit (R20). Called only where `canStamp` holds; it waits for the next nanosecond where it must. -/
def State.takeStamp (s : State) : Stamp × State :=
  let t := s.time
  let rk := t.rack.toNat
  let last := t.lastTime.toNat
  let fresh := !t.issued || rk > last
  let wait := t.issued && (rk < last || (rk == last && t.nextSeq > 65535)) || rk < t.notBefore
  if wait then
    let n := max (last + 1) t.notBefore
    let t' := { t with rack := BitVec.ofNat 64 n, up := t.up + (n - rk), frac := 0, lastTime := BitVec.ofNat 64 n, nextSeq := 1, issued := true }
    (⟨BitVec.ofNat 64 n, t.node, 0⟩, { s with time := t' })
  else
    let q := if fresh then 0 else t.nextSeq
    (⟨t.rack, t.node, BitVec.ofNat 16 q⟩, { s with time := { t with lastTime := t.rack, nextSeq := q + 1, issued := true } })

/-- A zero stamp (R21). -/
def State.zeroStamp (s : State) : Stamp × State :=
  (⟨0, s.time.node, s.time.zeroSeq⟩, { s with time := { s.time with zeroSeq := s.time.zeroSeq + 1 } })

/-- A stamp, or a zero stamp before the first lock: for the four stamps of R21 that cannot wait. -/
def State.stampOrZero (s : State) : Stamp × State := if s.canStamp then s.takeStamp else s.zeroStamp

/-! ### Error records -/

/-- The 64 bytes of an error record (R587). -/
def ErrRec.bytes (r : ErrRec) : Bytes :=
  toLE 4 r.seq.toNat ++ [r.cls, r.cause, r.action, r.part] ++ r.stamp.bytes ++ [r.kind, 0] ++ toLE 2 r.unit.toNat ++
    toLE 8 r.loc.toNat ++ toLE 2 r.tag.toNat ++ toLE 2 0 ++ toLE 4 r.count.toNat ++ toLE 8 r.detail.toNat ++ zeros 16

/-- What a reporter says of a fault; the fields it leaves out take the values R587 gives for none. -/
structure Report where
  cls : Nat
  cause : Nat := 0
  action : Nat := 0
  part : Nat := 0xFF
  kind : Nat := 0
  unit : Nat := 0
  loc : Nat := 0
  tag : Nat := 0x100
  detail : Nat := 0
  deriving DecidableEq, Repr

/-- The newest record of a class. -/
def Flt.newest (f : Flt) (cls : Nat) : Option ErrRec := f.ring.find? (fun r => r.cls.toNat == cls)

/-- Records that the log's ring keeps (R587). -/
def logRingMax : Nat := 65536

/-- Write an error record, or merge it into the newest of its class (R587, R589); the new record, when one was written. -/
def State.logRecord (s : State) (r : Report) : Option ErrRec × State :=
  let cls := r.cls
  let cnt := s.flt.classCnt.modify 0 cls (· + 1)
  let merges := match s.flt.newest cls with
    | some o => o.kind.toNat == r.kind && o.unit.toNat == r.unit && o.loc == BitVec.ofNat 64 r.loc && s.time.up - o.at_ ≤ 1000000
    | none => false
  if merges then
    let rec bump : List ErrRec → List ErrRec
      | [] => []
      | x :: xs => if x.cls.toNat == cls then { x with count := x.count + 1 } :: xs else x :: bump xs
    (none, { s with flt := { s.flt with ring := bump s.flt.ring, classCnt := cnt } })
  else
    let (st, s) := s.stampOrZero
    let e : ErrRec :=
      { seq := s.flt.head, cls := BitVec.ofNat 8 cls, cause := BitVec.ofNat 8 r.cause, action := BitVec.ofNat 8 r.action,
        part := BitVec.ofNat 8 r.part, stamp := st, kind := BitVec.ofNat 8 r.kind, unit := BitVec.ofNat 16 r.unit,
        loc := BitVec.ofNat 64 r.loc, tag := BitVec.ofNat 16 r.tag, count := 1, detail := BitVec.ofNat 64 r.detail, at_ := s.time.up }
    let s := { s with flt := { s.flt with head := s.flt.head + 1, ring := (e :: s.flt.ring).take logRingMax, classCnt := cnt } }
    (some e, if s.flt.mask.toNat.testBit cls then s.emit (.pldm e.bytes) else s)

/-! ### The cask log -/

/-- Capture is on for a partition, or for some partition when `p` is 0xFF (R605, R608): from the BEGIN record on. -/
def State.capturing (s : State) (p : Nat) : Bool :=
  ((s.cask.state == 1 && s.cask.cut) || s.cask.state == 2) && (p == 0xFF || s.cask.capParts.toNat.testBit p)

/-- A replay runs for a partition (R610). -/
def State.replaying (s : State) (p : Nat) : Bool := s.cask.state == 4 && s.cask.capParts.toNat.testBit p

/-- Zeros that bring a length to a multiple of 8. -/
def pad8 (b : Bytes) : Bytes := b ++ zeros ((8 - b.length % 8) % 8)

/-- One log record (R606): header and body, its length a multiple of 8. -/
def caskBytes (typ part source : Nat) (rack : Nat) (body : Bytes) : Bytes :=
  let b := pad8 body
  toLE 1 typ ++ [0] ++ toLE 2 (16 + b.length) ++ toLE 1 part ++ [0] ++ toLE 2 source ++ toLE 8 rack ++ b

/-- A finished segment (R606). -/
def caskSegment (s : State) : Bytes :=
  let recs := s.cask.cur.flatten
  let hd := toLE 4 0x4B534143 ++ toLE 2 1 ++ toLE 2 s.time.node.toNat ++ toLE 4 s.cask.segSeq.toNat ++ toLE 4 recs.length ++
    s.cask.capId.bytes ++ zeros 36
  hd ++ recs ++ zeros (65472 - recs.length)

/-- Segments that the 8 GiB ring holds (R609). -/
def caskRingMax : Nat := 131072

/-- Move the open segment into the ring; when the ring is full, capture breaks with a GAP record (R609). -/
def State.caskClose (s : State) : State :=
  if s.cask.cur.isEmpty then s
  else { s with cask := { s.cask with ring := s.cask.ring ++ [caskSegment s], cur := [], segSeq := s.cask.segSeq + 1 } }

/-- Append a record to the log (R606–R609), opening a new segment where it does not fit; a full ring breaks the capture. The base itself waits
for room and never breaks it. -/
def State.caskPut (s : State) (typ part source : Nat) (body : Bytes) : State :=
  let r := caskBytes typ part source s.rack body
  let used := (s.cask.cur.map List.length).sum
  let s := if used + r.length > 65472 then s.caskClose else s
  if s.cask.ring.length ≥ caskRingMax && s.cask.state == 2 then
    let gap := caskBytes 0x0C 0xFF 0xFFFF s.rack (toLE 8 r.length)
    let s := { s with cask := { s.cask with state := 3, cur := s.cask.cur ++ [gap], base := [] } }.caskClose
    (s.logRecord { cls := 0x15, action := 16, kind := 10, loc := s.cask.segSeq.toNat, detail := s.cask.err.toNat }).2
  else { s with cask := { s.cask with cur := s.cask.cur ++ [r] } }

/-- Record an input or outcome of a captured partition; nothing while capture is off (R608). -/
def State.caskRec (s : State) (typ part source : Nat) (body : Bytes) : State :=
  if s.capturing part then s.caskPut typ part source body else s

/-- An EVENT record (R607, R608) by its event number. -/
def State.caskEvent (s : State) (part ev : Nat) (payload : Bytes) : State :=
  s.caskRec 0x07 part 0xFFFF (toLE 2 ev ++ zeros 6 ++ payload)

/-- Report an error: a record of the log, and an EVENT of the capture that holds its partition (R587, R589). -/
def State.report (s : State) (r : Report) : State :=
  match s.logRecord r with
  | (some e, s) => if r.part < 32 then s.caskEvent r.part 1 e.bytes else s
  | (none, s) => s

/-! ### Replay (R611–R613) -/

/-- Replay stops at a mismatch (R613), at the record that the operation or the answer did not match. -/
def State.diverge (s : State) (r : Option ReplayRec) : State :=
  let (sg, off) := match r.orElse fun _ => s.cask.todo.head? with | some r => (r.seg, r.off) | none => (s.cask.nextSeg.toNat, 0)
  let s := { s with cask := { s.cask with state := 6, err := 6, divSeq := BitVec.ofNat 32 sg, divOff := BitVec.ofNat 16 off, todo := [] } }
  s.report { cls := 0x15, cause := 6, kind := 10, loc := sg, detail := 6 }

/-- A recorded operation is done. -/
def State.consume (s : State) (r : ReplayRec) : State := { s with cask := { s.cask with todo := s.cask.todo.erase r } }

/-- A stamp that the hub takes for a partition: recorded while capture is on, and in a replay the recorded one (R607, R611). -/
def State.partStamp (s : State) (p : Nat) : Stamp × State :=
  let next := if s.replaying p then s.cask.todo.find? fun x => x.typ == 3 && x.part == p && x.source == 0xFFFF else none
  match next with
  | some r => (stampAt r.body 0, s.consume r)
  | none =>
    let (st, s) := s.stampOrZero
    (st, s.caskRec 0x03 p 0xFFFF (st.bytes ++ zeros 4))

/-- The entry numbers of a MEDIA record's body (R607): the zeros that pad it are none of them. -/
def mediaEntries (b : Bytes) : List Nat :=
  let l := (List.range ((b.length - 16) / 2)).map fun i => leNat ((b.drop (16 + 2 * i)).take 2)
  match l with
  | [] => []
  | x :: r => x :: r.filter (· != 0)

/-- The MEDIA record that a replay holds for a command, by unit kind and result address. -/
def State.mediaNext (s : State) (p kind addr : Nat) : Option ReplayRec :=
  if s.replaying p then
    s.cask.todo.find? fun x => x.typ == 6 && x.part == p && leNat (x.body.take 1) == kind && leNat ((x.body.drop 8).take 8) == addr
  else none

/-- The entries that a replayed command must report (R611); none where its own outcome stands. -/
def State.replayMedia (s : State) (p kind addr : Nat) : Option (List Nat) := (s.mediaNext p kind addr).map fun x => mediaEntries x.body

/-- A command has completed: its MEDIA record, where some of its entries failed (R607, R608), or in a replay the end of the recorded one. -/
def State.caskMedia (s : State) (part kind addr : Nat) (entries : List Nat) : State :=
  match s.mediaNext part kind addr with
  | some r => s.consume r
  | none =>
    if entries.isEmpty then s
    else s.caskRec 0x06 part 0xFFFF (toLE 1 kind ++ zeros 7 ++ toLE 8 addr ++ (entries.map (toLE 2)).flatten)

/-! ### Meters -/

/-- Add to counter `i` of a meter set, with its energy (R510–R512). -/
def MeterSet.add (coef : List (BitVec 32)) (m : MeterSet) (i n : Nat) : MeterSet :=
  let old := nth m.cnt i 0
  let m := { m with cnt := m.cnt.set i (old + BitVec.ofNat 64 n), wrap := bput m.wrap i (m.wrap.getLsbD i || old.toNat + n ≥ 2 ^ 64) }
  let pj := m.pj + n * (nth coef i 0).toNat
  let e := nth m.cnt 7 0
  let inc := pj / 10 ^ 9
  { m with cnt := m.cnt.set 7 (e + BitVec.ofNat 64 inc), pj := pj % 10 ^ 9, wrap := bput m.wrap 7 (m.wrap.getLsbD 7 || e.toNat + inc ≥ 2 ^ 64) }

/-- Charge counter `i` of a set by `n`. -/
def State.chargeSet (s : State) (set i n : Nat) : State :=
  { s with meter := { s.meter with sets := s.meter.sets.modify MeterSet.reset set (MeterSet.add s.meter.coef · i n) } }

/-- Charge a tenant tag, and with tag 0x100 the partition (R261, R510). -/
def State.charge (s : State) (tag : BitVec 9) (part i n : Nat) : State :=
  if n == 0 then s
  else if tag.toNat < 256 then s.chargeSet tag.toNat i n
  else if part < 32 then s.chargeSet (256 + part) i n
  else s.chargeSet 288 i n

/-- Charge MACs (R302): 65,536 make one, the remainder carried per set. -/
def State.chargeMacs (s : State) (tag : BitVec 9) (part n : Nat) : State :=
  let set := if tag.toNat < 256 then tag.toNat else if part < 32 then 256 + part else 288
  let m := s.meter.sets.get MeterSet.reset set
  let tot := m.macs + n
  let m := MeterSet.add s.meter.coef { m with macs := tot % 65536 } 0 (tot / 65536)
  { s with meter := { s.meter with sets := s.meter.sets.set MeterSet.reset set m } }

/-- The partition record of a running image. -/
def State.part? (s : State) (p : Nat) : Option Part := s.grist.parts.find? (·.num == p)

/-- A partition's state (GRIST_PSTATE). -/
def State.pstate (s : State) (p : Nat) : PState := s.grist.pstate.get .absent p

/-- Set a partition's state. -/
def State.setPstate (s : State) (p : Nat) (v : PState) : State :=
  { s with grist := { s.grist with pstate := s.grist.pstate.set .absent p v } }

/-- A partition does its work: it runs, or it drains before a partial re-grist, when work already admitted continues (R77). -/
def State.works (s : State) (p : Nat) : Bool :=
  s.pstate p == .running ||
    (s.grist.state == .draining && s.pstate p == .reloading && !s.rst.partBusy.contains p && s.grist.load.any fun l => l.image.target == p)

/-- The registers answer (R579): the management controller runs, and no module reset holds the domains. -/
def State.regsLive (s : State) : Bool :=
  match s.clk.phase with
  | .locking | .training | .up => !s.pwr.off
  | _ => false

/-- A register write by a path (R11, R608): discarded while the registers do not answer, recorded while capture is on, and performed. -/
def State.viaReg (s : State) (path : RegPath) (space : RegSpace) (off v : Nat) (f : State → State) : State :=
  if s.regsLive then
    let pc := match path with | .host => 1 | .mgmt => 2
    let sp := match space with | .bar0 => 0 | .bar2 => 1
    f (s.caskRec 0x08 0xFF 0xFFFF ([BitVec.ofNat 8 pc, BitVec.ofNat 8 sp, 0, 0] ++ toLE 4 off ++ toLE 4 v ++ zeros 4))
  else s

/-- The partition that owns a tile. -/
def State.ownerOf (s : State) (tile : Nat) : Option Part := s.grist.parts.find? (fun p => p.tiles.any (·.1 == tile))

/-- A partition owns a tile. -/
def Part.owns (p : Part) (tile : Nat) : Bool := p.tiles.any (·.1 == tile)

/-- The 14 enable bits of a tile, 0 when no partition owns it (R45). -/
def State.enables (s : State) (tile : Nat) : BitVec 14 :=
  match s.ownerOf tile with
  | some p => ((p.tiles.find? (·.1 == tile)).map (·.2)).getD 0
  | none => 0

/-- A list of numbers, rising, with one put in. -/
def insNat (l : List Nat) (n : Nat) : List Nat :=
  match l with
  | [] => [n]
  | x :: xs => if n < x then n :: x :: xs else if n = x then x :: xs else x :: insNat xs n

end Sys2Proof.Machine
end

