-- ==== Sys2Proof/Machine/Access.lean ====
section
/-! DEFINITION. Sys2Proof/Machine/Access.lean: addresses and ordinary accesses: stack offsets and their banks (R346, R347), partition
memory (R50), tile and core-local SRAM, the address form of work descriptors (R364) and the extents a partition holds (R48). -/
namespace Sys2Proof.Machine

/-- Bytes of a GiB. -/
def GiB : Nat := 1073741824

/-- Bytes of a stack (R344). -/
def stackBytes : Nat := 96 * GiB

/-- Stack bytes are keyed stack × 2³⁷ + offset. -/
def dramKey (stack off : Nat) : Nat := stack * 2 ^ 37 + off

/-- The bank of a stack offset on a plain stack (R346), numbered 16p + bank. -/
def plainBank (o : Nat) : Nat :=
  let u := o / 256
  16 * (u % 64) + (u / 64) % 16

/-- The bank of a stack offset on a mash stack (R347). -/
def mashBank (o : Nat) : Nat := o / 100663296

/-- The byte within the bank: plain (R346) and mash (R347). -/
def plainByte (o : Nat) : Nat := 256 * (o / 256 / 1024) + o % 256
def mashByte (o : Nat) : Nat := o % 100663296

/-- A stack is a mash stack. -/
def isMash (stack : Nat) : Bool := 8 ≤ stack && stack < 16

/-- The controller of a stack. -/
def State.memCtl (s : State) (k : Nat) : MemCtl := s.mem.get MemCtl.reset k

/-- Change the controller of a stack. -/
def State.modMem (s : State) (k : Nat) (f : MemCtl → MemCtl) : State :=
  { s with mem := s.mem.modify MemCtl.reset k f }

/-- Where a byte of an address space lies. -/
inductive Loc where
  | core (n off : Nat)
  | tile (t off : Nat)
  | dram (stack off : Nat)
  deriving DecidableEq, Repr

/-- The general extents of a partition, in order (R50). -/
def Part.general (p : Part) : List MemExt := p.mem.filter (!·.scan)

/-- The scan extents of a partition. -/
def Part.scans (p : Part) : List MemExt := p.mem.filter (·.scan)

/-- Bytes of partition memory (R50). -/
def Part.memBytes (p : Part) : Nat := ((p.general.map (·.len)).sum) * GiB

/-- The stack byte of offset `o` of a list of extents laid end to end (R50). -/
def extLoc : List MemExt → Nat → Option (Nat × Nat)
  | [], _ => none
  | e :: r, o => if o < e.len * GiB then some (e.stack, e.base * GiB + o) else extLoc r (o - e.len * GiB)

/-- Where partition memory offset `o` lies. -/
def Part.memLoc (p : Part) (o : Nat) : Option (Nat × Nat) := extLoc p.general o

/-- Does [off, off+n) of a stack lie within one scan extent of the partition (R348, R242). -/
def Part.inScan (p : Part) (stack off n : Nat) : Bool :=
  p.scans.any fun e => e.stack == stack && e.base * GiB ≤ off && off + n ≤ (e.base + e.len) * GiB

/-- Is the location's stack failed (R377). -/
def State.locFailed (s : State) : Loc → Bool
  | .dram k _ => (s.memCtl k).state == 2
  | _ => false

/-- One byte at a location; a failed stack's bytes read 0 here and are marked uncorrectable by `locBad`. -/
def State.locByte (s : State) : Loc → Byte
  | .core n o => s.coreSram.byte (n * 2 ^ 18 + o)
  | .tile t o => s.tileSram.byte (t * 2 ^ 22 + o)
  | .dram k o => s.dram.byte (dramKey k o)

/-- A run of bytes from a location on (within one place). -/
def State.locRead (s : State) (l : Loc) (n : Nat) : Bytes :=
  match l with
  | .core c o => s.coreSram.read (c * 2 ^ 18 + o) n
  | .tile t o => s.tileSram.read (t * 2 ^ 22 + o) n
  | .dram k o => s.dram.read (dramKey k o) n

/-- The 64-byte unit numbers of a stack that a run of bytes touches. -/
def unitsOf (off n : Nat) : List Nat := if n == 0 then [] else (List.range ((off + n - 1) / 64 - off / 64 + 1)).map (· + off / 64)

/-- A read of the run meets a unit marked uncorrectable, or a failed stack (R351, R377). -/
def State.locBad (s : State) (l : Loc) (n : Nat) : Bool :=
  match l with
  | .dram k o => (s.memCtl k).state == 2 || (unitsOf o n).any (fun u => (s.memCtl k).bad.contains u)
  | _ => false

/-- Record an uncorrectable unit met by a read (R351). -/
def State.reportUE (s : State) (k off : Nat) (part : Nat) : State :=
  let s := s.modMem k fun m => { m with ue := m.ue + 1, ueAddr := BitVec.ofNat 37 (off / 64 * 64), err := bput m.err 0 true }
  s.report { cls := 0x08, cause := 0, part := part, kind := 4, unit := k, loc := off / 64 * 64,
             detail := if isMash k then mashBank off else plainBank off }

/-- The number by which a reservation names an aligned 64-byte block of SRAM (R267): tile blocks first, core-local blocks above. -/
def Loc.resvKey : Loc → Option Nat
  | .tile t o => some ((t * 2 ^ 22 + o) / 64)
  | .core n o => some (2 ^ 40 + (n * 2 ^ 18 + o) / 64)
  | .dram _ _ => none

/-- Clear the reservations that other contexts hold on the blocks [lo, hi] (R267). -/
def State.clearResv (s : State) (lo hi : Nat) (by_ : Option CtxRef) : State :=
  let hit (c : Nat) (e : Nat × Ctx) : Bool :=
    match e.2.resv with
    | some r => lo ≤ r && r ≤ hi && by_ != some ⟨c, Fin.ofNat 16 e.1⟩
    | none => false
  let upd (c : Nat) (e : Nat × Ctx) : Nat × Ctx := if hit c e then (e.1, { e.2 with resv := none }) else e
  { s with cores := s.cores.map fun (c, k) => (c, { k with ctxs := k.ctxs.map (upd c) }) }

/-- Write a run of bytes at a location (within one place); writes to a failed stack are discarded (R377), a write over a unit marked
uncorrectable rewrites it (R351), and a store clears other agents' reservations (R267). -/
def State.locWrite (s : State) (l : Loc) (b : Bytes) (by_ : Option CtxRef := none) : State :=
  if b.isEmpty then s
  else match l with
  | .core n o =>
    { (s.clearResv (2 ^ 40 + (n * 2 ^ 18 + o) / 64) (2 ^ 40 + (n * 2 ^ 18 + o + b.length - 1) / 64) by_) with
      coreSram := s.coreSram.write (n * 2 ^ 18 + o) b }
  | .tile t o =>
    { (s.clearResv ((t * 2 ^ 22 + o) / 64) ((t * 2 ^ 22 + o + b.length - 1) / 64) by_) with
      tileSram := s.tileSram.write (t * 2 ^ 22 + o) b }
  | .dram k o =>
    if (s.memCtl k).state == 2 then s
    else
      let us := unitsOf o b.length
      let s := if (s.memCtl k).bad.any us.contains then s.modMem k fun m => { m with bad := m.bad.filter (!us.contains ·) } else s
      { s with dram := s.dram.write (dramKey k o) b }

/-- Where `n` bytes of partition memory at `o` lie, when they lie wholly in the partition's general extents: the pieces in order. -/
def pieces : List MemExt → Nat → Nat → List (Loc × Nat)
  | [], _, _ => []
  | e :: r, o, n =>
    let sz := e.len * GiB
    if o ≥ sz then pieces r (o - sz) n
    else
      let here := min n (sz - o)
      (.dram e.stack (e.base * GiB + o), here) :: (if n > here then pieces r 0 (n - here) else [])

/-- Read partition memory. -/
def State.pmRead (s : State) (p : Part) (o n : Nat) : Bytes :=
  ((pieces p.general o n).map fun (l, k) => s.locRead l k).flatten

/-- Write partition memory. -/
def State.pmWrite (s : State) (p : Part) (o : Nat) (b : Bytes) : State :=
  ((pieces p.general o b.length).foldl (fun (acc : State × Bytes) e => (acc.1.locWrite e.1 (acc.2.take e.2), acc.2.drop e.2)) (s, b)).1

/-- Is partition memory readable there without an uncorrectable unit. -/
def State.pmBad (s : State) (p : Part) (o n : Nat) : Bool := (pieces p.general o n).any fun (l, k) => s.locBad l k

/-- A little-endian number in partition memory. -/
def State.pmNum (s : State) (p : Part) (o n : Nat) : Nat := leNat (s.pmRead p o n)

/-- Write a number into partition memory, little-endian. -/
def State.pmSet (s : State) (p : Part) (o n v : Nat) : State := s.pmWrite p o (toLE n v)

/-! ### The address form of work descriptors (R364) -/

/-- A place that a descriptor address names: tile SRAM or partition memory of the issuing partition. -/
inductive DAddr where
  | tile (t off : Nat)
  | pm (off : Nat)
  deriving DecidableEq, Repr

/-- Read an address of the form of R364; none when a bit that must be 0 is set. -/
def dAddr (a : Nat) : Option DAddr :=
  if a.testBit 63 then
    let t := bitsOf a 30 24
    let o := bitsOf a 21 0
    if a == 2 ^ 63 + t * 2 ^ 24 + o && t < 96 then some (.tile t o) else none
  else if a < 2 ^ 48 then some (.pm a) else none

/-- Does the region [a, a+n) lie wholly within one allowed place of the partition (R366, R410): an owned tile's SRAM from 0x10_0000
on, or its partition memory. -/
def Part.regionOk (p : Part) (a n : Nat) : Bool :=
  match dAddr a with
  | some (.tile t o) => p.owns t && 0x100000 ≤ o && o + n ≤ 0x400000
  | some (.pm o) => o + n ≤ p.memBytes
  | none => false

/-- Read a region a descriptor names. -/
def State.dRead (s : State) (p : Part) (a n : Nat) : Bytes :=
  match dAddr a with
  | some (.tile t o) => s.locRead (.tile t o) n
  | some (.pm o) => s.pmRead p o n
  | none => zeros n

/-- Write a region a descriptor names. -/
def State.dWrite (s : State) (p : Part) (a : Nat) (b : Bytes) : State :=
  match dAddr a with
  | some (.tile t o) => s.locWrite (.tile t o) b
  | some (.pm o) => s.pmWrite p o b
  | none => s

/-- Does a read of the region meet an uncorrectable unit. -/
def State.dBad (s : State) (p : Part) (a n : Nat) : Bool :=
  match dAddr a with
  | some (.pm o) => s.pmBad p o n
  | _ => false

/-- Stack units a region costs the meters (R510): none for tile SRAM. -/
def dUnits (a n : Nat) : Nat :=
  match dAddr a with
  | some (.pm o) => (unitsOf o n).length
  | _ => 0

/-- Zero a memory extent (R69, R79). -/
def State.zeroExt (s : State) (e : MemExt) : State :=
  { s with dram := s.dram.clear (dramKey e.stack (e.base * GiB)) (e.len * GiB) }

/-- The mash stack number of a scan address (R96): bits [3:0]. -/
def scanAddrStack (a : Nat) : Nat := a % 16

/-- The byte offset of a scan address: bits [40:4]. -/
def scanAddrOff (a : Nat) : Nat := bitsOf a 40 4

/-- A scan address breaks no field rule of R96. -/
def scanAddrOk (a : Nat) : Bool := a < 2 ^ 41 && isMash (scanAddrStack a)

end Sys2Proof.Machine
end

