-- ==== Sys2Proof/Machine/Fabric.lean ====
section
/-! DEFINITION. Sys2Proof/Machine/Fabric.lean: the operations of the optical fabric: channels, Galmel and Ethernet frames, credits,
reassembly, the egress scheduler, the policers and the time base (R438–R481, R466–R468). -/
namespace Sys2Proof.Machine

/-- A channel. -/
def State.chan (s : State) (c : Nat) : Chan := s.fab.chans.get Chan.reset c

/-- FAB_CH_STATE.STATE codes (R480). -/
def ChState.code : ChState → Nat
  | .undefined => 0 | .noFibre => 1 | .training => 2 | .init => 3 | .up => 4 | .failed => 5

/-- Replace a channel; a change of its state is an EVENT of a capture (R607). -/
def State.setChan (s : State) (c : Nat) (v : Chan) : State :=
  let was := (s.chan c).state
  let s := { s with fab := { s.fab with chans := s.fab.chans.set Chan.reset c v } }
  if was == v.state then s else s.caskEvent 0xFF 6 [BitVec.ofNat 8 c, BitVec.ofNat 8 v.state.code]

/-- Change a channel. -/
def State.modChan (s : State) (c : Nat) (f : Chan → Chan) : State := s.setChan c (f (s.chan c))

/-- Lanes of a channel (R439). -/
def Chan.lanes (c : Chan) : Nat := 2 ^ c.width.toNat

/-- The node's own identifier in frames: 0xFFFF before the first map (R21, R446). -/
def State.ownId (s : State) : BitVec 16 := s.time.node

/-- The epoch the node holds; 0 for none. -/
def State.epoch (s : State) : Nat := match s.comp.map with | some m => m.epoch | none => 0

/-- The channels by which the map reaches a node, in the map's order (R459). -/
def State.linksTo (s : State) (dest : Nat) : List Nat :=
  match s.comp.map with
  | none => []
  | some m => m.links.filterMap fun l =>
      if l.a == s.ownId.toNat && l.b == dest then some l.chA
      else if l.b == s.ownId.toNat && l.a == dest && l.chB != 0xFF then some l.chB else none

/-- Those that are up, and that the sending partition may use (R43, R459). -/
def State.upLinks (s : State) (dest : Nat) (part : Option Nat) : List Nat :=
  (s.linksTo dest).filter fun c =>
    (s.chan c).state == .up &&
      match part with
      | some p => (s.chan c).owner.toNat == p || (s.chan c).owner.toNat == 0xFE
      | none => true

/-! ### Frames -/

/-- A Galmel frame (R446, R447): header with its CRC, then the payload. -/
def galmelFrame (typ flags len src dst epoch tenant seg mid : Nat) (st : Bytes) (payload : Bytes) : Bytes :=
  let h := toLE 1 typ ++ toLE 1 flags ++ toLE 2 len ++ toLE 2 src ++ toLE 2 dst ++ toLE 4 epoch ++ toLE 1 tenant ++ toLE 1 seg ++
    toLE 2 mid ++ st ++ [0, 0]
  h ++ toLE 2 (crc16 h) ++ payload

/-- The node identifier at the far end of a channel, as far as it is known. -/
def State.farNode (s : State) (c : Nat) : Nat :=
  let p := (s.chan c).peer.toNat
  if p != 0xFFFF then p
  else match s.comp.map with
    | none => 0xFFFF
    | some m => ((m.links.filterMap fun l =>
        if l.a == s.ownId.toNat && l.chA == c then some l.b
        else if l.b == s.ownId.toNat && l.chB == c then some l.a else none).head?).getD 0xFFFF

/-- A control frame of the node on a channel: type 2 CREDIT, 3 LINK or 4 TIME. -/
def State.ctlFrame (s : State) (c typ : Nat) (payload : Bytes) : Bytes :=
  galmelFrame typ 0 payload.length s.ownId.toNat (s.farNode c) s.epoch 0 0 0 (zeros 12) payload

/-- Put a LINK or CREDIT frame in front of the channel's queues (R470). -/
def State.sendCtl (s : State) (c typ : Nat) (payload : Bytes) : State :=
  let f := s.ctlFrame c typ payload
  s.modChan c fun k => { k with ctl := k.ctl ++ [f] }

/-- A LINK payload (R451). -/
def linkPayload (sub width inc echo : Nat) : Bytes :=
  toLE 1 sub ++ [1] ++ toLE 1 width ++ [0] ++ toLE 4 inc ++ toLE 4 echo ++ zeros 20

/-- Send INIT with the channel's current incarnation. -/
def State.sendInit (s : State) (c : Nat) : State :=
  s.sendCtl c 3 (linkPayload 1 (s.chan c).width.toNat (s.chan c).incarnation.toNat 0)

/-- A CREDIT frame reports every unit the receiver has made available (R456). -/
def State.sendCredit (s : State) (c : Nat) : State :=
  let s := s.sendCtl c 2 (((s.chan c).avail.map fun v => toLE 4 v.toNat).flatten)
  s.modChan c fun k => { k with unreported := false }

/-- Bytes of egress space of a queue: 64 KiB per lane. -/
def Chan.qSpace (c : Chan) : Nat := 65536 * c.lanes

/-- Bytes queued in a queue. -/
def EgQueue.bytes (q : EgQueue) : Nat := (q.msgs.map fun m => m.data.length).sum

/-- The segment size on a channel (R448). -/
def State.segSize (s : State) (c : Nat) : Nat := if (s.chan c).eth && s.fab.seg1k then 1024 else 4096

/-- Queue a message on a channel, or leave it waiting when it does not fit. -/
def State.enqueue (s : State) (c cls : Nat) (m : EgMsg) : State :=
  let k := s.chan c
  let q := nth k.queues cls {}
  if q.bytes + m.data.length ≤ k.qSpace && !s.fab.waiting.any (fun w => w.1 == c && w.2.1 == cls) then
    s.setChan c { k with queues := k.queues.set cls { q with msgs := q.msgs ++ [m] } }
  else { s with fab := { s.fab with waiting := s.fab.waiting ++ [(c, cls, m)] } }

/-- Move waiting messages of a channel and class into the queue while they fit. -/
def State.drainWaiting (s : State) (c cls : Nat) : State :=
  match s.fab.waiting.find? (fun w => w.1 == c && w.2.1 == cls) with
  | none => s
  | some w =>
    let k := s.chan c
    let q := nth k.queues cls {}
    if q.bytes + w.2.2.data.length ≤ k.qSpace then
      let s := { s with fab := { s.fab with waiting := s.fab.waiting.erase w } }
      s.setChan c { k with queues := k.queues.set cls { q with msgs := q.msgs ++ [w.2.2] } }
    else s

/-- What a message to send carries besides its bytes. -/
structure SendInfo where
  dest : Nat
  cls : Nat
  tenant : Nat := 0
  colour : Nat := 0
  part : Option Nat := none
  note : Nat := 0
  set : Nat := 288
  /-- channel and Ethernet address to answer on when the map does not list the destination (R460) -/
  back : Option (Nat × BitVec 48) := none
  /-- use the first up channel that the map lists (R495) -/
  firstUp : Bool := false
  deriving DecidableEq, Repr

/-- Send a message (R448, R459): number it per destination and class, stamp it, choose its channel and queue it. A message for which
no channel is up is discarded (R453). -/
def State.sendMsg (s : State) (i : SendInfo) (data : Bytes) : State :=
  let ups := s.upLinks i.dest i.part
  let back : Option (Nat × BitVec 48) := match i.back with
    | some (c, a) => if (s.chan c).state == .up then some (c, a) else none
    | none => none
  if ups.isEmpty && back.isNone then s
  else
    let key := i.dest * 8 + i.cls
    let mid := s.fab.msgIds.get 0 key
    let (st, s) := s.stampOrZero
    let s := { s with fab := { s.fab with msgIds := s.fab.msgIds.set 0 key (mid + 1) } }
    let m : EgMsg :=
      { dest := BitVec.ofNat 16 i.dest, tenant := BitVec.ofNat 8 i.tenant, colour := BitVec.ofNat 2 i.colour, msgId := mid, stamp := st,
        data := data, note := i.note, set := i.set, mac := if ups.isEmpty then back.map (·.2) else none }
    let c := if ups.isEmpty then (back.map (·.1)).getD 0 else if i.firstUp then ups.headD 0 else nth ups (mid.toNat % ups.length) 0
    s.enqueue c i.cls m

/-- A channel leaves Up (R453): incomplete reassemblies go, and each queued message not yet begun moves to another up channel to its
destination, or is discarded and counted. -/
def State.leaveUp (s : State) (c : Nat) (next : ChState) : State :=
  let k := s.chan c
  let old : List (Nat × EgMsg) := (List.zipIdx k.queues).flatMap fun (q, i) => q.msgs.map fun m => (i, m)
  let wait := (s.fab.waiting.filter (·.1 == c)).map (fun w => (w.2.1, w.2.2))
  let k' := { k with state := next, since := s.time.up, reasm := [], ctl := [], timeq := [], held := List.replicate 8 0,
                     queues := k.queues.map fun q => { q with msgs := [], headTag := none, wasHeld := false } }
  let s := s.setChan c k'
  let s := { s with fab := { s.fab with waiting := s.fab.waiting.filter (·.1 != c) } }
  (old ++ wait).foldl (fun s (cls, m) =>
    if m.sent == 0 then
      match s.upLinks m.dest.toNat none with
      | [] => s.modChan c fun k => { k with rxDrop := k.rxDrop + 1 }
      | u :: us => s.enqueue (nth (u :: us) (m.msgId.toNat % (us.length + 1)) u) cls m
    else s) s

/-- Start the initialisation exchange anew (R450, R451). -/
def State.enterInit (s : State) (c : Nat) : State :=
  let s := if (s.chan c).state == .up then s.leaveUp c .init else s
  let s := s.modChan c fun k =>
    { k with state := .init, incarnation := k.incarnation + 1, initSeen := false, ackSeen := false,
             limit := List.replicate 8 0, sent := List.replicate 8 0, avail := List.replicate 8 0, held := List.replicate 8 0,
             unreported := false, reasm := [] }
  s.sendInit c

/-- A link re-initialisation counts (R450, R452). -/
def State.reinit (s : State) (c : Nat) : State :=
  let s := (s.modChan c fun k => { k with reinit := k.reinit + 1 }).enterInit c
  s.report { cls := 0x0B, kind := 7, unit := c, loc := s.farNode c, detail := (s.chan c).reinit.toNat }

/-- Shaper credit is full when a channel comes up (R472). -/
def EgQueue.fill (q : EgQueue) (now : Nat) : EgQueue :=
  { q with credit := (max 1 q.burst.toNat * 64 * 8000 : Nat), creditAt := now }

/-- A channel comes up: full shapers, and on a Galmel link the initial credit limits (R451, R456). -/
def State.comeUp (s : State) (c : Nat) : State :=
  let s := s.modChan c fun k =>
    { k with state := .up, since := s.time.up, lastRx := s.time.up, lastTx := s.time.up, queues := k.queues.map (·.fill s.time.up),
             avail := (List.replicate 7 (BitVec.ofNat 32 (512 * k.lanes))) ++ [0] }
  if (s.chan c).eth then s else s.sendCredit c

/-! ### The egress scheduler (R470–R473) -/

/-- Shaper credit brought up to date. -/
def EgQueue.credited (q : EgQueue) (now : Nat) : EgQueue :=
  if q.rate == 0 then q
  else
    let b : Int := (max 1 q.burst.toNat * 64 * 8000 : Nat)
    { q with credit := min b (q.credit + (q.rate.toNat * (now - q.creditAt) : Nat)), creditAt := now }

/-- Payload of the next segment of a message. -/
def EgMsg.segment (m : EgMsg) (g : Nat) : Bytes := slice m.data (m.sent * g) g

/-- Is the next segment the last. -/
def EgMsg.isLast (m : EgMsg) (g : Nat) : Bool := (m.sent + 1) * g ≥ m.data.length

/-- Frame bytes of a payload of `p` bytes on a channel (R445, R460). -/
def State.frameBytes (s : State) (c p : Nat) : Nat :=
  if (s.chan c).eth then max 60 (14 + (if s.fab.vlan then 4 else 0) + 32 + p) + 4 else 32 + p

/-- Accounted length (R473). -/
def State.acctLen (s : State) (c p : Nat) : Nat :=
  s.frameBytes c p + (if (s.chan c).compat then (s.chan c).overhead.toNat else 0)

/-- Credit units of a frame (R455). -/
def unitsFor (p : Nat) : Nat := ceilDiv (32 + p) 64

/-- The class holds credit for a frame of `u` units (R456). -/
def Chan.hasCredit (k : Chan) (cls u : Nat) : Bool :=
  k.eth || ((nth k.sent cls 0 + BitVec.ofNat 32 u - nth k.limit cls 0).toInt ≤ 0)

/-- A queue's head frame may go (R470). -/
def State.eligible (s : State) (c cls : Nat) : Bool :=
  let k := s.chan c
  let q := (nth k.queues cls {}).credited s.time.up
  match q.msgs.head? with
  | none => false
  | some m => (q.rate == 0 || q.credit ≥ 0) && k.hasCredit cls (unitsFor (m.segment (s.segSize c)).length)

/-- The later of two 48-bit tags (R471). -/
def laterTag (a b : BitVec 48) : BitVec 48 := if (a - b).toInt > 0 then a else b

/-- The cost factor of a weight. -/
def costQ (w : BitVec 8) : Nat := 2 ^ 20 / max 1 w.toNat

/-- Compute a head frame's tag by the first branch of R471. -/
def State.tagFresh (s : State) (c cls : Nat) : State :=
  let k := s.chan c
  let q := nth k.queues cls {}
  match q.msgs.head? with
  | none => s
  | some m =>
    let l := s.acctLen c (m.segment (s.segSize c)).length
    let t := laterTag k.vtime q.tag + BitVec.ofNat 48 (l * costQ q.weight)
    s.setChan c { k with queues := k.queues.set cls { q with tag := t, headTag := some t, wasHeld := false } }

/-- Compute it by the second branch: the queue stayed backlogged and eligible. -/
def State.tagNext (s : State) (c cls : Nat) : State :=
  let k := s.chan c
  let q := nth k.queues cls {}
  match q.msgs.head? with
  | none => s.setChan c { k with queues := k.queues.set cls { q with headTag := none } }
  | some m =>
    let l := s.acctLen c (m.segment (s.segSize c)).length
    let t := q.tag + BitVec.ofNat 48 (l * costQ q.weight)
    s.setChan c { k with queues := k.queues.set cls { q with tag := t, headTag := some t, wasHeld := false } }

/-- Bring queues 1–7 of a channel up to date: shaper credit, holds seen, head tags. -/
def State.refreshTags (s : State) (c : Nat) : State :=
  (List.range 8).foldl (fun s cls =>
    let k := s.chan c
    let q := (nth k.queues cls {}).credited s.time.up
    let s := s.setChan c { k with queues := k.queues.set cls q }
    if q.msgs.isEmpty then s
    else if s.eligible c cls then (if q.headTag.isNone || q.wasHeld then s.tagFresh c cls else s)
    else s.setChan c { k with queues := k.queues.set cls { q with wasHeld := true } }) s

/-- The queue among 1–7 that weighted fair queueing selects (R471). -/
def State.wfqPick (s : State) (c : Nat) : Option Nat :=
  ((List.range 8).drop 1).foldl (fun best cls =>
    if s.eligible c cls then
      let t := ((nth (s.chan c).queues cls {}).headTag).getD 0
      match best with
      | none => some cls
      | some b => if (t - ((nth (s.chan c).queues b {}).headTag).getD 0).toInt < 0 then some cls else best
    else best) none

/-- The bytes of a DATA frame of a message's next segment on a channel. -/
def State.dataFrame (s : State) (c cls : Nat) (m : EgMsg) : Bytes :=
  let g := s.segSize c
  let p := m.segment g
  let flags := cls + (if m.isLast g then 8 else 0) + 16 * m.colour.toNat
  let f := galmelFrame 1 flags p.length s.ownId.toNat m.dest.toNat s.epoch m.tenant.toNat m.sent m.msgId.toNat m.stamp.bytes p
  if (s.chan c).eth then
    let dst : BitVec 48 := match m.mac with
      | some a => a
      | none => match s.comp.map with
        | some cm => ((cm.nodes.find? (·.id == m.dest.toNat)).map (·.mac)).getD 0
        | none => 0
    let tag := if s.fab.vlan then
        toBE 2 0x8100 ++ toBE 2 (cls * 8192 + (if m.colour == 0 then 0 else 4096) + s.fab.vid.toNat) else []
    let b := toBE 6 dst.toNat ++ toBE 6 (s.fab.mac + BitVec.ofNat 48 c).toNat ++ tag ++ toBE 2 s.fab.etype.toNat ++ f
    let b := b ++ zeros (60 - b.length)
    b ++ toLE 4 (fcs b)
  else f

/-- Send the head frame of a queue (R470–R472, R456). -/
def State.sendHead (s : State) (c cls : Nat) : State :=
  let k := s.chan c
  let q := nth k.queues cls {}
  match q.msgs with
  | [] => s
  | m :: rest =>
    let g := s.segSize c
    let p := (m.segment g).length
    let f := s.dataFrame c cls m
    let l := s.acctLen c p
    let msgs := if m.isLast g then rest else { m with sent := m.sent + 1 } :: rest
    let q := { q with msgs := msgs, credit := if q.rate == 0 then q.credit else q.credit - (l * 8000 : Nat) }
    let v := if cls == 0 then k.vtime else q.headTag.getD k.vtime
    let k := { k with queues := k.queues.set cls q, vtime := v, lastTx := s.time.up,
                      sent := if k.eth then k.sent else k.sent.set cls (nth k.sent cls 0 + BitVec.ofNat 32 (unitsFor p)) }
    let s := (s.setChan c k).chargeSet m.set 6 (s.frameBytes c p)
    let s := (s.emit (.frame c f)).tagNext c cls
    s.drainWaiting c cls

/-- Bytes that one BASE record carries: a flash page, and as much memory. -/
def basePiece : Nat := 16384

/-- The next BASE record of an item (R605, R607), its partition and body, with what the item still has to export. -/
def State.baseRec (s : State) (b : CaskBase) : Nat × Bytes × List CaskBase :=
  match b with
  | .general part off left =>
    let n := min basePiece left
    let data := match s.part? part with | some p => s.pmRead p off n | none => zeros n
    (part, zeros 8 ++ toLE 8 off ++ data, if left > n then [.general part (off + n) (left - n)] else [])
  | .scan part stack off left =>
    let n := min basePiece left
    (part, zeros 8 ++ toLE 8 (stack + 16 * off) ++ s.locRead (.dram stack off) n, if left > n then [.scan part stack (off + n) (left - n)] else [])
  | .flash part ext page data => (part, [1] ++ zeros 7 ++ toLE 8 (ext * 2 ^ 48 + page) ++ data, [])

/-- The item belongs to the memory base (R605 step 5). -/
def CaskBase.isMem : CaskBase → Bool
  | .flash .. => false
  | _ => true

/-- BASE records go into the log while no segment waits: memory while the base runs, and the flash base once admission is open. -/
def State.baseFill : Nat → State → State
  | 0, s => s
  | fuel + 1, s =>
    match s.cask.base with
    | [] => s
    | b :: rest =>
      if !s.cask.ring.isEmpty || (s.cask.state == 1) != b.isMem then s
      else
        let (part, body, more) := s.baseRec b
        State.baseFill fuel (({ s with cask := { s.cask with base := more ++ rest } }).caskPut 0x0B part 0xFFFF body)

/-- Export one waiting cask segment toward the collector in link class 6 (R606). -/
def State.caskExport (s : State) : State :=
  let dest := s.cask.capCollector.toNat
  if (s.upLinks dest none).isEmpty then s
  else
    let s := s.baseFill 4
    match s.cask.ring with
    | [] => s
    | seg :: rest =>
      let s := { s with cask := { s.cask with ring := rest, bytes := s.cask.bytes + BitVec.ofNat 64 seg.length } }
      s.sendMsg { dest := dest, cls := 6 } seg

/-- Pick and send the channel's next frame (R470). -/
def State.egress (s : State) (c : Nat) : State :=
  let s := s.caskExport
  let k := s.chan c
  if !(k.state == .up || k.state == .init) then s
  else match k.ctl with
  | f :: r => (s.setChan c { k with ctl := r, lastTx := s.time.up }).emit (.frame c f)
  | [] =>
    if k.state != .up then s
    else match k.timeq with
    | f :: r => (s.setChan c { k with timeq := r, lastTx := s.time.up }).emit (.frame c f)
    | [] =>
      let s := s.refreshTags c
      if s.eligible c 0 then s.sendHead c 0
      else match s.wfqPick c with
        | some q => s.sendHead c q
        | none => s

/-! ### Receiving -/

/-- A complete message as the receiver hands it on. -/
structure Rx where
  ch : Nat
  src : BitVec 16
  cls : Nat
  tenant : BitVec 8
  colour : Nat
  acct : Nat
  data : Bytes
  mac : BitVec 48
  epoch : Nat
  units : Nat
  deriving DecidableEq, Repr

/-- Count a drop on a channel, with an error bit where the rule sets one; header CRC and reassembly failures are reported (R588). -/
def State.rxDropped (s : State) (c : Nat) (bit : Option Nat) : State :=
  let s := s.modChan c fun k => { k with rxDrop := k.rxDrop + 1, err := match bit with | some b => bput k.err b true | none => k.err }
  if bit == some 1 || bit == some 2 then
    s.report { cls := 0x0B, cause := bit.getD 0, kind := 7, unit := c, loc := s.farNode c, detail := (s.chan c).rxDrop.toNat }
  else s

/-- Free credit units of a class; what is freed awaits the next CREDIT frame (R455, R456). -/
def State.freeUnits (s : State) (c cls u : Nat) : State :=
  s.modChan c fun k =>
    { k with held := k.held.set cls (nth k.held cls 0 - u),
             avail := if k.eth then k.avail else k.avail.set cls (nth k.avail cls 0 + BitVec.ofNat 32 u),
             unreported := !k.eth || k.unreported }

/-- Note a higher epoch seen in a frame or message (R489). -/
def State.sawEpoch (s : State) (e : Nat) (src : Nat) : State :=
  if e > s.epoch then
    match s.comp.wanted with
    | some (w, _) => if e ≥ w then { s with comp := { s.comp with wanted := some (e, src) } } else s
    | none => { s with comp := { s.comp with wanted := some (e, src), fetchAt := 0 } }
  else if e == s.epoch && e > 0 && !s.comp.confirmed &&
      (match s.comp.map with | some m => m.nodes.any (·.id == src) | none => false) then
    { s with comp := { s.comp with confirmed := true } }
  else s

/-- Does a Galmel header break R446 in a field that R446 fixes for its type. -/
def headerBad (f : Bytes) : Bool :=
  let typ := fieldAt f 0 1
  let flags := fieldAt f 1 1
  let len := fieldAt f 2 2
  let seg := fieldAt f 0xD 1
  let lenOk := match typ with
    | 1 => 1 ≤ len && len ≤ 4096
    | 2 | 3 => len == 32
    | 4 => true
    | _ => false
  !lenOk || f.length < 32 + len || flags ≥ 64 || bitsOf flags 5 4 == 3 || seg ≥ 64 || fieldAt f 0x1C 2 != 0 ||
    (typ != 1 && (flags != 0 || seg != 0 || fieldAt f 0xC 1 != 0 || fieldAt f 0xE 2 != 0 || !allZero (slice f 0x10 12)))

/-- The map lists a node (any kind), as a search node or otherwise. -/
def State.mapLists (s : State) (n : Nat) : Bool :=
  match s.comp.map with | some m => m.nodes.any (·.id == n) | none => false

/-- Add a DATA segment to its reassembly (R448, R449, R454, R455); a complete message comes back. `acct` is the frame's accounted
length, `colour` its colour. -/
def State.rxData (s : State) (c : Nat) (f : Bytes) (acct colour : Nat) (mac : BitVec 48) : State × Option Rx :=
  let k := s.chan c
  let flags := fieldAt f 1 1
  let cls := bitsOf flags 2 0
  let last := flags.testBit 3
  let len := fieldAt f 2 2
  let src := BitVec.ofNat 16 (fieldAt f 4 2)
  let tenant := BitVec.ofNat 8 (fieldAt f 0xC 1)
  let seg := fieldAt f 0xD 1 % 64
  let mid := BitVec.ofNat 16 (fieldAt f 0xE 2)
  let epoch := fieldAt f 8 4
  let u := unitsFor len
  if cls == 7 || (cls == 1 && !s.mapLists src.toNat) then (s.rxDropped c (some 5), none)
  else if k.eth && nth k.held cls 0 + u > 512 * k.lanes then (s.rxDropped c (some 6), none)
  else
    let payload := slice f 32 len
    let same (r : Reasm) : Bool := r.src == src && r.cls.toNat == cls && r.mid == mid
    let old := k.reasm.find? same
    let drop (s : State) (r : Reasm) : State :=
      ((s.modChan c fun k => { k with reasm := k.reasm.filter (!same ·) }).freeUnits c cls r.units).rxDropped c (some 2)
    let hold (s : State) : State := s.modChan c fun k => { k with held := k.held.set cls (nth k.held cls 0 + u) }
    let s := match old with
      | some r => if seg == 0 then drop s r else s
      | none => s
    let cur : Option Reasm :=
      if seg == 0 then
        some { src := src, cls := BitVec.ofNat 3 cls, mid := mid, next := 0, data := [], tenant := tenant, colour := 0, acct := 0,
               units := 0, since := s.time.up, mac := mac, epoch := BitVec.ofNat 32 epoch }
      else old
    match cur with
    | none => ((hold s).freeUnits c cls u |>.rxDropped c (some 2), none)
    | some r =>
      if r.next != seg || (!last && len != s.segSize c) then (drop ((hold s).freeUnits c cls u) r, none)
      else
        let r' := { r with next := seg + 1, data := r.data ++ payload, acct := r.acct + acct,
                           colour := if r.colour.toNat ≥ colour then r.colour else BitVec.ofNat 2 colour, units := r.units + u }
        let s := hold s
        if last then
          let s := s.modChan c fun k => { k with reasm := k.reasm.filter (!same ·) }
          (s, some { ch := c, src := src, cls := cls, tenant := r'.tenant, colour := r'.colour.toNat, acct := r'.acct, data := r'.data,
                     mac := r.mac, epoch := epoch, units := r'.units })
        else if seg ≥ 63 then (drop s r', none)
        else (s.modChan c fun k => { k with reasm := k.reasm.filter (!same ·) ++ [r'] }, none)

/-- A LINK frame (R451, R452). -/
def State.rxLink (s : State) (c : Nat) (f : Bytes) : State :=
  let p := slice f 32 32
  let sub := fieldAt p 0 1
  let width := fieldAt p 2 1
  let inc := fieldAt p 4 4
  let echo := fieldAt p 8 4
  let k := s.chan c
  if fieldAt p 1 1 != 1 || fieldAt p 3 1 != 0 || !allZero (slice p 12 20) || (sub != 2 && echo != 0) then s.rxDropped c none
  else match sub with
    | 1 =>
      let s := s.setChan c { k with peer := BitVec.ofNat 16 (fieldAt f 4 2) }
      let s := if k.state == .up then s.enterInit c else s
      let s := s.sendCtl c 3 (linkPayload 2 k.width.toNat (s.chan c).incarnation.toNat inc)
      if width != k.width.toNat then s
      else
        let s := s.modChan c fun k => { k with initSeen := true }
        if (s.chan c).ackSeen then s.comeUp c else s
    | 2 =>
      if k.state == .init && echo == k.incarnation.toNat then
        let s := s.setChan c { k with ackSeen := true }
        if (s.chan c).initSeen then s.comeUp c else s
      else s
    | 3 => s
    | _ => s.rxDropped c none

/-- A CREDIT frame sets the peer's limits (R456). -/
def State.rxCredit (s : State) (c : Nat) (f : Bytes) : State :=
  s.modChan c fun k => { k with limit := (List.range 8).map fun i => BitVec.ofNat 32 (fieldAt f (32 + 4 * i) 4) }

/-- A frame received on a Galmel link (R450): the drops in the rule's order, then by type. -/
def State.rxGalmel (s : State) (c : Nat) (f : Bytes) (errored : Bool) : State × Option Rx :=
  let k := s.chan c
  if k.eth || !(k.state == .up || k.state == .init) then (s, none)
  else if errored then ((s.rxDropped c (some 0)).reinit c, none)
  else if f.length < 32 || crc16 (f.take 30) != fieldAt f 30 2 then
    let s := (s.rxDropped c (some 1))
    (s.reinit c, none)
  else if headerBad f then (s.rxDropped c none, none)
  else if fieldAt f 0 1 != 3 && fieldAt f 6 2 != s.ownId.toNat then
    ((s.rxDropped c (some 3)).report { cls := 0x0B, cause := 3, kind := 7, unit := c, loc := fieldAt f 4 2,
                                       detail := (s.chan c).rxDrop.toNat + 1 }, none)
  else
    let s := s.modChan c fun k => { k with lastRx := s.time.up }
    let s := s.sawEpoch (fieldAt f 8 4) (fieldAt f 4 2)
    match fieldAt f 0 1 with
    | 1 => if (s.chan c).state == .up then
        s.rxData c f (s.acctLen c (fieldAt f 2 2)) (bitsOf (fieldAt f 1 1) 5 4) 0 else (s, none)
    | 2 => (if (s.chan c).state == .up then s.rxCredit c f else s, none)
    | 3 => (s.rxLink c f, none)
    | _ => (s.modChan c fun k => { k with lastPtp := slice f 32 (fieldAt f 2 2) }, none)

/-- A frame received on an Ethernet-mode channel (R460–R462). -/
def State.rxEthernet (s : State) (c : Nat) (f : Bytes) : State × Option Rx :=
  let k := s.chan c
  if !k.eth || k.state != .up then (s, none)
  else if f.length < 64 || fcs (f.take (f.length - 4)) != fieldAt f (f.length - 4) 4 then (s.rxDropped c (some 4), none)
  else
    let dst := beNat (slice f 0 6)
    let src := BitVec.ofNat 48 (beNat (slice f 6 6))
    let own := (s.fab.mac + BitVec.ofNat 48 c).toNat
    let tagged := beNat (slice f 12 2) == 0x8100
    let o := if tagged then 16 else 12
    let dei := tagged && (beNat (slice f 14 2)).testBit 12
    let et := beNat (slice f o 2)
    let multicast := dst == 0x011B19000000 || dst == 0x0180C200000E
    if !(dst == own || multicast) || !(et == s.fab.etype.toNat || et == 0x88F7) then (s.rxDropped c none, none)
    else if et == 0x88F7 then (s.modChan c fun k => { k with lastPtp := slice f (o + 2) (f.length - o - 6), lastRx := s.time.up }, none)
    else
      let g := slice f (o + 2) (f.length - o - 6)
      if crc16 (g.take 30) != fieldAt g 30 2 then (s.rxDropped c (some 1), none)
      else if headerBad g || fieldAt g 0 1 != 1 then (s.rxDropped c none, none)
      else if fieldAt g 6 2 != s.ownId.toNat then (s.rxDropped c (some 3), none)
      else
        let s := s.sawEpoch (fieldAt g 8 4) (fieldAt g 4 2)
        let acct := f.length + (if (s.chan c).compat then (s.chan c).overhead.toNat else 0)
        s.rxData c g acct (if dei then 1 else 0) src

/-! ### Policers (R474–R478) -/

def State.pol (s : State) (i : Nat) : PolProfile := s.fab.pols.get PolProfile.reset i
def State.modPol (s : State) (i : Nat) (f : PolProfile → PolProfile) : State :=
  { s with fab := { s.fab with pols := s.fab.pols.modify PolProfile.reset i f } }

/-- An invalid profile (R478). -/
def PolProfile.invalid (p : PolProfile) : Bool :=
  (p.pir != 0 && p.pir.toNat < p.cir.toNat) || p.pbs.toNat < 2048 || (p.cir != 0 && p.cbs.toNat < 2048)

/-- The key of a binding's policer. -/
def bindKey (tenant service : Nat) : Nat := tenant * 64 + service

/-- A binding's buckets, full when it has none yet (R476). -/
def State.bucket (s : State) (key : Nat) (p : PolProfile) : Bucket :=
  ((s.fab.buckets.find? (·.1 == key)).map (·.2)).getD ⟨p.pbs.toNat * 64 * 8000, p.cbs.toNat * 64 * 8000, s.time.up⟩

/-- Mark a message of `b` accounted bytes (R476); colours: 0 green, 1 yellow, 2 red. -/
def State.police (s : State) (key prof b colour : Nat) : Nat × State :=
  let p := s.pol prof
  if p.pir == 0 || p.invalid then (0, s.modPol prof fun p => { p with green := p.green + 1 })
  else
    let k := s.bucket key p
    let dt := s.time.up - k.upTo
    let tp := min (p.pbs.toNat * 64 * 8000) (k.tp + dt * p.pir.toNat)
    let tc := min (p.cbs.toNat * 64 * 8000) (k.tc + dt * p.cir.toNat)
    let need := b * 8000
    let cin := if p.aware then colour else 0
    let col := if cin == 2 || tp < need then 2 else if cin == 1 || tc < need then 1 else 0
    let k' : Bucket := ⟨if col == 2 then tp else tp - need, if col == 0 then tc - need else tc, s.time.up⟩
    let s := { s with fab := { s.fab with buckets := (key, k') :: s.fab.buckets.filter (·.1 != key) } }
    (col, s.modPol prof fun p =>
      match col with
      | 0 => { p with green := p.green + 1 }
      | 1 => { p with yellow := p.yellow + 1 }
      | _ => { p with red := p.red + 1 })

/-! ### The time base (R466–R468, R668) -/

/-- The first lock after a reset: one step of rack time, no earlier than the floor (R467, R668). -/
def State.firstLock (s : State) (target : Nat) : State :=
  if s.time.lockedOnce then s
  else
    let fl := match s.time.floor with | some f => if f == 0 then 0 else f + 1 | none => 0
    let r := if s.time.issued then s.rack else max target fl
    { s with time := { s.time with rack := BitVec.ofNat 64 r, frac := 0, lockedOnce := true } }

/-- The stamp floor becomes known (R668): a lock that came before it lifts rack time past it. -/
def State.setFloor (s : State) (f : Nat) : State :=
  match s.time.floor with
  | some _ => s
  | none =>
    let r := if s.time.lockedOnce && !s.time.issued && f > 0 && s.rack ≤ f then f + 1 else s.rack
    { s with time := { s.time with floor := some f, rack := BitVec.ofNat 64 r } }

end Sys2Proof.Machine
end

