-- ==== Sys2Proof/Machine/Float.lean ====
section
/-! DEFINITION. Sys2Proof/Machine/Float.lean: binary floating point over exact integers: FP32, FP64, BF16, FP16 and the two FP8
formats, each operation computed exactly and rounded once (used by the scan, rescore, gather, matrix, refinement and core rules). -/
namespace Sys2Proof

/-- A binary format: exponent bits, fraction bits, and whether the all-ones exponent is reserved for infinities and NaNs. -/
structure Fmt where
  ew : Nat
  mw : Nat
  ieee : Bool := true
  deriving DecidableEq, Repr

namespace Fmt
def fp32 : Fmt := { ew := 8, mw := 23 }
def fp64 : Fmt := { ew := 11, mw := 52 }
def bf16 : Fmt := { ew := 8, mw := 7 }
def fp16 : Fmt := { ew := 5, mw := 10 }
def e5m2 : Fmt := { ew := 5, mw := 2 }
/-- FP8 E4M3: no infinity; the one NaN pattern is all ones. -/
def e4m3 : Fmt := { ew := 4, mw := 3, ieee := false }
def bias (f : Fmt) : Int := (2 ^ (f.ew - 1) : Nat) - 1
def width (f : Fmt) : Nat := f.ew + f.mw + 1
def signBit (f : Fmt) : Nat := 2 ^ (f.ew + f.mw)
/-- Bits of the largest finite magnitude. -/
def top (f : Fmt) : Nat := if f.ieee then (2 ^ f.ew - 1) * 2 ^ f.mw - 1 else 2 ^ (f.ew + f.mw) - 2
/-- Bits of the positive infinity (of an IEEE format). -/
def infBits (f : Fmt) : Nat := (2 ^ f.ew - 1) * 2 ^ f.mw
/-- Bits of the canonical quiet NaN. -/
def nanBits (f : Fmt) : Nat := if f.ieee then (2 ^ f.ew - 1) * 2 ^ f.mw + 2 ^ (f.mw - 1) else 2 ^ (f.ew + f.mw) - 1
end Fmt

/-- A decoded value: a NaN, an infinity, or the exact number ±m·2^e (a zero has m = 0). -/
inductive FVal where
  | nan (signaling : Bool)
  | inf (neg : Bool)
  | fin (neg : Bool) (m : Nat) (e : Int)
  deriving DecidableEq, Repr

/-- Rounding modes, numbered as RISC-V numbers them. -/
inductive RMode where
  | rne | rtz | rdn | rup | rmm
  deriving DecidableEq, Repr

/-- The accrued exception flags: invalid, divide by zero, overflow, underflow, inexact. -/
structure FFlags where
  nv : Bool := false
  dz : Bool := false
  of : Bool := false
  uf : Bool := false
  nx : Bool := false
  deriving DecidableEq, Repr

def FFlags.none : FFlags := {}
def FFlags.invalid : FFlags := { nv := true }

/-- The flags as the five bits of fcsr: NX bit 0, UF 1, OF 2, DZ 3, NV 4. -/
def FFlags.bits (f : FFlags) : Nat := b2n f.nx + 2 * b2n f.uf + 4 * b2n f.of + 8 * b2n f.dz + 16 * b2n f.nv

def FFlags.or (a b : FFlags) : FFlags := ⟨a.nv || b.nv, a.dz || b.dz, a.of || b.of, a.uf || b.uf, a.nx || b.nx⟩

/-- The value that a bit pattern of a format stands for. -/
def fdecode (f : Fmt) (v : Nat) : FVal :=
  let s := v.testBit (f.ew + f.mw)
  let ex := (v / 2 ^ f.mw) % 2 ^ f.ew
  let fr := v % 2 ^ f.mw
  if f.ieee && ex == 2 ^ f.ew - 1 then
    if fr == 0 then .inf s else .nan (fr < 2 ^ (f.mw - 1))
  else if !f.ieee && v % 2 ^ (f.ew + f.mw) == 2 ^ (f.ew + f.mw) - 1 then .nan false
  else if ex == 0 then .fin s fr (1 - f.bias - f.mw)
  else .fin s (fr + 2 ^ f.mw) ((ex : Int) - f.bias - f.mw)

/-- Does rounding away from zero happen, for quotient `q`, remainder `r` of `2^sh` and sign `neg`. -/
def roundsUp (rm : RMode) (neg : Bool) (q r sh : Nat) : Bool :=
  match rm with
  | .rne => (2 * r > 2 ^ sh) || (2 * r == 2 ^ sh && q % 2 == 1)
  | .rtz => false
  | .rdn => neg && r != 0
  | .rup => !neg && r != 0
  | .rmm => 2 * r ≥ 2 ^ sh

/-- Round m·2^e to a whole number of units 2^q; also whether it was inexact. -/
def roundTo (rm : RMode) (neg : Bool) (m : Nat) (e q : Int) : Nat × Bool :=
  if q ≤ e then (m <<< (e - q).toNat, false)
  else
    let sh := (q - e).toNat
    let qt := m >>> sh
    let r := m % 2 ^ sh
    (if roundsUp rm neg qt r sh then qt + 1 else qt, r != 0)

/-- Round the exact value ±m·2^e into a format: the bit pattern and the flags. -/
def fround (f : Fmt) (rm : RMode) (neg : Bool) (m : Nat) (e : Int) : Nat × FFlags :=
  let sg := if neg then f.signBit else 0
  if m == 0 then (sg, .none)
  else
    let emin : Int := 1 - f.bias
    let ex : Int := (m.log2 : Int) + e
    let q : Int := max (ex - f.mw) (emin - f.mw)
    let (mant, inex) := roundTo rm neg m e q
    let bits := ((q + f.bias + f.mw - 1).toNat) * 2 ^ f.mw + mant
    if bits > f.top then
      let toInf := match rm with | .rtz => false | .rdn => neg | .rup => !neg | _ => true
      (sg + (if toInf then (if f.ieee then f.infBits else f.nanBits) else f.top), { of := true, nx := true })
    else
      let tiny := decide (ex < emin) && !(decide (ex + 1 = emin) && (roundTo rm neg m e (ex - f.mw)).1 == 2 ^ (f.mw + 1))
      (sg + bits, { nx := inex, uf := tiny && inex })

/-- The signed integer m of a finite value scaled to 2^e. -/
def scaledInt (neg : Bool) (m : Nat) (e e0 : Int) : Int :=
  let v : Int := ((m <<< (e - e0).toNat : Nat) : Int)
  if neg then -v else v

/-- The exact sum of two finite values. -/
def exactAdd (n1 : Bool) (m1 : Nat) (e1 : Int) (n2 : Bool) (m2 : Nat) (e2 : Int) : Int × Int :=
  let e := min e1 e2
  (scaledInt n1 m1 e1 e + scaledInt n2 m2 e2 e, e)

/-- Round an exact integer multiple of 2^e; `z` is the sign of an exact zero. -/
def froundInt (f : Fmt) (rm : RMode) (v e : Int) (z : Bool) : Nat × FFlags :=
  if v == 0 then (if z then f.signBit else 0, .none) else fround f rm (v < 0) v.natAbs e

def isSnan : FVal → Bool
  | .nan s => s
  | _ => false
def FVal.isNan : FVal → Bool
  | .nan _ => true
  | _ => false
def FVal.neg? : FVal → Bool
  | .nan _ => false
  | .inf n => n
  | .fin n _ _ => n

/-- x + y of decoded values, rounded into `f`. -/
def faddV (f : Fmt) (rm : RMode) (x y : FVal) : Nat × FFlags :=
  match x, y with
  | .nan s, y => (f.nanBits, { nv := s || isSnan y })
  | x, .nan s => (f.nanBits, { nv := s || isSnan x })
  | .inf a, .inf b => if a == b then ((if a then f.signBit else 0) + f.infBits, .none) else (f.nanBits, .invalid)
  | .inf a, .fin .. => ((if a then f.signBit else 0) + f.infBits, .none)
  | .fin .., .inf b => ((if b then f.signBit else 0) + f.infBits, .none)
  | .fin n1 m1 e1, .fin n2 m2 e2 =>
    let (v, e) := exactAdd n1 m1 e1 n2 m2 e2
    let z := if m1 == 0 && m2 == 0 && n1 == n2 then n1 else rm == .rdn
    froundInt f rm v e z

/-- Flip the sign of a decoded value. -/
def FVal.negate : FVal → FVal
  | .nan s => .nan s
  | .inf n => .inf !n
  | .fin n m e => .fin (!n) m e

/-- The exact product of two decoded values, and whether it is invalid (0·∞). -/
def fmulExact (x y : FVal) : FVal × Bool :=
  match x, y with
  | .nan s, y => (.nan false, s || isSnan y)
  | x, .nan s => (.nan false, s || isSnan x)
  | .inf a, .inf b => (.inf (a != b), false)
  | .inf a, .fin n m _ => if m == 0 then (.nan false, true) else (.inf (a != n), false)
  | .fin n m _, .inf a => if m == 0 then (.nan false, true) else (.inf (a != n), false)
  | .fin n1 m1 e1, .fin n2 m2 e2 => (.fin (n1 != n2) (m1 * m2) (e1 + e2), false)

/-- Round a decoded value into a format. -/
def fencode (f : Fmt) (rm : RMode) (x : FVal) : Nat × FFlags :=
  match x with
  | .nan s => (f.nanBits, { nv := s })
  | .inf n => ((if n then f.signBit else 0) + (if f.ieee then f.infBits else f.nanBits), .none)
  | .fin n m e => fround f rm n m e

def fmulV (f : Fmt) (rm : RMode) (x y : FVal) : Nat × FFlags :=
  let (p, bad) := fmulExact x y
  let (b, fl) := fencode f rm p
  (b, { fl with nv := fl.nv || bad })

/-- x·y + z, rounded once. -/
def ffmaV (f : Fmt) (rm : RMode) (x y z : FVal) : Nat × FFlags :=
  let (p, bad) := fmulExact x y
  let (b, fl) := faddV f rm p z
  (b, { fl with nv := fl.nv || bad })

/-- x / y, rounded into `f`. -/
def fdivV (f : Fmt) (rm : RMode) (x y : FVal) : Nat × FFlags :=
  let sg (n : Bool) := if n then f.signBit else 0
  match x, y with
  | .nan s, y => (f.nanBits, { nv := s || isSnan y })
  | x, .nan s => (f.nanBits, { nv := s || isSnan x })
  | .inf _, .inf _ => (f.nanBits, .invalid)
  | .inf a, .fin n _ _ => (sg (a != n) + f.infBits, .none)
  | .fin n _ _, .inf a => (sg (a != n), .none)
  | .fin n1 m1 e1, .fin n2 m2 e2 =>
    if m2 == 0 then
      if m1 == 0 then (f.nanBits, .invalid) else (sg (n1 != n2) + f.infBits, { dz := true })
    else if m1 == 0 then (sg (n1 != n2), .none)
    else
      let k := 2 * f.mw + 8 + m2.log2
      let q := (m1 <<< k) / m2
      let r := (m1 <<< k) % m2
      fround f rm (n1 != n2) (2 * q + b2n (r != 0)) (e1 - e2 - k - 1)

/-- ⌊√v⌋ by `n` result bits, highest first. -/
def isqrtGo (v : Nat) : Nat → Nat → Nat
  | 0, r => r
  | n + 1, r =>
    let t := r + 2 ^ n
    isqrtGo v n (if t * t ≤ v then t else r)

/-- ⌊√v⌋. -/
def isqrt (v : Nat) : Nat := isqrtGo v (v.log2 / 2 + 1) 0

def fsqrtV (f : Fmt) (rm : RMode) (x : FVal) : Nat × FFlags :=
  match x with
  | .nan s => (f.nanBits, { nv := s })
  | .inf n => if n then (f.nanBits, .invalid) else (f.infBits, .none)
  | .fin n m e =>
    if m == 0 then (if n then f.signBit else 0, .none)
    else if n then (f.nanBits, .invalid)
    else
      let k := 2 * f.mw + 8 + (e % 2).toNat
      let k := if (e - k) % 2 == 0 then k else k + 1
      let v := m <<< k
      let r := isqrt v
      fround f rm false (2 * r + b2n (r * r != v)) ((e - k) / 2 - 1)

/-- x < y of decoded numbers (false when either is a NaN). -/
def fltV (x y : FVal) : Bool :=
  match x, y with
  | .nan _, _ => false
  | _, .nan _ => false
  | .inf a, .inf b => a && !b
  | .inf a, .fin .. => a
  | .fin .., .inf b => !b
  | .fin n1 m1 e1, .fin n2 m2 e2 =>
    let e := min e1 e2
    scaledInt n1 m1 e1 e < scaledInt n2 m2 e2 e

/-- x = y of decoded numbers (a zero equals a zero of either sign). -/
def feqV (x y : FVal) : Bool := !x.isNan && !y.isNan && !fltV x y && !fltV y x

/-- The nearest integer of a finite value under a rounding mode, and whether it was inexact. -/
def fintV (rm : RMode) (n : Bool) (m : Nat) (e : Int) : Int × Bool :=
  let (q, inex) := roundTo rm n m e 0
  (if n then -(q : Int) else q, inex)

/-- Shorthands on bit patterns, round to nearest even. -/
def fadd (f : Fmt) (a b : Nat) : Nat := (faddV f .rne (fdecode f a) (fdecode f b)).1
def fsub (f : Fmt) (a b : Nat) : Nat := (faddV f .rne (fdecode f a) (fdecode f b).negate).1
def fmul (f : Fmt) (a b : Nat) : Nat := (fmulV f .rne (fdecode f a) (fdecode f b)).1
def ffma (f : Fmt) (a b c : Nat) : Nat := (ffmaV f .rne (fdecode f a) (fdecode f b) (fdecode f c)).1
def fdiv (f : Fmt) (a b : Nat) : Nat := (fdivV f .rne (fdecode f a) (fdecode f b)).1
def fsqrt (f : Fmt) (a : Nat) : Nat := (fsqrtV f .rne (fdecode f a)).1
def flt (f : Fmt) (a b : Nat) : Bool := fltV (fdecode f a) (fdecode f b)
/-- Convert a pattern of one format into another, round to nearest even. -/
def fconv (src dst : Fmt) (a : Nat) : Nat := (fencode dst .rne (fdecode src a)).1
/-- The pattern of an integer times 2^e. -/
def fofInt (f : Fmt) (v e : Int) : Nat := (froundInt f .rne v e false).1
/-- Is the pattern a NaN or an infinity. -/
def fspecial (f : Fmt) (a : Nat) : Bool := match fdecode f a with | .fin .. => false | _ => true
def fisNan (f : Fmt) (a : Nat) : Bool := (fdecode f a).isNan
/-- Is the pattern a zero of either sign. -/
def fisZero (f : Fmt) (a : Nat) : Bool := match fdecode f a with | .fin _ m _ => m == 0 | _ => false

end Sys2Proof
end

