-- ==== Sys2Proof/Machine/Num.lean ====
section
/-! DEFINITION. Sys2Proof/Machine/Num.lean: the distance arithmetic of the index and the keys of scores (R91, R93, R103, R104, R173). FP32 and
FP64 values are bit patterns. -/
namespace Sys2Proof.Machine
open Fmt (fp32 fp64 bf16 e4m3 e5m2)

def f32zero : Nat := 0
def f32ninf : Nat := 0xFF800000

/-- Negate an FP32 pattern. -/
def fneg32 (a : Nat) : Nat := a ^^^ 0x80000000

def add32 (a b : Nat) : Nat := fadd fp32 a b
def sub32 (a b : Nat) : Nat := fsub fp32 a b
def mul32 (a b : Nat) : Nat := fmul fp32 a b
def div32 (a b : Nat) : Nat := fdiv fp32 a b
def lt32 (a b : Nat) : Bool := flt fp32 a b
def add64 (a b : Nat) : Nat := fadd fp64 a b
def mul64 (a b : Nat) : Nat := fmul fp64 a b
/-- FP32 to FP64, exact. -/
def widen (a : Nat) : Nat := fconv fp32 fp64 a
/-- An integer as FP32, round to nearest even. -/
def int32f (v : Int) : Nat := fofInt fp32 v 0
def nat64f (v : Nat) : Nat := fofInt fp64 v 0
/-- BF16 to FP32 (exact) and back (RNE). -/
def bf2f (a : Nat) : Nat := fconv bf16 fp32 a
def f2bf (a : Nat) : Nat := fconv fp32 bf16 a

/-- Bytes of an element (R85). -/
def elemSize (t : Nat) : Nat := if t == 3 then 2 else 1

/-- The elements of a vector, as raw numbers in dimension order. -/
def elemsOf (t : Nat) (b : Bytes) : Nat → List Nat
  | 0 => []
  | n + 1 => leNat (b.take (elemSize t)) :: elemsOf t (b.drop (elemSize t)) n

/-- An element as FP32 (R103): an INT8 element a stands for a × 2^e. -/
def elemF (t : Nat) (e : Int) (v : Nat) : Nat :=
  match t with
  | 0 => fofInt fp32 (signedOf 8 v) e
  | 1 => fconv e4m3 fp32 v
  | 2 => fconv e5m2 fp32 v
  | _ => bf2f v

/-- An element is a NaN or an infinity (R107). -/
def elemBad (t v : Nat) : Bool :=
  match t with
  | 0 => false
  | 1 => fspecial e4m3 v
  | 2 => fspecial e5m2 v
  | _ => fspecial bf16 v

/-- An element is zero of either sign. -/
def elemZero (t v : Nat) : Bool :=
  match t with
  | 0 => v % 256 == 0
  | 1 => fisZero e4m3 v
  | 2 => fisZero e5m2 v
  | _ => fisZero bf16 v

/-- Add a row of terms into the lanes. -/
def addLanes : List Nat → List Nat → List Nat
  | a :: as, t :: ts => add32 a t :: addLanes as ts
  | as, [] => as
  | [], _ => []

/-- The 32 lane sums of acc32. -/
def lanes : Nat → List Nat → List Nat → List Nat
  | 0, a, _ => a
  | n + 1, a, ts => if ts.isEmpty then a else lanes n (addLanes a (ts.take 32)) (ts.drop 32)

/-- One step of the tree: lane l takes lane l + w. -/
def foldLanes (a : List Nat) (w : Nat) : List Nat := List.zipWith add32 (a.take w) ((a.drop w).take w)

/-- acc32 of a list of terms (R103). -/
def acc32 (ts : List Nat) : Nat :=
  let a := lanes (ts.length / 32 + 1) (List.replicate 32 f32zero) ts
  (foldLanes (foldLanes (foldLanes (foldLanes (foldLanes a 16) 8) 4) 2) 1).headD 0

/-- acc32 squared Euclidean distance, each difference rounded first (R111). -/
def sqDist (x c : List Nat) : Nat := acc32 ((List.zipWith sub32 x c).map fun d => mul32 d d)

/-- Normalise as R91 does: divide by the norm unless it is 0. -/
def normalise (x : List Nat) : List Nat :=
  let n := fsqrt fp32 (acc32 (x.map fun v => mul32 v v))
  if lt32 f32zero n then x.map fun v => div32 v n else x

/-- A plain left-to-right sum. -/
def sum32 (ts : List Nat) : Nat := ts.foldl add32 f32zero

/-- The index of the least value, the first among equals; a NaN is never less. -/
def argMin : List Nat → Nat → Nat → Nat → Nat
  | [], _, best, _ => best
  | v :: r, i, best, bv => if lt32 v bv then argMin r (i + 1) i v else argMin r (i + 1) best bv

def leastAt (l : List Nat) : Nat := match l with | [] => 0 | v :: r => argMin r 1 0 v

/-- The cosine of R104 on FP32 sums. -/
def cosOf (dot qq vv : Nat) : Nat :=
  if fisZero fp32 qq || fisZero fp32 vv then f32zero
  else div32 dot (mul32 (fsqrt fp32 qq) (fsqrt fp32 vv))

/-- The exact score of R104 for a distance kind: 0 inner product, 1 cosine, 2 squared Euclidean. A NaN becomes −∞ (R107). -/
def exactScore (t : Nat) (e : Int) (dist : Nat) (q v : List Nat) : Nat :=
  let r :=
    if t == 0 then
      let qi := q.map (signedOf 8)
      let vi := v.map (signedOf 8)
      let dot := (List.zipWith (· * ·) qi vi).sum
      if dist == 0 then mul32 (int32f dot) (fofInt fp32 1 (2 * e))
      else if dist == 1 then cosOf (int32f dot) (int32f (qi.map fun a => a * a).sum) (int32f (vi.map fun a => a * a).sum)
      else fneg32 (mul32 (int32f (List.zipWith (fun a b => (a - b) * (a - b)) qi vi).sum) (fofInt fp32 1 (2 * e)))
    else
      let qf := q.map (elemF t e)
      let vf := v.map (elemF t e)
      if dist == 0 then acc32 (List.zipWith mul32 qf vf)
      else if dist == 1 then cosOf (acc32 (List.zipWith mul32 qf vf)) (acc32 (qf.map fun a => mul32 a a)) (acc32 (vf.map fun a => mul32 a a))
      else fneg32 (sqDist qf vf)
  if fisNan fp32 r then f32ninf else r

/-! ### Keys (R173) -/

/-- The key of an FP32 score. -/
def keyOf (x : Nat) : Nat :=
  if fisNan fp32 x then 0x007FFFFF
  else if x == 0x80000000 then 0x80000000
  else if x < 0x80000000 then x ^^^ 0x80000000
  else 0xFFFFFFFF - x

/-- The score of a key. -/
def scoreOf (y : Nat) : Nat := if y ≥ 0x80000000 then y ^^^ 0x80000000 else 0xFFFFFFFF - y

/-- The id of a payload (R174). -/
def payId (p : Nat) : Nat := p % 2 ^ 48

/-- Score order (R174): entries are (key, payload). -/
def scoreBefore (a b : Nat × Nat) : Bool := a.1 > b.1 || (a.1 == b.1 && payId a.2 < payId b.2)

/-- Id order (R174). -/
def idBefore (a b : Nat × Nat) : Bool := payId a.2 < payId b.2 || (payId a.2 == payId b.2 && a.1 > b.1)

/-- Put an entry into a sorted list, after those it does not come before. -/
def insertBy (before : Nat × Nat → Nat × Nat → Bool) (e : Nat × Nat) : List (Nat × Nat) → List (Nat × Nat)
  | [] => [e]
  | x :: r => if before e x then e :: x :: r else x :: insertBy before e r

/-- Sort entries, equal ones in input order. -/
def sortBy (before : Nat × Nat → Nat × Nat → Bool) (l : List (Nat × Nat)) : List (Nat × Nat) :=
  l.foldl (fun acc e => insertBy before e acc) []

end Sys2Proof.Machine
end

