-- ==== Sys2Proof/Machine/Index.lean ====
section
/-! DEFINITION. Sys2Proof/Machine/Index.lean: the structures of a vector index as they lie in memory: descriptors, codebooks, interior nodes,
leaves, versions, the tombstone and delete lists, record places and the walk's arithmetic (R84–R108, R116, R120, R130–R131). -/
namespace Sys2Proof.Machine

/-! ### The descriptor (R84–R86) -/

/-- The fields of an index descriptor. -/
structure Desc where
  etype : Nat
  kinds : Nat
  dim : Nat
  layout : Nat
  exp : Int
  maxDepth : Nat
  nbrs : Nat
  recSize : Nat
  attrSize : Nat
  ext : Nat
  bodyCap : Nat
  deltaCap : Nat
  posCap : Nat
  leafN : Nat
  nodeN : Nat
  leafT : Nat
  nodeT : Nat
  cbT : Nat
  routeCb : Nat
  dirLog : Nat
  dirCap : Nat
  dirBuckets : Nat
  dirBase : Nat
  state : Nat
  deltaTrig : Nat
  tombTrig : Nat
  holeLimit : Nat
  splitAt : Nat
  mergeAt : Nat
  dirMerge : Nat
  deriving DecidableEq, Repr

/-- Where descriptor `n` lies. -/
def descAt (n : Nat) : Nat := 0x100000000 + 256 * n

def parseDesc (b : Bytes) : Desc :=
  { etype := fieldAt b 4 1, kinds := fieldAt b 5 1, dim := fieldAt b 6 2, layout := fieldAt b 8 1, exp := signedOf 8 (fieldAt b 9 1),
    maxDepth := fieldAt b 0xA 1, nbrs := fieldAt b 0xB 1, recSize := fieldAt b 0xC 2, attrSize := fieldAt b 0xE 2,
    ext := fieldAt b 0x10 2, bodyCap := fieldAt b 0x12 2, deltaCap := fieldAt b 0x14 2, posCap := fieldAt b 0x16 2,
    leafN := fieldAt b 0x18 4, nodeN := fieldAt b 0x1C 4, leafT := fieldAt b 0x20 8, nodeT := fieldAt b 0x28 8, cbT := fieldAt b 0x30 8,
    routeCb := fieldAt b 0x38 8, dirLog := fieldAt b 0x40 8, dirCap := fieldAt b 0x48 4, dirBuckets := fieldAt b 0x4C 4,
    dirBase := fieldAt b 0x50 8, state := fieldAt b 0x80 1, deltaTrig := fieldAt b 0x81 1, tombTrig := fieldAt b 0x82 1,
    holeLimit := fieldAt b 0x83 1, splitAt := fieldAt b 0x84 2, mergeAt := fieldAt b 0x86 2, dirMerge := fieldAt b 0x88 1 }

/-- The partition can hold an index (R84). -/
def Part.holdsIndex (p : Part) : Bool := p.memBytes ≥ 0x100001000

/-- The descriptor of an index in use: State 2 and its CRC good (R86). A bad CRC fails the index and is reported. -/
def State.useIndex (s : State) (p : Part) (n : Nat) : Option Desc × State :=
  if !p.holdsIndex || n ≥ 16 then (none, s)
  else
    let b := s.pmRead p (descAt n) 256
    if fieldAt b 0x80 1 != 2 then (none, s)
    else if crc32c (b.take 0x80) != fieldAt b 0xFC 4 || fieldAt b 0 4 != 0x58444E49 then
      (none, (s.pmSet p (descAt n + 0x80) 1 3).report { cls := 1, part := p.num, kind := 8, unit := p.num, loc := descAt n, detail := n })
    else (some (parseDesc b), s)

/-- The same without the report. -/
def State.desc? (s : State) (p : Part) (n : Nat) : Option Desc := (s.useIndex p n).1

/-! ### Codes and codebooks (R87–R91) -/

/-- Subspaces and centroids of the residual code, and of the routing code. -/
def Desc.m (d : Desc) : Nat := if d.layout == 0 then 12 else 6
def Desc.k (d : Desc) : Nat := if d.layout == 0 then 16 else 256
def routeM : Nat := 56
def routeK : Nat := 256

/-- First dimension of a subspace. -/
def subLo (dim m s : Nat) : Nat := s * dim / m

/-- The BF16 centroid `j` of subspace `s` of a codebook, as FP32 (R88). -/
def State.centroid (s : State) (p : Part) (data dim m k sub j : Nat) : List Nat :=
  let lo := subLo dim m sub
  let w := subLo dim m (sub + 1) - lo
  (elemsOf 3 (s.pmRead p (data + 2 * (k * lo + j * w)) (2 * w)) w).map bf2f

/-- The squared error of a subvector against a centroid, in ascending dimension order. -/
def sqErr (r c : List Nat) : Nat := sum32 ((List.zipWith sub32 r c).map fun d => mul32 d d)

/-- The subcodes of a residual against a codebook (R91). -/
def State.subcodes (s : State) (p : Part) (data dim m k : Nat) (r : List Nat) : List Nat :=
  (List.range m).map fun sub =>
    let lo := subLo dim m sub
    let w := subLo dim m (sub + 1) - lo
    let x := (r.drop lo).take w
    leastAt ((List.range k).map fun j => sqErr x (s.centroid p data dim m k sub j))

/-- The 6 bytes of a residual code (R87). -/
def packCode (layout : Nat) (c : List Nat) : Bytes :=
  if layout == 0 then toLE 6 ((List.zipIdx c).foldl (fun a e => a + e.1 * 16 ^ e.2) 0) else c.map (BitVec.ofNat 8 ·)

/-- Subcode `i` of a residual code. -/
def subcode (layout : Nat) (b : Bytes) (i : Nat) : Nat :=
  if layout == 0 then leNat b / 16 ^ i % 16 else fieldAt b i 1

/-- A vector as the node encodes it: FP32, normalised in a cosine index (R91, R106). -/
def Desc.vec (d : Desc) (raw : List Nat) : List Nat :=
  let x := raw.map (elemF d.etype d.exp)
  if d.kinds == 2 then normalise x else x

/-- A codebook slot's fields (R89). -/
structure CbSlot where
  state : Nat
  layout : Nat
  using_ : Nat
  made : Stamp
  data : Nat
  deriving DecidableEq, Repr

def State.cbSlot (s : State) (p : Part) (d : Desc) (n : Nat) : CbSlot :=
  let b := s.pmRead p (d.cbT + 32 * n) 32
  { state := fieldAt b 0 1, layout := fieldAt b 1 1, using_ := fieldAt b 4 4, made := stampAt b 8, data := fieldAt b 0x18 8 }

/-- Add to the versions using a slot (R89), `up` or down. -/
def State.cbUse (s : State) (p : Part) (d : Desc) (n : Nat) (up : Bool) : State :=
  let v := (s.cbSlot p d n).using_
  s.pmSet p (d.cbT + 32 * n + 4) 4 (if up then v + 1 else v - 1)

/-- The slot with the latest creation stamp that is ready or live (R122). -/
def State.newestCb (s : State) (p : Part) (d : Desc) : Option Nat :=
  ((List.range 8).filter fun n => (s.cbSlot p d n).state != 0).foldl
    (fun b n => match b with
      | none => some n
      | some m => if (s.cbSlot p d m).made.before (s.cbSlot p d n).made then some n else b) none

/-- Free the slots that R90 frees. -/
def State.cbFree (s : State) (p : Part) (d : Desc) : State :=
  (List.range 8).foldl (fun s n =>
    let c := s.cbSlot p d n
    let later := (List.range 8).any fun m => m != n && (s.cbSlot p d m).state != 0 && c.made.before (s.cbSlot p d m).made
    if c.state != 0 && c.using_ == 0 && later then s.pmSet p (d.cbT + 32 * n) 1 0 else s) s

/-- The code of a vector against a leaf centroid and codebook slot (R91). -/
def State.encode (s : State) (p : Part) (d : Desc) (slot : Nat) (cent x : List Nat) : Bytes :=
  packCode d.layout (s.subcodes p (s.cbSlot p d slot).data d.dim d.m d.k (List.zipWith sub32 x cent))

/-- The routing code of a vector (R91). -/
def State.routeCode (s : State) (p : Part) (d : Desc) (x : List Nat) : Bytes :=
  (s.subcodes p d.routeCb d.dim routeM routeK x).map (BitVec.ofNat 8 ·)

/-- The reconstruction of a routing code (R93). -/
def State.reconstruct (s : State) (p : Part) (d : Desc) (code : Bytes) : List Nat :=
  (List.range routeM).flatMap fun sub => s.centroid p d.routeCb d.dim routeM routeK sub (fieldAt code sub 1)

/-! ### Interior nodes (R92–R94) -/

/-- Where an interior version lies (R92). -/
inductive NodeLoc where
  | pm (off : Nat)
  | tile (t off : Nat)
  deriving DecidableEq, Repr

/-- Read an interior table entry, or a previous-version field. -/
def nodeLoc (e : Nat) : Option NodeLoc :=
  match e % 4 with
  | 1 => some (.pm (bitsOf e 47 6 * 64))
  | 2 => some (.tile (bitsOf e 30 24) (bitsOf e 21 6 * 64))
  | _ => none

/-- The entry that names a place. -/
def NodeLoc.entry : NodeLoc → Nat
  | .pm o => o + 1
  | .tile t o => t * 2 ^ 24 + o + 2

def State.nodeRead (s : State) (p : Part) (l : NodeLoc) (o n : Nat) : Bytes :=
  match l with
  | .pm a => s.pmRead p (a + o) n
  | .tile t a => s.locRead (.tile t (a + o)) n
def State.nodeWrite (s : State) (p : Part) (l : NodeLoc) (o : Nat) (b : Bytes) : State :=
  match l with
  | .pm a => s.pmWrite p (a + o) b
  | .tile t a => s.locWrite (.tile t (a + o)) b

/-- The place of a node's location for reports. -/
def NodeLoc.place : NodeLoc → Nat
  | .pm o => o
  | .tile t o => t * 2 ^ 24 + o

/-- An entry of an interior node: child, population, routing code. -/
structure NodeEntry where
  child : Nat
  pop : Nat
  code : Bytes
  deriving DecidableEq, Repr

/-- An interior node version. -/
structure Node where
  loc : NodeLoc
  num : Nat
  level : Nat
  parent : Nat
  prev : Nat
  entries : List NodeEntry
  deriving DecidableEq, Repr

/-- The publication stamp of a version: its own field, or while that is all ones its publication record's (R119). -/
def State.pubStamp (s : State) (p : Part) (own : Stamp) (record : Nat) : Stamp :=
  if own == Stamp.ones && record != 0 then stampAt (s.pmRead p record 12) 0 else own

/-- Does a node version pass R94. -/
def State.nodeOk (s : State) (p : Part) (l : NodeLoc) (num : Nat) : Bool :=
  let h := s.nodeRead p l 0 64
  let n := fieldAt h 6 2
  fieldAt h 0 4 == num && n ≤ 256 && crc32c (h.take 0x18 ++ s.nodeRead p l 64 (64 * n)) == fieldAt h 0x3C 4

def State.parseNode (s : State) (p : Part) (l : NodeLoc) : Node :=
  let h := s.nodeRead p l 0 64
  let es := (List.range (min 256 (fieldAt h 6 2))).map fun i =>
    let e := s.nodeRead p l (64 + 64 * i) 64
    { child := fieldAt e 0 4, pop := fieldAt e 4 4, code := slice e 8 56 : NodeEntry }
  { loc := l, num := fieldAt h 0 4, level := fieldAt h 4 1, parent := fieldAt h 8 4, prev := fieldAt h 0x10 8, entries := es }

/-- What reaching a child through a table gives (R94, R120). -/
inductive Reach (α : Type) where
  /-- the check failed: absent, with the place to report -/
  | bad (place : Nat)
  /-- it did not exist at S: skipped and counted -/
  | absent
  | found (v : α)
  deriving DecidableEq, Repr

/-- Follow the versions of a node back from S (R120). -/
def State.nodeVersion (s : State) (p : Part) (num : Nat) (at_ : Stamp) : Nat → Nat → Reach Node
  | 0, _ => .absent
  | fuel + 1, e =>
    match nodeLoc e with
    | none => .absent
    | some l =>
      if !s.nodeOk p l num then .bad l.place
      else
        let h := s.nodeRead p l 0 64
        if (s.pubStamp p (stampAt h 0x20) (fieldAt h 0x18 8)).before at_ then .found (s.parseNode p l)
        else State.nodeVersion s p num at_ fuel (fieldAt h 0x10 8)

/-- Versions a chain can hold, as fuel. -/
def chainFuel : Nat := 64

/-- The interior table entry of a node. -/
def State.nodeEntry (s : State) (p : Part) (d : Desc) (num : Nat) : Nat := if num < d.nodeN then s.pmNum p (d.nodeT + 8 * num) 8 else 0

/-- Reach a node for a reader with stamp S. -/
def State.reachNode (s : State) (p : Part) (d : Desc) (num : Nat) (at_ : Stamp) : Reach Node :=
  s.nodeVersion p num at_ chainFuel (s.nodeEntry p d num)

/-- The current version of a node. -/
def State.curNode (s : State) (p : Part) (d : Desc) (num : Nat) : Option Node :=
  match nodeLoc (s.nodeEntry p d num) with
  | some l => if s.nodeOk p l num then some (s.parseNode p l) else none
  | none => none

/-! ### Leaves (R95–R102) -/

/-- A leaf version's header. -/
structure Leaf where
  at_ : Nat
  id : Nat
  cb : Nat
  nbrs : List Nat
  body : Nat
  parent : Nat
  prev : Nat
  bodyCodes : Nat
  deltaCodes : Nat
  meta_ : Nat
  tombs : Nat
  prints : Nat
  pageMap : Nat
  posMap : Nat
  recent : Nat
  pages : Nat
  rpp : Nat
  delta : Nat
  live : Nat
  tombCount : Nat
  recentN : Nat
  flags : Nat
  deriving DecidableEq, Repr

def parseLeaf (a : Nat) (b : Bytes) : Leaf :=
  { at_ := a, id := fieldAt b 0 4, cb := fieldAt b 4 1, nbrs := (List.range (min 8 (fieldAt b 5 1))).map fun i => fieldAt b (0x60 + 4 * i) 4,
    body := fieldAt b 6 2, parent := fieldAt b 8 4, prev := fieldAt b 0x10 8, bodyCodes := fieldAt b 0x18 8, deltaCodes := fieldAt b 0x20 8,
    meta_ := fieldAt b 0x28 8, tombs := fieldAt b 0x30 8, prints := fieldAt b 0x38 8, pageMap := fieldAt b 0x40 8, posMap := fieldAt b 0x48 8,
    recent := fieldAt b 0x50 8, pages := fieldAt b 0x58 2, rpp := fieldAt b 0x5A 2, delta := fieldAt b 0xD4 2, live := fieldAt b 0xD6 2,
    tombCount := fieldAt b 0xD8 2, recentN := fieldAt b 0xDA 1, flags := fieldAt b 0xDB 1 }

/-- Bytes of a leaf header with its centroid (R96). -/
def Desc.leafBytes (d : Desc) : Nat := 256 + alignUp (2 * d.dim) 64

/-- Does a leaf header pass R94. -/
def State.leafOk (s : State) (p : Part) (d : Desc) (a id : Nat) : Bool :=
  let h := s.pmRead p a 256
  fieldAt h 0 4 == id && crc32c (h.take 0xC0 ++ s.pmRead p (a + 256) (2 * d.dim)) == fieldAt h 0xFC 4

def State.parseLeafAt (s : State) (p : Part) (a : Nat) : Leaf := parseLeaf a (s.pmRead p a 256)

/-- The centroid of a leaf version, as FP32. -/
def State.leafCent (s : State) (p : Part) (d : Desc) (a : Nat) : List Nat := (elemsOf 3 (s.pmRead p (a + 256) (2 * d.dim)) d.dim).map bf2f

/-- A leaf table entry (R95): its state, offset and link count. -/
def State.leafEntry (s : State) (p : Part) (d : Desc) (id : Nat) : Nat := if id < d.leafN then s.pmNum p (d.leafT + 8 * id) 8 else 0
def leState (e : Nat) : Nat := e % 4
def leOff (e : Nat) : Nat := bitsOf e 47 6 * 64
def leLinks (e : Nat) : Nat := bitsOf e 63 48
def mkLeafEntry (st off links : Nat) : Nat := st + off % 2 ^ 48 + links * 2 ^ 48
def State.setLeafEntry (s : State) (p : Part) (d : Desc) (id e : Nat) : State := s.pmSet p (d.leafT + 8 * id) 8 e

/-- The current version of a live leaf. -/
def State.curLeaf (s : State) (p : Part) (d : Desc) (id : Nat) : Option Leaf :=
  let e := s.leafEntry p d id
  if leState e == 1 && s.leafOk p d (leOff e) id then some (s.parseLeafAt p (leOff e)) else none

/-- Follow the versions of a leaf back from S (R120). -/
def State.leafVersion (s : State) (p : Part) (d : Desc) (id : Nat) (at_ : Stamp) : Nat → Nat → Reach Leaf
  | 0, _ => .absent
  | fuel + 1, a =>
    if a == 0 then .absent
    else if !s.leafOk p d a id then .bad a
    else
      let h := s.pmRead p a 256
      if (s.pubStamp p (stampAt h 0xC8) (fieldAt h 0xC0 8)).before at_ then .found (parseLeaf a h)
      else State.leafVersion s p d id at_ fuel (fieldAt h 0x10 8)

/-- A forwarding record passes its check (R130). -/
def State.fwdOk (s : State) (p : Part) (a id : Nat) : Bool :=
  let f := s.pmRead p a 64
  fieldAt f 0 4 == id && crcOk f 0x3C

/-- Reach a leaf through an interior entry for a reader with stamp S (R94, R120, R131): a retired id leads to its last version. -/
def State.reachLeaf (s : State) (p : Part) (d : Desc) (id : Nat) (at_ : Stamp) : Reach Leaf :=
  let e := s.leafEntry p d id
  match leState e with
  | 1 => s.leafVersion p d id at_ chainFuel (leOff e)
  | 2 =>
    if !s.fwdOk p (leOff e) id then .bad (leOff e)
    else s.leafVersion p d id at_ chainFuel (s.pmNum p (leOff e + 0x18) 8)
  | _ => .absent

/-- Follow a neighbour link to live leaves for a reader bound after every retirement (R131): at most four forwarding records. -/
def State.followLink (s : State) (p : Part) (d : Desc) : Nat → Nat → List Nat
  | 0, _ => []
  | fuel + 1, id =>
    let e := s.leafEntry p d id
    match leState e with
    | 1 => [id]
    | 2 =>
      if !s.fwdOk p (leOff e) id then []
      else
        let f := s.pmRead p (leOff e) 64
        let a := State.followLink s p d fuel (fieldAt f 0x20 4)
        if fieldAt f 4 1 == 2 then a ++ State.followLink s p d fuel (fieldAt f 0x24 4) else a
    | _ => []

/-- A bit of a map in partition memory. -/
def State.pmBit (s : State) (p : Part) (a i : Nat) : Bool := bitOf (s.pmNum p (a + i / 8) 1) (i % 8)
def State.pmSetBit (s : State) (p : Part) (a i : Nat) (v : Bool) : State :=
  let b := s.pmNum p (a + i / 8) 1
  s.pmSet p (a + i / 8) 1 (if v then b ||| 2 ^ (i % 8) else if bitOf b (i % 8) then b - 2 ^ (i % 8) else b)

/-- Slots in use of a version: body, then delta (R97). -/
def Leaf.slots (l : Leaf) (d : Desc) : List Nat := List.range l.body ++ (List.range l.delta).map (· + d.bodyCap)

/-- The ack stamp of a delta slot (R98). -/
def State.deltaAck (s : State) (p : Part) (l : Leaf) (j : Nat) : Stamp := stampAt (s.pmRead p (l.meta_ + 32 * j + 8) 12) 0

/-- The recent-delete entries of a version: slot and stamp (R99). -/
def State.recents (s : State) (p : Part) (l : Leaf) : List (Nat × Stamp) :=
  (List.range (min 32 l.recentN)).map fun i =>
    let e := s.pmRead p (l.recent + 16 * i) 16
    (fieldAt e 0 2, stampAt e 4)

/-- Write the recent-delete list back, with its count. -/
def State.setRecents (s : State) (p : Part) (l : Leaf) (r : List (Nat × Stamp)) : State :=
  let b := (r.map fun e => toLE 2 e.1 ++ zeros 2 ++ e.2.bytes).flatten
  (s.pmWrite p l.recent b).pmSet p (l.at_ + 0xDA) 1 r.length

/-- The slot is deleted (R99). -/
def State.tomb (s : State) (p : Part) (l : Leaf) (slot : Nat) : Bool := s.pmBit p l.tombs slot

/-- Delta slots that a reader sees: those whose ack stamp orders before S (R116). -/
def State.visibleDelta (s : State) (p : Part) (l : Leaf) (at_ : Stamp) : Nat :=
  ((List.range l.delta).takeWhile fun j => (s.deltaAck p l j).before at_).length

/-- A slot is dead for S (R116). -/
def State.deadAt (s : State) (p : Part) (l : Leaf) (rs : List (Nat × Stamp)) (slot : Nat) (at_ : Stamp) : Bool :=
  s.tomb p l slot && !rs.any fun r => r.1 == slot && !r.2.before at_

/-- Dead slots among those a reader sees. -/
def State.deadSlots (s : State) (p : Part) (d : Desc) (l : Leaf) (at_ : Stamp) : List Nat :=
  let rs := s.recents p l
  (List.range l.body ++ (List.range (s.visibleDelta p l at_)).map (· + d.bodyCap)).filter fun n => s.deadAt p l rs n at_

/-- The position that holds body slot `n` (R101): the (n+1)-th set bit. -/
def State.positionOf (s : State) (p : Part) (l : Leaf) (n : Nat) : Nat :=
  nth ((List.range (l.pages * l.rpp)).filter fun i => s.pmBit p l.posMap i) n 0

/-- The record place of a slot: logical page and record index (R98, R100, R101). -/
def State.recordOf (s : State) (p : Part) (d : Desc) (l : Leaf) (slot : Nat) : Nat × Nat :=
  if slot < d.bodyCap then
    let pos := s.positionOf p l slot
    (s.pmNum p (l.pageMap + 5 * (pos / max 1 l.rpp)) 5, pos % max 1 l.rpp)
  else
    let m := l.meta_ + 32 * (slot - d.bodyCap)
    (s.pmNum p (m + 0x18) 5, s.pmNum p (m + 0x1D) 1)

/-- Records per page (R96). -/
def Desc.rpp (d : Desc) : Nat := 16384 / max 1 d.recSize

/-- A slot's code bytes. -/
def State.codeOf (s : State) (d : Desc) (l : Leaf) (slot : Nat) : Bytes :=
  let a := if slot < d.bodyCap then l.bodyCodes else l.deltaCodes
  let i := if slot < d.bodyCap then slot else slot - d.bodyCap
  s.locRead (.dram (scanAddrStack a) (scanAddrOff a + 6 * i)) 6

/-- The hash of a vector id (R100), and its fingerprint. -/
def idHash (vid : Nat) : Nat := crc32c (toLE 6 vid)
def fingerprint (vid : Nat) : Nat := idHash vid / 65536

/-- A vector record (R102). -/
def Desc.record (d : Desc) (vid leaf : Nat) (elems attrs : Bytes) : Bytes :=
  let b := toLE 6 vid ++ toLE 2 attrs.length ++ toLE 4 leaf ++ zeros 4 ++ elems ++ attrs
  b ++ zeros (d.recSize - b.length)

/-! ### The walk's arithmetic (R108, R158) -/

/-- q′: the query as FP32, normalised when the kind is cosine. -/
def Desc.query (d : Desc) (dist : Nat) (raw : List Nat) : List Nat :=
  let x := raw.map (elemF d.etype d.exp)
  if dist == 1 then normalise x else x

/-- A score term of a subspace: the dot product, or the negated squared distance, in ascending dimension order. -/
def termOf (dist : Nat) (q c : List Nat) : Nat :=
  if dist == 2 then fneg32 (sqErr q c) else sum32 (List.zipWith mul32 q c)

/-- The walk's score of a routing code (R158). -/
def State.walkScore (s : State) (p : Part) (d : Desc) (dist : Nat) (q : List Nat) (code : Bytes) : Nat :=
  sum32 ((List.range routeM).map fun sub =>
    let lo := subLo d.dim routeM sub
    let w := subLo d.dim routeM (sub + 1) - lo
    let c := s.centroid p d.routeCb d.dim routeM routeK sub (fieldAt code sub 1)
    if dist == 2 then fneg32 (sqErr ((q.drop lo).take w) c) else termOf dist ((q.drop lo).take w) c)

/-- The lookup table of a leaf with Δ and bias (R108). -/
def State.lookupTable (s : State) (p : Part) (d : Desc) (dist : Nat) (q cent : List Nat) (data : Nat) : Bytes × Nat × Nat :=
  let rows := (List.range d.m).map fun sub =>
    let lo := subLo d.dim d.m sub
    let w := subLo d.dim d.m (sub + 1) - lo
    let qs := (q.drop lo).take w
    let x := if dist == 2 then List.zipWith sub32 qs ((cent.drop lo).take w) else qs
    (List.range d.k).map fun j => termOf dist x (s.centroid p data d.dim d.m d.k sub j)
  let mins := rows.map fun r => r.foldl (fun a v => if lt32 v a then v else a) (r.headD 0)
  let maxs := rows.map fun r => r.foldl (fun a v => if lt32 a v then v else a) (r.headD 0)
  let spans := List.zipWith (fun a b => div32 (sub32 a b) (int32f 255)) maxs mins
  let top := spans.foldl (fun a v => if lt32 a v || fisNan Fmt.fp32 v then v else a) (spans.headD 0)
  let delta := if fisZero Fmt.fp32 top then 0x3F800000 else top
  let bad := fspecial Fmt.fp32 delta
  let quant (t m : Nat) : Byte :=
    if bad then 0
    else
      match fdecode Fmt.fp32 (div32 (sub32 t m) delta) with
      | .nan _ => 0
      | .inf _ => 255
      | .fin n m e => BitVec.ofNat 8 (min 255 (fintV .rne n m e).1.toNat)
  let lut := (List.zipWith (fun r m => r.map fun t => quant t m) rows mins).flatten
  let bias0 := if dist == 2 then f32zero else acc32 (List.zipWith mul32 q cent)
  (lut, delta, mins.foldl add32 bias0)

/-- An approximate score: bias + Δ × S (R108). -/
def approx (bias delta sum : Nat) : Nat := add32 bias (mul32 delta (int32f sum))

end Sys2Proof.Machine
end

