-- ==== Sys2Proof/Machine/ComposeOps.lean ====
section
/-! DEFINITION. Sys2Proof/Machine/ComposeOps.lean: what the composition map says of shards, corpora and requests (R484, R490, R491, R494,
R504), and the node-to-node messages (R509). -/
namespace Sys2Proof.Machine

def State.shard (s : State) (i : Nat) : Shard := s.comp.shards.get Shard.reset i
def State.modShard (s : State) (i : Nat) (f : Shard → Shard) : State :=
  { s with comp := { s.comp with shards := s.comp.shards.modify Shard.reset i f } }

/-- A shard of the map. -/
def State.mapShard (s : State) (i : Nat) : Option MapShard :=
  match s.comp.map with | some m => m.shards.find? (·.id == i) | none => none

/-- The node that owns or claims a shard: an override wins over the map (R504). -/
def State.holder (s : State) (sh : MapShard) : Nat := match (s.shard sh.id).override with | some (n, _) => n | none => sh.owner

/-- The own node id of the map (R485). -/
def State.me (s : State) : Nat := s.comp.node.toNat

/-- The map marks a node failed. -/
def State.mapFailed (s : State) (n : Nat) : Bool :=
  match s.comp.map with | some m => m.nodes.any fun x => x.id == n && x.failed | none => false

/-- The shards of a corpus in the map's order. -/
def State.corpusShards (s : State) (c : Nat) : List MapShard :=
  match s.comp.map with | some m => m.shards.filter (·.corpus == c) | none => []

/-- The corpus that a service index stands for: of the shards that name it as owner service, one that this node holds, else the lowest
(assumption 22). -/
def State.corpusOf (s : State) (svc : Nat) : Option MapCorpus :=
  match s.comp.map with
  | none => none
  | some m =>
    let named := m.shards.filter (·.service == svc)
    let pick := match named.find? (fun x => s.holder x == s.me) with | some x => some x | none => named.head?
    match pick with
    | some x => m.corpora.find? (·.id == x.corpus)
    | none => none

/-- The shard of a vector id in a corpus (R484). -/
def State.shardOfVid (s : State) (c : MapCorpus) (vid : Nat) : Option MapShard := s.mapShard (c.first + idHash vid % max 1 c.count)

/-- The node serves the corpus (R484). -/
def State.serves (s : State) (c : MapCorpus) : Bool := (s.corpusShards c.id).any fun x => s.holder x == s.me

/-- Is a request kind an update. -/
def isUpdateKind (k : Nat) : Bool := k == 3 || k == 4 || k == 5

/-- Whether a map that the node holds is confirmed (R490). -/
def State.mapConfirmed (s : State) : Bool := s.comp.confirmed || s.comp.alone

/-- The request is addressed to the node (R491). With no map every request is (assumption 23). -/
def State.addressed (s : State) (kind svc vid : Nat) : Bool :=
  match s.comp.map with
  | none => true
  | some _ =>
    s.mapConfirmed &&
      match s.corpusOf svc with
      | none => false
      | some c =>
        if isUpdateKind kind then (match s.shardOfVid c vid with | some x => s.holder x == s.me | none => false)
        else s.serves c

/-- The node that a redirect names (R492). -/
def State.redirectTo (s : State) (kind svc vid : Nat) : Option Nat :=
  match s.corpusOf svc with
  | none => none
  | some c =>
    if isUpdateKind kind then (s.shardOfVid c vid).map s.holder
    else ((s.corpusShards c.id).foldl (fun b x => match b with
      | none => some x
      | some y => if x.id < y.id then some x else b) none).map s.holder

/-- The shards that a request concerns: the vector id's for an update, else every shard of the corpus that the node holds. -/
def State.requestShards (s : State) (kind svc vid : Nat) : List MapShard :=
  match s.corpusOf svc with
  | none => []
  | some c => if isUpdateKind kind then (s.shardOfVid c vid).toList else (s.corpusShards c.id).filter fun x => s.holder x == s.me

/-- The peers of a coordinator with the owner service of each (R494), in ascending order of node. -/
def State.peersOf (s : State) (svc : Nat) : List (Nat × Nat) :=
  match s.corpusOf svc with
  | none => []
  | some c =>
    let l := (s.corpusShards c.id).filter fun x => s.holder x != s.me
    l.foldl (fun acc x => if acc.any (·.1 == s.holder x) then acc else insPair (s.holder x, x.service) acc) []
where
  insPair (e : Nat × Nat) : List (Nat × Nat) → List (Nat × Nat)
    | [] => [e]
    | x :: r => if e.1 < x.1 then e :: x :: r else x :: insPair e r

/-- A header of R133 for a message that the node forms (R509, R21). -/
def State.nodeHeader (s : State) (kind : Nat) (bodyLen : Nat) (tag : Nat) : Bytes × State :=
  let (st, s) := s.stampOrZero
  (toLE 1 kind ++ [1, 0xFF, 0] ++ toLE 4 (64 + alignUp bodyLen 8) ++ toLE 8 tag ++ st.bytes ++ toLE 4 s.epoch ++ toLE 4 0 ++
    toLE 2 0xFFFF ++ toLE 2 0 ++ zeros 24, s)

/-- The link class of a node-to-node message kind (R509). -/
def nodeClass (kind : Nat) : Nat :=
  match kind with | 0x20 | 0x22 => 1 | 0x21 | 0x23 | 0x25 | 0x2A => 0 | 0x24 | 0x26 => 4 | _ => 5

/-- Send a node-to-node message. -/
def State.sendNode (s : State) (dest kind : Nat) (body : Bytes) (tag : Nat := 0) : State :=
  let (h, s) := s.nodeHeader kind body.length tag
  s.sendMsg { dest := dest, cls := nodeClass kind } (h ++ pad8 body)

/-- Report a composition conflict or override (R588). -/
def State.reportComp (s : State) (cause shard other : Nat) : State :=
  s.report { cls := 0x0E, cause := cause, kind := 10, unit := 0, loc := shard, detail := other }

end Sys2Proof.Machine
end

