-- ==== Sys2Proof/Machine/FlashOps.lean ====
section
/-! DEFINITION. Sys2Proof/Machine/FlashOps.lean: the operations of the flash side: logical pages, staging, stripes and blocks, the carrier
set and its states, and the page-read ladder (R386–R405, R425–R435). -/
namespace Sys2Proof.Machine

/-! ### Logical pages -/

/-- Bytes of a page (R383). -/
def pageBytes : Nat := 16384

/-- The key of a logical page: partition, extent id, page number. -/
def pageKey (p ext n : Nat) : Nat := (p * 65536 + ext) * 2 ^ 40 + n

def keyPage (k : Nat) : Nat := k % 2 ^ 40
def keyExt (k : Nat) : Nat := k / 2 ^ 40 % 65536
def keyPart (k : Nat) : Nat := k / 2 ^ 56

/-- Logical pages of an extent of G GB (R391). -/
def extPages (g : Nat) : Nat := g * 10 ^ 9 / 16384

/-- The home carrier of a page (R388). -/
def homeOf (k : Nat) : Nat := keyPage k % 8

def Part.flashExt (p : Part) (id : Nat) : Option FlashExt := p.flash.find? (·.id == id)

/-- A staged page. -/
def State.stagedPage (s : State) (k : Nat) : Option Staged := (s.staged.find? (·.1 == k)).map (·.2)

/-- One byte of a logical page as every read sees it (R391, R392): staged if its granule is staged, else programmed, else 0. -/
def State.flashByte (s : State) (k b : Nat) : Byte :=
  match s.stagedPage k with
  | some g => if g.granules.contains (b / 16) then Memory.byte g.data b else Memory.byte s.media.data (k * 16384 + b)
  | none => Memory.byte s.media.data (k * 16384 + b)

/-- `n` bytes of a logical page from byte `o` on. -/
def State.flashRead (s : State) (k o n : Nat) : Bytes :=
  match s.stagedPage k with
  | some _ => (List.range n).map fun i => s.flashByte k (o + i)
  | none => Memory.read s.media.data (k * 16384 + o) n

/-- Pages staged for a carrier; its buffer holds 4,096 (R392). -/
def State.stagedOn (s : State) (c : Nat) : Nat := (s.staged.filter fun e => homeOf e.1 == c).length

/-- The home carrier's staging buffer cannot take a further page. -/
def State.stagingFull (s : State) (k : Nat) : Bool := (s.stagedPage k).isNone && s.stagedOn (homeOf k) ≥ 4096

/-- A stamp where one can be had, else the stamp of zeros. -/
def State.stampIfCan (s : State) : Stamp × State := if s.canStamp then s.takeStamp else (Stamp.zero, s)

/-- Stage a byte range of a page (R392, R393): later bytes replace earlier ones. -/
def State.stage (s : State) (k o : Nat) (b : Bytes) (hint : Nat) : State :=
  let gs := (List.range (ceilDiv (o % 16 + b.length) 16)).map (· + o / 16)
  let (g, s) := match s.stagedPage k with
    | some g => (g, s)
    | none =>
      let (st, s) := s.stampIfCan
      (({ since := s.time.up, stamp := st } : Staged), s)
  let g := { g with data := Memory.write g.data o b, granules := gs.foldl insNat g.granules, hint := hint }
  { s with staged := s.staged.insert k g,
           media := { s.media with heat := s.media.heat.modify 0 k (· + 1), bytesStaged := s.media.bytesStaged + b.length } }

/-- Logical pages that one flash map page covers (assumption 34). -/
def mapCover : Nat := 2048

/-- A flash map page changes: its first change since its checkpoint is noted (R617). -/
def State.mapChanged (s : State) (k : Nat) : State :=
  let m := k / mapCover
  if s.dur.mapDirty.get 0 m != 0 then s else { s with dur := { s.dur with mapDirty := s.dur.mapDirty.set 0 m (s.time.up + 1) } }

/-- Deallocate a page (R391, R407): later reads return zeros. -/
def State.dealloc (s : State) (k : Nat) : State :=
  let s := if s.media.map.get 0 k == 0 then s else s.mapChanged k
  { s with staged := s.staged.erase k,
           media := { s.media with data := Memory.clear s.media.data (k * 16384) 16384, map := s.media.map.erase k } }

/-- Discard every page of an extent (R79). -/
def State.discardExtent (s : State) (p ext : Nat) : State :=
  let lo := pageKey p ext 0
  let hi := lo + 2 ^ 40
  { s with staged := s.staged.without lo hi,
           media := { s.media with data := Memory.clear s.media.data (lo * 16384) (2 ^ 40 * 16384), map := s.media.map.without lo hi } }

/-! ### Carriers and the set -/

def State.carrier (s : State) (c : Nat) : Carrier := s.carriers.get Carrier.reset c
def State.modCarrier (s : State) (c : Nat) (f : Carrier → Carrier) : State :=
  { s with carriers := s.carriers.modify Carrier.reset c f }
def State.flashCh (s : State) (n : Nat) : FlashCh := s.fls.chans.get FlashCh.reset n
def State.modFlashCh (s : State) (n : Nat) (f : FlashCh → FlashCh) : State :=
  { s with fls := { s.fls with chans := s.fls.chans.modify FlashCh.reset n f } }

/-- The code of a carrier state (R425). -/
def CarState.code : CarState → Nat
  | .absent => 0 | .powering => 1 | .identifying => 2 | .online => 3 | .rebuilding => 4 | .removal => 5 | .safe => 6
  | .lost => 7 | .refused => 8 | .failed => 9

/-- The code of a storage state (FLS_STATUS.STATE). -/
def FlsState.code : FlsState → Nat
  | .down => 0 | .forming => 1 | .ready => 2 | .degraded => 3 | .rebuilding => 4 | .readOnly => 5 | .failed => 6

/-- Storage runs: ready, degraded, rebuilding or read-only. -/
def State.storageUp (s : State) : Bool :=
  match s.fls.state with | .ready | .degraded | .rebuilding | .readOnly => true | _ => false

/-- Carriers online. -/
def State.onlineCount (s : State) : Nat := ((List.range 8).filter fun c => (s.carrier c).state == .online).length

/-- A position's pages come by stripe rebuild (R432): its carrier is not online. -/
def State.posMissing (s : State) (c : Nat) : Bool :=
  match (s.carrier c).state with | .online | .removal => false | _ => true

/-- The set has 16 targets a channel (FK16) or 8 (FK08). -/
def State.targets (s : State) : Nat :=
  (((List.range 8).filterMap fun c => (s.carrier c).ident.map (·.targets)).head?).getD 16

/-- Stripe blocks of the set (R383, R389). -/
def State.stripeBlocks (s : State) : Nat := 4 * s.targets * 4 * 1490

/-- Pages the steep buffer holds (R390). -/
def State.steepPages (s : State) : Nat := (if s.targets == 16 then 450 else 225) * 10 ^ 9 / 16384

/-- Spare in GB of the set (R390), and what is left of it: a used spare member block costs its QLC bytes. -/
def State.spareGB (s : State) : Nat := if s.targets == 16 then 17800 else 8900
def State.spareLeft (s : State) : Nat := s.spareGB - s.media.spareUsed * 2560 * 16384 / 10 ^ 9
def State.sparePct (s : State) : Nat := s.spareLeft * 100 / s.spareGB

/-- The allocatable capacity in GB (R390, R52). -/
def State.allocatable (s : State) : Nat := if s.targets == 16 then 92000 else 46000

/-- Pages of steep blocks not yet erased, written or not valid alike (R396). -/
def State.steepUsed (s : State) : Nat := ((s.media.blocks.filter fun b => b.2.oneBit).map fun b => 7 * b.2.next).sum
def State.steepPct (s : State) : Nat := s.steepUsed * 100 / s.steepPages
def State.freePct (s : State) : Nat := (s.stripeBlocks - s.media.blocks.length) * 100 / s.stripeBlocks

/-- START_PCT and HIGH_PCT as they act (FLS_KILN): both at HIGH when START exceeds it. -/
def State.kilnAt (s : State) : Nat := min s.fls.kilnStart.toNat s.fls.kilnHigh.toNat

/-- Count a media error class (R422), saturating. -/
def State.countErr (s : State) (cls : Nat) : State :=
  { s with media := { s.media with errCounts := s.media.errCounts.modify 0 cls (fun n => min (n + 1) (2 ^ 64 - 1)) } }

/-- Set a bit of FLS_ERR. -/
def State.flsErr (s : State) (b : Nat) : State := { s with fls := { s.fls with err := bput s.fls.err b true } }

/-- The storage state that the members give (R387, R402, R432, R434). -/
def State.memberState (s : State) : FlsState :=
  let on := s.onlineCount
  let re := ((List.range 8).filter fun c => (s.carrier c).state == .rebuilding).length
  if on + re < 7 || on < 7 then .failed
  else if s.media.readOnly then .readOnly
  else if on == 8 then .ready
  else if re > 0 then .rebuilding
  else .degraded

/-- Record a carrier's departure (R428, R433): its serial number, and a change map that starts with the blocks open now. -/
def State.departed (s : State) (c : Nat) : State :=
  let openB := (s.media.blocks.filter fun b => !b.2.closed).map (·.1)
  s.modCarrier c fun k => { k with leftSerial := k.ident.map (·.serial), changed := openB }

/-- Mark a stripe block as changed in the change map of every slot whose carrier is away (R433). -/
def State.changedBlock (s : State) (b : Nat) : State :=
  (List.range 8).foldl (fun s c =>
    if (s.carrier c).leftSerial.isSome && (s.carrier c).state != .online then
      s.modCarrier c fun k => { k with changed := insNat k.changed b } else s) s

/-! ### Blocks, stripes and streams -/

def State.block? (s : State) (b : Nat) : Option SBlock := (s.media.blocks.find? (·.1 == b)).map (·.2)
def State.setBlock (s : State) (b : Nat) (v : SBlock) : State :=
  { s with media := { s.media with blocks := (b, v) :: s.media.blocks.filter (·.1 != b) } }

/-- Wear units of a stripe block: those of its most worn member. -/
def State.blockWear (s : State) (b : Nat) : Nat := ((List.range 8).map fun c => s.media.wear.get 0 (b * 8 + c)).foldl max 0

/-- Look for the free stripe block with the fewest wear units among the first `n` candidates from `b` on; unworn blocks come first
(R398), and among equals the lowest number (assumption 20). -/
def State.freeFrom (s : State) : Nat → Nat → Option Nat → Option Nat
  | 0, _, best => best
  | n + 1, b, best =>
    if (s.block? b).isSome then State.freeFrom s n (b + 1) best
    else
      let w := s.blockWear b
      if w == 0 then some b
      else match best with
        | none => State.freeFrom s n (b + 1) (some b)
        | some x => State.freeFrom s n (b + 1) (if w < s.blockWear x then some b else some x)

/-- The free block to take next. -/
def State.freeBlock (s : State) : Option Nat := s.freeFrom s.stripeBlocks 0 none

/-- Pages of a block in its mode (R383). -/
def SBlock.pages (b : SBlock) : Nat := if b.oneBit then 640 else 2560

/-- The block a stream writes into now, opened when it has none. -/
def State.openBlock (s : State) (st : Stream) : Option Nat × State :=
  match s.media.blocks.find? (fun b => b.2.stream == st && !b.2.closed && !b.2.erasing) with
  | some b => (some b.1, s)
  | none =>
    match s.freeBlock with
    | none => (none, s)
    | some n =>
      let s := s.setBlock n { oneBit := st == .steep, stream := st, order := s.media.nextOrder }
      (some n, { s with media := { s.media with nextOrder := s.media.nextOrder + 1 } })

/-- The parity position of a stripe (R389). -/
def parityPos (block page : Nat) : Nat := (block % 1490 + page) % 8

/-- Reserve the next stripe position of a stream, or of a given block. -/
def State.nextPos (s : State) (st : Stream) (fix : Option Nat := none) : Option (Nat × Nat) × State :=
  match (match fix with | some b => (if ((s.block? b).map (·.closed)).getD true then none else some b, s) | none => s.openBlock st : Option Nat × State) with
  | (none, s) => (none, s)
  | (some b, s) =>
    match s.block? b with
    | none => (none, s)
    | some v =>
      let v' := { v with next := v.next + 1, closed := v.next + 1 ≥ v.pages }
      (some (b, v.next), (s.setBlock b v').changedBlock b)

/-- Whether a page is hot by hint, placement or history (R395). -/
def State.isHot (s : State) (k hint : Nat) : Bool :=
  match hint with
  | 1 => true
  | 2 | 3 => false
  | _ =>
    let h := s.media.hints.get 0 k
    if h == 1 then true else if h ≥ 2 then false else
    let pl := match s.part? (keyPart k) with
      | some p => (p.flashExt (keyExt k)).elim 0 (·.place)
      | none => 0
    if pl == 1 then true else if pl == 2 then false else s.media.heat.get 0 k ≥ 2

/-- The stream of a staged page (R395). -/
def State.streamOf (s : State) (k : Nat) (g : Staged) : Stream :=
  if g.hint == 3 then .cold
  else if s.steepPct ≥ s.fls.kilnHigh.toNat then (if s.isHot k g.hint then .hot else .cold)
  else .steep

/-- A page is part of a stripe whose program runs. -/
def State.inProgram (s : State) (k : Nat) : Bool :=
  s.media.stripes.any fun e => e.2.programming && e.2.slots.contains (some k)

/-- The oldest staged page of a stream homed on a carrier and not already being programmed. -/
def State.oldestStaged (s : State) (st : Stream) (c : Nat) : Option (Nat × Staged) :=
  (s.staged.filter fun e => homeOf e.1 == c && s.streamOf e.1 e.2 == st && !s.inProgram e.1).foldl
    (fun best e => match best with
      | none => some e
      | some b => if e.2.since < b.2.since then some e else best) none

/-- The pages a stripe of the stream would take at a parity position: one for each other position. -/
def State.gatherStripe (s : State) (st : Stream) (par : Nat) : List (Option (Nat × Staged)) :=
  (List.range 8).map fun c => if c == par then none else s.oldestStaged st c

/-- The stripe position a stream writes next, without opening it. -/
def State.peekPos (s : State) (st : Stream) : Option (Nat × Nat) :=
  match s.media.blocks.find? (fun b => b.2.stream == st && !b.2.closed && !b.2.erasing) with
  | some b => some (b.1, b.2.next)
  | none => (s.freeBlock).map fun b => (b, 0)

/-- When the stripe gathering now closes for age: its oldest page's staging time plus CLOSE_US (R394). -/
def State.closeDue (s : State) (st : Stream) : Option Nat :=
  match s.peekPos st with
  | none => none
  | some (b, pg) =>
    ((s.gatherStripe st (parityPos b pg)).filterMap fun x => x.map fun e => e.2.since).foldl
      (fun m t => match m with | none => some t | some u => some (min t u)) (none : Option Nat)
    |>.map (· + max 1 s.fls.closeUs.toNat * 1000)

/-- A carrier sensor above 75 °C holds background work, one above 85 °C holds stream programs (R435). Every stripe has a page on each
carrier, so a pause on one carrier pauses them all (DEDUCED, assumption 35). -/
def State.pause75 (s : State) : Bool := s.carriers.any fun e => e.2.pause75
def State.pause85 (s : State) : Bool := s.carriers.any fun e => e.2.pause85

/-- Start the program of a stream's stripe (R394): filled positions with their pages, the others with fillers. -/
def State.closeStripe (s : State) (st : Stream) : State :=
  if s.pause85 then s else
  match s.nextPos st with
  | (none, s) => s
  | (some (b, pg), s) =>
    let par := parityPos b pg
    let got := s.gatherStripe st par
    if got.all Option.isNone then s
    else
      let (stamp, s) := s.stampIfCan
      let missing := (List.range 8).find? fun c => s.posMissing c && (s.carrier c).state != .rebuilding
      let v : Stripe := { block := b, page := pg, slots := got.map (·.map (·.1)), stream := st, stamp := stamp, skip := missing,
                          snap := got.filterMap id, programming := true }
      { s with media := { s.media with stripes := (s.media.nextStripe, v) :: s.media.stripes, nextStripe := s.media.nextStripe + 1 } }

/-- Program one staged page's content into the media (R393): unwritten bytes keep the current copy. -/
def Media.programPage (m : Media) (k : Nat) (g : Staged) : Media :=
  let data := g.granules.foldl (fun d gr =>
    let bytes := (List.range 16).map fun i => Memory.byte g.data (gr * 16 + i)
    Memory.write d (k * 16384 + gr * 16) bytes) m.data
  { m with data := data }

/-- A stripe whose members all passed: its pages are programmed and leave the staging buffer unless written again since (R394). -/
def State.stripePassed (s : State) (id : Nat) (v : Stripe) : State :=
  let m := v.snap.foldl (fun (m : Media) e => m.programPage e.1 e.2) s.media
  let m := { m with map := v.snap.foldl (fun mp e => SMap.insert mp e.1 id) m.map,
                    hints := v.snap.foldl (fun h e => SMap.set h 0 e.1 e.2.hint) m.hints,
                    stripes := m.stripes.map fun e => if e.1 == id then (id, { v with programming := false, programmed := true, snap := [] }) else e,
                    bytesProg := m.bytesProg + 8 * 16384 }
  let s := v.snap.foldl (fun s e => s.mapChanged e.1) s
  let staged := v.snap.foldl (fun st e => if (st.find? (·.1 == e.1)).map (·.2) == some e.2 then SMap.erase st e.1 else st) s.staged
  let s := { s with media := m, staged := staged, fls := { s.fls with progCnt := s.fls.progCnt + 8 } }
  (List.range 8).foldl (fun s c => if s.posMissing c then s else s.modCarrier c fun k => { k with pagesProg := k.pagesProg + 1 }) s

/-- Valid pages of a stripe block: those whose current copy lies in one of its stripes. -/
def State.validIn (s : State) (b : Nat) : List Nat :=
  (s.media.stripes.filter fun e => e.2.block == b).flatMap fun e =>
    e.2.slots.filterMap fun k => match k with
      | some k => if s.media.map.get 0 k == e.1 then some k else none
      | none => none

/-- Put pages (whose content does not change) into new stripes of a stream: each stripe takes the first page left for each data
position. -/
def State.moveInto (s : State) (st : Stream) (fix : Option Nat := none) : Nat → List Nat → State
  | 0, _ => s
  | n + 1, keys =>
    if keys.isEmpty then s
    else match s.nextPos st fix with
      | (none, s) => s
      | (some (b, pg), s) =>
        let par := parityPos b pg
        let slots := (List.range 8).map fun c => if c == par then none else keys.find? (fun k => homeOf k == c)
        let placed := slots.filterMap id
        if placed.isEmpty then State.moveInto s st fix n keys
        else
          let (stamp, s) := s.stampIfCan
          let id := s.media.nextStripe
          let v : Stripe := { block := b, page := pg, slots := slots, stream := st, stamp := stamp, programmed := true }
          let s := { s with media := { s.media with stripes := (id, v) :: s.media.stripes, nextStripe := id + 1,
                                                    map := placed.foldl (fun m k => SMap.insert m k id) s.media.map,
                                                    bytesProg := s.media.bytesProg + 8 * 16384 },
                            fls := { s.fls with progCnt := s.fls.progCnt + 8 } }
          State.moveInto (placed.foldl State.mapChanged s) st fix n (keys.filter (!placed.contains ·))

/-- Start the erase of an emptied block. -/
def State.startErase (s : State) (b : Nat) : State :=
  match s.block? b with
  | none => s
  | some v => (s.setBlock b { v with closed := true, erasing := true }).changedBlock b

/-- Move the valid pages of a block and erase it: kilning (by class), collection and levelling (cold). -/
def State.foldBlock (s : State) (b : Nat) (cls : Nat → Stream) : State :=
  let keys := s.validIn b
  let hot := keys.filter (cls · == .hot)
  let cold := keys.filter (cls · != .hot)
  let s := s.moveInto .hot none (8 * hot.length + 8) hot
  let s := s.moveInto .cold none (8 * cold.length + 8) cold
  let s := { s with media := { s.media with stripes := s.media.stripes.filter (fun e => e.2.block != b) } }
  s.startErase b

/-! ### The read ladder (R403–R405) -/

/-- Account one page read that decoded at a ladder step: 0 from staging; 1–8; 9 by rebuild; 10 unrecoverable. The record of the last carries
the tag of the work that read it, and action bit 1 where a request is answered DEGRADED for it (R587). -/
def State.countRead (s : State) (k step : Nat) (tag : Nat := 0x100) (degrades : Bool := false) : State :=
  if step == 0 then s
  else
    let f := s.fls
    let f := { f with readCnt := f.readCnt + 1 }
    let f := if step ≥ 2 then { f with retryCnt := f.retryCnt + 1 } else f
    let f := if step == 9 then { f with rebuiltCnt := f.rebuiltCnt + 1 } else f
    let f := if step == 10 then { f with unrecCnt := f.unrecCnt + 1, err := bput f.err 0 true } else f
    let s := { s with fls := f }
    let s := s.modCarrier (homeOf k) fun c => { c with pagesRead := c.pagesRead + 1 }
    let cls := if step == 1 then 0 else if step ≤ 6 then 1 else if step == 7 then 2 else if step == 8 then 3 else if step == 9 then 4 else 5
    let s := s.countErr cls
    if step == 10 then
      s.report { cls := 0x09, cause := 0, action := 2 * b2n degrades, part := keyPart k, kind := 6, unit := homeOf k, loc := keyPage k, tag := tag }
    else s

/-- Weak-page relocation (R399): a page that needed WEAK_STEP or higher moves into the cold stream, and its member block counts it. -/
def State.weakCheck (s : State) (k step : Nat) : State :=
  if step ≥ max 2 s.fls.weakStep.toNat && step ≤ 9 && s.media.map.get 0 k != 0 then
    match s.media.stripes.find? (fun e => e.1 == s.media.map.get 0 k) with
    | none => s
    | some e =>
      let mb := e.2.block * 8 + homeOf k
      let s := { s with media := { s.media with weak := s.media.weak.modify 0 mb (· + 1) } }
      (s.moveInto .cold none 9 [k]).countErr 11
  else s

/-- The stripe block that holds a page's current copy. -/
def State.blockOf (s : State) (k : Nat) : Option Nat := (s.media.stripes.find? (fun e => e.1 == s.media.map.get 0 k)).map (·.2.block)

/-- A programmed page comes by stripe rebuild: its carrier is missing (R432), or rebuilding and its block not rebuilt yet (R433). -/
def State.byRebuild (s : State) (k : Nat) : Bool :=
  let c := s.carrier (homeOf k)
  s.posMissing (homeOf k) && (c.state != .rebuilding || ((s.blockOf k).map c.todo.contains).getD true)

/-- The step at which a page is delivered when nothing else is known: 0 without a media read where it is staged or has no copy, rebuild
where its carrier is missing (R432), else the normal read. -/
def State.defaultStep (s : State) (k : Nat) : Nat :=
  match s.stagedPage k with
  | some _ => 0
  | none => if s.media.map.get 0 k == 0 then 0 else if s.byRebuild k then 9 else 1

end Sys2Proof.Machine
end

