-- ==== Sys2Proof/Machine/HostOps.lean ====
section
/-! DEFINITION. Sys2Proof/Machine/HostOps.lean: the operations of the host port's NVMe controller: fetching, completions, interrupts, the
answers of Execute Program, and clearing (R516–R537). Status codes and layouts that R521–R537 leave to NVMe 2.1 are PRESUMED
(assumption 30). -/
namespace Sys2Proof.Machine

/-- NVMe status values (status code type × 256 + status code): NVMe 2.1 (assumption 30). -/
def nvOk : Nat := 0x000
def nvBadOpcode : Nat := 0x001
def nvBadField : Nat := 0x002
def nvDataError : Nat := 0x004
def nvAborted : Nat := 0x007
def nvBadNs : Nat := 0x00B
def nvLbaRange : Nat := 0x080
def nvCqInvalid : Nat := 0x100
def nvQidInvalid : Nat := 0x101
def nvQSizeBad : Nat := 0x102
def nvAerLimit : Nat := 0x105
def nvVectorBad : Nat := 0x108
def nvBadLog : Nat := 0x109
def nvQDelete : Nat := 0x10C
def nvUnrecovered : Nat := 0x281
def nvNsWriteProt : Nat := 0x020

/-- Bytes of the refusal buffer (R148). -/
def refusalMax : Nat := 256

def State.modNvme (s : State) (f : Nvme → Nvme) : State := { s with host := { s.host with nvme := f s.host.nvme } }
def State.hostErr (s : State) (b : Nat) : State := { s with host := { s.host with err := bput s.host.err b true } }

def State.sq? (s : State) (q : Nat) : Option NvSq := s.host.nvme.sqs.find? (·.id == q)
def State.cq? (s : State) (q : Nat) : Option NvCq := s.host.nvme.cqs.find? (·.id == q)
def State.setSq (s : State) (v : NvSq) : State :=
  s.modNvme fun n => { n with sqs := n.sqs.map fun q => if q.id == v.id then v else q }
def State.setCq (s : State) (v : NvCq) : State :=
  s.modNvme fun n => { n with cqs := n.cqs.map fun q => if q.id == v.id then v else q }

/-- Byte `i` of the MSI-X table; the mask bit of each vector is 1 at reset (assumption 30), so it is stored inverted. -/
def HostBlk.msixByte (h : HostBlk) (i : Nat) : Byte :=
  let v := SMap.get h.msix 0 i
  if i % 16 == 12 then v ^^^ 1 else v

/-- The vector is masked. -/
def HostBlk.masked (h : HostBlk) (v : Nat) : Bool := (h.msixByte (16 * v + 12)).getLsbD 0

/-- Send a completion queue's interrupt message (R520, R537): none with MSI-X disabled, since INTA is then a level. -/
def State.fireIrq (s : State) (v : Nat) : State :=
  if !s.host.msixEnabled then s
  else if s.host.masked v then { s with host := { s.host with pba := insNat s.host.pba v } }
  else s.emit (.irq v)

/-- Interrupts stop in flush mode (R537, R627). -/
def State.irqStopped (s : State) : Bool := s.pwr.state == 2 || s.pwr.state == 3

/-- A completion queue gained an entry: interrupt at once, or coalesced (R537). -/
def State.cqIrq (s : State) (c : NvCq) : State :=
  if !c.ien || s.irqStopped then s
  else
    let f := s.host.nvme.feats
    let thr := bitsOf f.coalesce.toNat 7 0
    let time := bitsOf f.coalesce.toNat 15 8
    let cd := ((f.vectorCfg.get 0 c.vector).getLsbD 16)
    if c.id == 0 || thr == 0 || time == 0 || cd then s.fireIrq c.vector
    else if c.coalesced + 1 > thr then (s.setCq { c with coalesced := 0 }).fireIrq c.vector
    else s.setCq { c with coalesced := c.coalesced + 1 }

/-- Entries of a completion queue that the host has not consumed. -/
def NvCq.used (c : NvCq) : Nat := if c.size == 0 then 0 else (c.tail + c.size - c.head) % c.size

/-- Post a completion queue entry (R534) for a command of a submission queue. -/
def State.postCqe (s : State) (sq : Nat) (cid : BitVec 16) (dw0 dw1 status : Nat) : State :=
  match s.sq? sq with
  | none => s
  | some q =>
    match s.cq? q.cq with
    | none => s
    | some c =>
      let e := toLE 4 dw0 ++ toLE 4 dw1 ++ toLE 2 q.head ++ toLE 2 sq ++ toLE 2 cid.toNat ++ toLE 2 (status * 2 + b2n c.phase)
      let s := s.emit (.hostWrite (c.base + 16 * c.tail) e)
      let t := c.tail + 1
      let c := if t ≥ c.size then { c with tail := 0, phase := !c.phase } else { c with tail := t }
      (s.setCq c).cqIrq c

/-- All fetched commands have completed while a shutdown is asked for: it is complete (R525). -/
def State.shutCheck (s : State) : State :=
  if s.host.nvme.shst == 1 && s.host.nvme.cmds.isEmpty then s.modNvme fun n => { n with shst := 2 } else s

/-- Complete a fetched command: its entry leaves the list of commands not completed. -/
def State.nvmeDone (s : State) (sq : Nat) (cid : BitVec 16) (dw0 dw1 status : Nat) : State :=
  let s := s.modNvme fun n => { n with cmds := n.cmds.filter fun c => !(c.sq == sq && c.cid == cid) }
  (s.postCqe sq cid dw0 dw1 status).shutCheck

/-- Queues whose tail doorbells show work. -/
def State.workSqs (s : State) : List Nat := (s.host.nvme.sqs.filter fun q => q.head != q.tail).map (·.id)

/-- The queue that round-robin takes next (R524): the lowest above the one taken last, else the lowest. -/
def State.nextSq (s : State) : Option Nat :=
  let w := s.workSqs
  let least (l : List Nat) : Option Nat := l.foldl (fun b x => match b with | none => some x | some y => some (min x y)) none
  match least (w.filter (· > s.host.nvme.lastSq)) with
  | some q => some q
  | none => least w

/-- The port may fetch (R524, R525, R627): the controller is ready, no shutdown, no flush, room for the command, the refusal buffer not
full, and a free slot in the completion queue. -/
def State.mayFetch (s : State) (q : NvSq) : Bool :=
  s.host.nvme.rdy && !s.host.nvme.cfs && s.host.nvme.shst == 0 && !s.host.d3 && s.host.speed != 0 && s.pwr.state.toNat < 2 &&
  s.host.nvme.cmds.length < 8192 && s.disp.fill.toNat < refusalMax &&
  match s.cq? q.cq with
  | some c =>
    let busy := (s.host.nvme.cmds.filter fun k => (s.host.nvme.sqs.find? (·.id == k.sq)).map (·.cq) == some c.id).length
    c.used + busy + 1 < c.size
  | none => false

/-- Fetch the next entry of a submission queue, when it is that queue's turn. -/
def State.fetch (s : State) (sq : Nat) : Option State :=
  match s.sq? sq with
  | none => none
  | some q =>
    if s.nextSq == some sq && s.mayFetch q then
      some ((s.setSq { q with head := (q.head + 1) % max 1 q.size }).modNvme fun n => { n with lastSq := sq })
    else none

/-- Report an asynchronous event (R523) to an outstanding request, or keep it for the next one. -/
def State.asyncEvent (s : State) (dw : BitVec 32) : State :=
  match s.host.nvme.aers with
  | cid :: rest =>
    let s := s.modNvme fun n => { n with aers := rest }
    s.nvmeDone 0 cid dw.toNat 0 nvOk
  | [] => s.modNvme fun n => { n with events := n.events ++ [dw] }

/-- Namespace Attribute Changed for a namespace (R418, R527). -/
def State.nsChanged (s : State) (nsid : Nat) : State :=
  let s := s.modNvme fun n => { n with changedNs := insNat n.changedNs nsid }
  if s.host.nvme.feats.asyncCfg.getLsbD 8 && s.host.nvme.rdy then s.asyncEvent 0x00040002 else s

/-- The answers of the controller's requests are discarded (R524): those of one queue, or of all. -/
def State.discardNvme (s : State) (sq : Option Nat) : State :=
  let hit (x : Source) : Bool := match x with | .nvme q _ => sq.isNone || sq == some q.toNat | _ => false
  let gone := (s.req.refusals.filter fun r => hit r.src).length
  { s with req := { s.req with reqs := s.req.reqs.map fun r => if hit r.src then { r with discard := true } else r,
                               held := s.req.held.map fun r => if hit r.src then { r with discard := true } else r,
                               relays := s.req.relays.filter fun r => !hit r.src,
                               stalled := s.req.stalled.filter fun r => !hit r.src,
                               refusals := s.req.refusals.filter fun r => !hit r.src },
           disp := { s.disp with fill := s.disp.fill - BitVec.ofNat 9 gone } }

/-- Clear the NVMe controller (R517, R524). A clear by CC.EN keeps the admin queue registers (assumption 30). -/
def State.clearNvme (s : State) (keepAdmin : Bool) : State :=
  let n := s.host.nvme
  let s := s.discardNvme none
  s.modNvme fun _ => if keepAdmin then { aqa := n.aqa, asq := n.asq, acq := n.acq, cc := n.cc &&& 0xFFFFFFFE } else {}

/-- The controller becomes ready while an image runs (R522). -/
def State.nvmeReady (s : State) : State :=
  let n := s.host.nvme
  if n.cc.getLsbD 0 && !n.rdy && s.grist.state == .running then
    let sz := bitsOf n.aqa.toNat 11 0 + 1
    let cz := bitsOf n.aqa.toNat 27 16 + 1
    s.modNvme fun n => { n with rdy := true, sqs := [{ id := 0, cq := 0, size := sz, base := n.asq.toNat }],
                                cqs := [{ id := 0, size := cz, base := n.acq.toNat, ien := true, vector := 0 }] }
  else s

/-- Write an answer into its answer region and complete its Execute Program (R532–R534). -/
def State.nvmeAnswer (s : State) (sq cid : BitVec 16) (a : Bytes) : State :=
  match s.host.nvme.cmds.find? (fun c => c.sq == sq.toNat && c.cid == cid) with
  | none => s
  | some c =>
    let s := { s with nvmMem := s.nvmMem.write c.answerAt a, host := { s.host with execCnt := s.host.execCnt + 1 } }
    s.nvmeDone sq.toNat cid (fieldAt a 2 1 + 256 * fieldAt a 3 1 + 65536 * fieldAt a 0x2C 2) (fieldAt a 4 4) nvOk

end Sys2Proof.Machine
end

