-- ==== Sys2Proof/Machine/Predicate.lean ====
section
/-! DEFINITION. Sys2Proof/Machine/Predicate.lean: filter predicates: their check at admission and their evaluation on a record (R139–R144). -/
namespace Sys2Proof.Machine
open Fmt (fp32)

/-- The 16-byte terms of a predicate (R141). -/
def terms : Nat → Bytes → List Bytes
  | 0, _ => []
  | n + 1, b => if b.isEmpty then [] else b.take 16 :: terms n (b.drop 16)

/-- Width in bytes of a field type (R140); for TAGS the width that R144 counts. -/
def fieldWidth (t : Nat) : Nat := match t with | 0 | 4 => 1 | 1 | 5 => 2 | 2 | 6 => 4 | 3 | 7 => 8 | _ => 4

/-- The pair of op and type that R142 lists for a comparing term. -/
def comparing (op t : Nat) : Bool :=
  (1 ≤ op && op ≤ 6 && t ≤ 8) || ((op == 7 || op == 8) && t ≤ 3) || (op == 9 && t == 9)

/-- The operand is in the form R141 gives for the type: a NaN is refused for FP32 (R144). -/
def operandOk (op t : Nat) (v : Bytes) : Bool :=
  if op ≥ 0x10 then allZero (slice v 8 8)
  else if t == 8 then allZero (slice v 12 4) && !fisNan fp32 (fieldAt v 8 4)
  else if t == 9 then allZero (slice v 12 4)
  else true

/-- One term's check: the stack depth after it, or none where R144 refuses. -/
def checkTerm (attr : Nat) (depth : Nat) (v : Bytes) : Option Nat :=
  let op := fieldAt v 0 1
  let t := fieldAt v 1 1
  let o := fieldAt v 2 2
  if fieldAt v 4 4 != 0 || !operandOk op t v then none
  else if comparing op t then
    if o + fieldWidth t > attr || depth ≥ 16 then none else some (depth + 1)
  else if t != 0 || o != 0 then none
  else match op with
    | 0x10 | 0x11 => if depth < 2 then none else some (depth - 1)
    | 0x12 => if depth < 1 then none else some depth
    | 0x13 => if depth ≥ 16 then none else some (depth + 1)
    | _ => none

/-- The check of a whole predicate (R144): an empty one is valid. -/
def predicateOk (attr : Nat) (p : Bytes) : Bool :=
  p.length % 16 == 0 && p.length ≤ 1024 &&
    (p.isEmpty || (terms 64 p).foldl (fun d v => match d with | some n => checkTerm attr n v | none => none) (some 0) == some 1)

/-- The number that a field of the attributes holds: bytes at or beyond the attribute length read 0 (R139). -/
def attrNum (a : Bytes) (o n : Nat) : Nat := fieldAt a o n

/-- Compare two values by op (R142). -/
def compareOp (op : Nat) (lt eq : Bool) : Bool :=
  match op with
  | 1 => eq | 2 => !eq | 3 => lt | 4 => lt || eq | 5 => !(lt || eq) | _ => !lt

/-- The truth value that a comparing term pushes (R143). -/
def termValue (a : Bytes) (v : Bytes) : Bool :=
  let op := fieldAt v 0 1
  let t := fieldAt v 1 1
  let o := fieldAt v 2 2
  let w := fieldWidth t
  if t == 8 then
    let x := attrNum a o 4
    let y := fieldAt v 8 4
    if fisNan fp32 x || fisNan fp32 y then op == 2
    else
      let eq := feqV (fdecode fp32 x) (fdecode fp32 y)
      match op with
      | 1 => eq | 2 => !eq | 3 => flt fp32 x y | 4 => flt fp32 x y || eq | 5 => flt fp32 y x | _ => flt fp32 y x || eq
  else if t == 9 then
    let n := attrNum a o 1
    let tag := fieldAt v 8 4
    (List.range n).any fun i => o + 4 + 4 * i + 4 ≤ a.length && attrNum a (o + 4 + 4 * i) 4 == tag
  else if t ≤ 3 then
    let x := attrNum a o w
    let y := fieldAt v 8 8
    if op == 7 then (x &&& y) != 0
    else if op == 8 then (x &&& y) == y
    else compareOp op (x < y) (x == y)
  else
    let x := signedOf (8 * w) (attrNum a o w)
    let y := signedOf 64 (fieldAt v 8 8)
    compareOp op (x < y) (x == y)

/-- Push onto a stack of at most 16 values: the bottom value of a full stack goes (R143). Top first. -/
def push16 (st : List Bool) (b : Bool) : List Bool := (b :: st).take 16

/-- Evaluate one term (R143): what a predicate that R144 never checked does is in its additions. -/
def evalTerm (a : Bytes) (st : List Bool) (v : Bytes) : List Bool :=
  let op := fieldAt v 0 1
  let t := fieldAt v 1 1
  if comparing op t then push16 st (termValue a v)
  else if op == 0x10 && t == 0 then push16 (st.drop 2) ((st.headD false) && ((st.drop 1).headD false))
  else if op == 0x11 && t == 0 then push16 (st.drop 2) ((st.headD false) || ((st.drop 1).headD false))
  else if op == 0x12 && t == 0 then push16 (st.drop 1) (!(st.headD false))
  else if op == 0x13 && t == 0 then push16 st true
  else push16 st false

/-- A record with these attributes passes a predicate (R143); an empty predicate passes every record (R135). -/
def passes (p a : Bytes) : Bool := p.isEmpty || (terms (ceilDiv p.length 16) p).foldl (evalTerm a) [] == [true]

end Sys2Proof.Machine
end

