-- ==== Sys2Proof/Machine/Queues.lean ====
section
/-! DEFINITION. Sys2Proof/Machine/Queues.lean: the queues of the grist image: their storage, posting, taking and releasing (R56, R57,
R252–R256). -/
namespace Sys2Proof.Machine

/-- The queue of a partition by its id. -/
def Part.queueDef? (p : Part) (id : Nat) : Option QueueDef := p.queues.find? (·.id == id)

/-- Entries of a queue, and bytes of an entry. -/
def QueueDef.size (q : QueueDef) : Nat := 2 ^ q.depth
def QueueDef.bytes (q : QueueDef) : Nat := 2 ^ q.esize

/-- The address of a queue slot in the form of R241. -/
def QueueDef.slotAddr (q : QueueDef) (slot : Nat) : Nat :=
  if q.home == 0xFF then 0x100000000000 + q.off + slot * q.bytes else 0x10000000 + q.home * 0x400000 + q.off + slot * q.bytes

/-- The run state of a queue. -/
def State.queue (s : State) (p id : Nat) : QState := s.queues.get QState.reset (p * 65536 + id)
def State.setQueue (s : State) (p id : Nat) (v : QState) : State :=
  { s with queues := s.queues.set QState.reset (p * 65536 + id) v }
def State.modQueue (s : State) (p id : Nat) (f : QState → QState) : State := s.setQueue p id (f (s.queue p id))

/-- Read the storage of a queue's slot. -/
def State.slotRead (s : State) (p : Part) (q : QueueDef) (slot : Nat) : Bytes :=
  if q.home == 0xFF then s.pmRead p (q.off + slot * q.bytes) q.bytes else s.locRead (.tile q.home (q.off + slot * q.bytes)) q.bytes

/-- Write bytes at the start of a queue's slot. -/
def State.slotWrite (s : State) (p : Part) (q : QueueDef) (slot : Nat) (b : Bytes) : State :=
  if q.home == 0xFF then s.pmWrite p (q.off + slot * q.bytes) b else s.locWrite (.tile q.home (q.off + slot * q.bytes)) b

/-- The lowest slot below `n` that no entry holds (assumption 21). -/
def freeSlot (used : List Nat) (n : Nat) : Option Nat := (List.range n).find? (!used.contains ·)

/-- No further entry fits: entries in place and reserved ones fill the depth. -/
def State.queueFull (s : State) (p : Nat) (q : QueueDef) : Bool :=
  (s.queue p q.id).entries.length + (s.queue p q.id).reserved ≥ q.size

/-- The fill level has reached the high-water mark (R56, R146 step 12). -/
def State.aboveHigh (s : State) (p : Nat) (q : QueueDef) : Bool := (s.queue p q.id).entries.length * 100 ≥ q.high * q.size

/-- Post an entry: copy its bytes into a free slot (R253). A full queue takes nothing. -/
def State.post (s : State) (p : Part) (q : QueueDef) (b : Bytes) (tag : BitVec 9) (req : Option Nat) (std : Option StdWork)
    (atHead : Bool := false) : State :=
  let qs := s.queue p.num q.id
  match freeSlot (qs.entries.map (·.slot)) q.size with
  | none => s
  | some n =>
    let e : QEntry := { slot := n, tag := tag, req := req, std := std }
    (s.slotWrite p q n (b.take q.bytes)).setQueue p.num q.id
      { qs with entries := if atHead then e :: qs.entries else qs.entries ++ [e] }

/-- The oldest untaken entry. -/
def QState.oldest (q : QState) : Option QEntry := q.entries.find? (!·.taken)

/-- Mark an entry taken. -/
def QState.take (q : QState) (slot : Nat) : QState :=
  { q with entries := q.entries.map fun e => if e.slot == slot then { e with taken := true } else e }

/-- Free a slot. -/
def QState.release (q : QState) (slot : Nat) : QState := { q with entries := q.entries.filter (·.slot != slot) }

/-- A unit takes the oldest entry of its queue: the slot is free at once (R56). -/
def State.unitTake (s : State) (p : Part) (q : QueueDef) : Option (QEntry × Bytes × State) :=
  match (s.queue p.num q.id).oldest with
  | none => none
  | some e => some (e, s.slotRead p q e.slot, s.modQueue p.num q.id (·.release e.slot))

/-- Remove the entry of a request from a queue. -/
def State.unqueue (s : State) (p id req : Nat) : State :=
  s.modQueue p id fun q => { q with entries := q.entries.filter fun e => !(e.req == some req) }

/-- The queue of a kind that a partition defines first, in order. -/
def Part.queueOfKind (p : Part) (k : Nat) : Option QueueDef := p.queues.find? (·.kind == k)

end Sys2Proof.Machine
end

