-- ==== Sys2Proof/Machine/Requests.lean ====
section
/-! DEFINITION. Sys2Proof/Machine/Requests.lean: the dispatcher: the request header, the admission checks, refusals, answers and their sending
(R133–R138, R146–R155, R168, R170, R415, R474–R479, R491–R493). -/
namespace Sys2Proof.Machine

/-! ### The header (R133) -/

def rqKind (d : Bytes) : Nat := fieldAt d 0 1
def rqSvc (d : Bytes) : Nat := fieldAt d 2 1
def rqTenant (d : Bytes) : Nat := fieldAt d 3 1
def rqLen (d : Bytes) : Nat := fieldAt d 4 4
def rqTag (d : Bytes) : Nat := fieldAt d 8 8
def rqStamp (d : Bytes) : Stamp := stampAt d 0x10
def rqEpoch (d : Bytes) : Nat := fieldAt d 0x1C 4
def rqBudget (d : Bytes) : Nat := fieldAt d 0x20 4
def rqReply (d : Bytes) : Nat := if d.length < 0x26 then 0xFFFF else fieldAt d 0x24 2
def rqFlags (d : Bytes) : Nat := fieldAt d 0x26 2
def rqLocal (d : Bytes) : Bool := (rqFlags d).testBit 0
def rqRedirect (d : Bytes) : Bool := (rqFlags d).testBit 1
def rqForwarded (d : Bytes) : Bool := (rqFlags d).testBit 2
/-- The vector id of an update or an upsert of a passage. -/
def rqVid (d : Bytes) : Nat := fieldAt d 0x48 6
/-- An embed request with the upsert option. -/
def rqUpsert (d : Bytes) : Bool := rqKind d == 6 && (fieldAt d 0x41 1).testBit 0

/-- Request kinds that a sender outside the node may use. -/
def isRequestKind (k : Nat) : Bool := (1 ≤ k && k ≤ 6) || k == 0x10 || k == 0x11
def isQueryKind (k : Nat) : Bool := k == 1 || k == 2

/-- Status codes (R154). -/
def stOk : Nat := 0x00
def stPartial : Nat := 0x01
def stNotFound : Nat := 0x02
def stRedirect : Nat := 0x10
def stReloading : Nat := 0x11
def stBusy : Nat := 0x12
def stStale : Nat := 0x13
def stFuture : Nat := 0x14
def stIndexFull : Nat := 0x15
def stBadFormat : Nat := 0x20
def stTooLong : Nat := 0x21
def stNotBound : Nat := 0x22
def stBadKind : Nat := 0x23
def stBadIndex : Nat := 0x24
def stBadLimit : Nat := 0x25
def stBadValue : Nat := 0x26
def stBadFilter : Nat := 0x27
def stFailed : Nat := 0x30
def stDegraded : Nat := 0x31
def stUnavailable : Nat := 0x32

/-! ### Answers (R151–R153) -/

/-- The fields of an answer header that differ from the values for none. -/
structure Ans where
  status : Nat
  flags : Nat := 0
  stamp : Stamp
  count : Nat := 0
  entries : Nat := 0
  ties : Nat := 0
  dups : Nat := 0
  skipped : Nat := 0
  filtered : Nat := 0
  leaves : Nat := 0
  missing : Nat := 0
  selSum : Nat := 0
  leftSum : Nat := 0
  usedUs : Nat := 0
  redirect : Nat := 0xFFFF
  unread : Nat := 0
  body : Bytes := []
  deriving DecidableEq, Repr

/-- The bytes of an answer to a request (R151). -/
def Ans.bytes (a : Ans) (rq : Bytes) (epoch : Nat) : Bytes :=
  [0x81, 1] ++ toLE 1 a.status ++ toLE 1 a.flags ++ toLE 4 (96 + alignUp a.body.length 8) ++ toLE 8 (rqTag rq) ++ (rqStamp rq).bytes ++
    toLE 4 epoch ++ a.stamp.bytes ++ toLE 2 a.count ++ toLE 2 a.entries ++ toLE 2 (min a.ties 65535) ++ toLE 2 (min a.dups 65535) ++
    toLE 4 a.skipped ++ toLE 4 a.filtered ++ toLE 2 (min a.leaves 65535) ++ toLE 2 a.missing ++ toLE 8 a.selSum ++ toLE 8 a.leftSum ++
    toLE 4 a.usedUs ++ toLE 2 a.redirect ++ toLE 2 (min a.unread 65535) ++ zeros 8 ++ pad8 a.body

/-- Send answer bytes to where a request's answer goes (R133, R168, R493): the NVMe answer buffer, or the reply node. -/
def State.sendAnswer (s : State) (src : Source) (rq a : Bytes) (note : Nat) : State :=
  match src with
  | .nvme sq cid => s.nvmeAnswer sq cid a
  | .fabric ch node _ tenant mac =>
    let r := rqReply rq
    let dest := if r == 0xFFFF then node.toNat else r
    s.sendMsg { dest := dest, cls := 0, tenant := tenant.toNat, note := note, set := tenant.toNat, back := some (ch.val, mac) } a

/-! ### Replay (R611–R613) -/

/-- An answer or acknowledgement is formed: its OUTPUT record (R607), compared with the recorded one in a replay (R613). -/
def State.output (s : State) (part : Nat) (a : Bytes) : State :=
  let body := slice a 8 8 ++ slice a 0x20 12 ++ slice a 2 1 ++ zeros 3 ++ toLE 4 (crc32c (patch a 0x50 (zeros 4))) ++ zeros 4
  if s.replaying part then
    match s.cask.todo.find? fun r => r.typ == 9 && r.part == part && r.body.take 8 == body.take 8 with
    | some r => if r.body.take 32 == body.take 32 then s.consume r else s.diverge (some r)
    | none => s.diverge none
  else s.caskRec 0x09 part 0xFFFF body

/-! ### Refusals (R148) -/

/-- Put a refusal into the refusal buffer, or where the buffer is full stop its sender or drop it. -/
def State.refuse (s : State) (src : Source) (d : Bytes) (status : Nat) (redirect : Nat := 0xFFFF) (units colour acct : Nat := 0) : State :=
  if s.disp.fill.toNat ≥ refusalMax then
    match src with
    | .fabric ch .. =>
      if (s.chan ch.val).eth then { s with disp := { s.disp with dropCnt := s.disp.dropCnt + 1 } }
      else { s with req := { s.req with stalled := s.req.stalled ++ [⟨src, d, units, colour, acct⟩] } }
    | .nvme .. => { s with req := { s.req with stalled := s.req.stalled ++ [⟨src, d, 0, 0, 0⟩] } }
  else
    let (st, s) := s.stampOrZero
    let a := (({ status := status, stamp := st, redirect := redirect } : Ans)).bytes d s.epoch
    let f := s.disp.fill + 1
    let s := { s with disp := { s.disp with refuseCnt := s.disp.refuseCnt + 1, fill := f, max := if f.toNat > s.disp.max.toNat then f else s.disp.max,
                                            lastStatus := BitVec.ofNat 8 status, lastTenant := BitVec.ofNat 8 (rqTenant d),
                                            lastService := BitVec.ofNat 6 (rqSvc d) },
                      req := { s.req with refusals := s.req.refusals ++ [⟨src, a⟩] } }
    match src with
    | .fabric .. => s.sendAnswer src d a 1
    | .nvme .. => s

/-! ### Admission (R146) -/

/-- Step 1 (R133, R454): kind, version, length, reserved header fields, and on a fabric channel the class and the frame tenant. -/
def formatOk (src : Source) (d : Bytes) : Bool :=
  let k := rqKind d
  isRequestKind k && fieldAt d 1 1 == 1 && 64 ≤ rqLen d && rqLen d ≤ 65536 && rqLen d % 8 == 0 && rqLen d == d.length &&
    rqFlags d < 8 && allZero (slice d 0x28 24) &&
    match src with
    | .fabric _ _ cls tenant _ => (cls.val == 1 || cls.val == (if isUpdateKind k then 3 else 2)) && tenant.toNat == rqTenant d
    | .nvme .. => true

/-- Path number of an INPUT record (R607). -/
def sourcePath : Source → Nat × Nat
  | .fabric ch .. => (0, ch.val)
  | .nvme sq _ => (1, sq.toNat)

/-- Record an INPUT of a partition (R149, R607). -/
def State.caskInput (s : State) (part : Nat) (src : Source) (colour status ta : Nat) (d : Bytes) : State :=
  let (path, ch) := sourcePath src
  s.caskRec 0x02 part 0xFFFF (toLE 1 path ++ toLE 1 colour ++ toLE 1 status ++ [0] ++ toLE 2 ch ++ zeros 2 ++ toLE 8 ta ++ d)

/-- Record a message of another node to a partition, other than a request, as its INPUT (R199, R607, R608). -/
def State.caskMessage (s : State) (part ch : Nat) (d : Bytes) : State :=
  s.caskRec 0x02 part 0xFFFF (zeros 4 ++ toLE 2 ch ++ zeros 2 ++ toLE 8 s.rack ++ d)

/-- The binding of a tenant to a service, with its partition (R59). -/
def State.binding (s : State) (tenant svc : Nat) : Option (Part × Binding) :=
  s.grist.parts.findSome? fun p => (p.tenants.find? fun b => b.tenant == tenant && b.service == svc).map fun b => (p, b)

def Part.service? (p : Part) (i : Nat) : Option Service := p.services.find? (·.index == i)

/-- The rights a request needs (R134, R415). -/
def rightsHeld (r : BitVec 4) (src : Source) (d : Bytes) : Bool :=
  let k := rqKind d
  (if isUpdateKind k then r.getLsbD 1 else r.getLsbD 0) && (!rqUpsert d || r.getLsbD 1) &&
    match src with | .nvme .. => r.getLsbD 2 | .fabric .. => r.getLsbD 3

/-- The service takes the kind (R134). -/
def Service.takes (v : Service) (k : Nat) : Bool :=
  match k with
  | 1 => v.kind == 0
  | 2 => v.kind == 0 && v.stages.any (·.code == 1)
  | 3 | 4 | 5 => (v.kind == 0 && v.updQ != 0xFFFF) || v.kind == 1
  | 6 => v.kind == 2
  | _ => v.kind == 3

/-- The queue a request goes to. -/
def Service.queueFor (v : Service) (k : Nat) : Nat := if isUpdateKind k then v.updQ else v.reqQ

/-- Requests of a binding admitted and not answered (R58, R147). -/
def State.inFlight (s : State) (tenant svc : Nat) : Nat := (s.req.reqs.filter fun r => r.tenant == tenant && r.svc == svc).length

/-- The elements of a request's vector. -/
def reqElems (t o n : Nat) (d : Bytes) : List Nat := elemsOf t (slice d o (n * elemSize t)) n

/-- Steps 8 to 11 for a query (R135). -/
def bodyQuery (x : Desc) (v : Service) (d : Bytes) : Nat :=
  let k := rqKind d
  let dist := fieldAt d 0x41 1
  let kk := fieldAt d 0x42 2
  let beam := fieldAt d 0x44 2
  let wide := fieldAt d 0x46 2
  let res := fieldAt d 0x4A 2
  let cnt := fieldAt d 0x50 2
  let pl := fieldAt d 0x52 2
  let cl := fieldAt d 0x54 2
  let eff := if beam == 0 then v.beam else beam
  let z := if k == 1 then elemSize x.etype else 4
  if fieldAt d 0x56 2 != 0 || fieldAt d 0x4F 1 > 1 || dist > 2 || !x.kinds.testBit dist || !v.dist.getLsbD dist then stBadIndex
  else if (k == 1 && (fieldAt d 0x4E 1 != x.etype || cnt != x.dim)) || (k == 2 && fieldAt d 0x4E 1 != 0) then stBadIndex
  else if kk == 0 || kk > v.maxK || beam > v.beam || (wide != 0 && (wide < eff || wide > v.widen)) || fieldAt d 0x48 2 > 256 ||
      (res != 0 && (res < kk || res > 4096)) || fieldAt d 0x4C 2 > 256 || cl % 8 != 0 || cl > 512 || (k == 2 && (cnt == 0 || cnt > 512)) ||
      0x58 + pl + cl + cnt * z > rqLen d then stBadLimit
  else if !predicateOk x.attrSize (slice d 0x58 pl) then stBadFilter
  else if k == 1 && (reqElems x.etype (0x58 + pl + cl) x.dim d).any (elemBad x.etype) then stBadValue
  else stOk

/-- Steps 8 to 11 for an update (R137). -/
def bodyUpdate (x : Desc) (d : Bytes) : Nat :=
  let adds := rqKind d != 5
  let cnt := fieldAt d 0x42 2
  let al := fieldAt d 0x44 2
  if fieldAt d 0x46 2 != 0 || fieldAt d 0x4E 2 != 0 then stBadIndex
  else if adds && (fieldAt d 0x41 1 != x.etype || cnt != x.dim || al > x.attrSize) then stBadIndex
  else if !adds && (fieldAt d 0x41 1 != 0 || cnt != 0 || al != 0) then stBadIndex
  else if 0x50 + cnt * elemSize x.etype + al > rqLen d then stBadLimit
  else
    let es := reqElems x.etype 0x50 x.dim d
    if rqVid d == 0xFFFFFFFFFFFF then stBadValue
    else if adds && (es.any (elemBad x.etype) || (x.kinds == 2 && es.all (elemZero x.etype))) then stBadValue
    else stOk

/-- Steps 8 to 11 for an embed request (R138); `x` is the index of an upsert. -/
def bodyEmbed (x : Option Desc) (d : Bytes) : Nat :=
  let ups := rqUpsert d
  let cnt := fieldAt d 0x42 2
  let al := fieldAt d 0x44 2
  if fieldAt d 0x41 1 > 1 || fieldAt d 0x46 2 != 0 || fieldAt d 0x4E 2 != 0 then stBadIndex
  else if !ups && (fieldAt d 0x40 1 != 0 || al != 0 || rqVid d != 0) then stBadIndex
  else if ups && (match x with | some i => al > i.attrSize | none => true) then stBadIndex
  else if cnt == 0 || cnt > 512 || 0x50 + 4 * cnt + al > rqLen d then stBadLimit
  else if ups && rqVid d == 0xFFFFFFFFFFFF then stBadValue
  else stOk

/-- Bytes of a filter answer with `n` entries (R417). -/
def filterBytes (recSize opts n : Nat) : Nat := alignUp (0x68 + n * (if opts % 4 == 1 then 8 else recSize)) 8

/-- Steps 8 to 11 for a storage filter request (R415, R417); `cap` is the entry size of the answer queue. -/
def bodyFilter (p : Part) (cap : Nat) (d : Bytes) : Nat :=
  let cnt := rqKind d == 0x11
  let rs := fieldAt d 0x42 2
  let o := fieldAt d 0x44 1
  let page := fieldAt d 0x48 5
  let n := fieldAt d 0x50 4
  let mx := fieldAt d 0x54 4
  match p.flashExt (fieldAt d 0x40 2) with
  | none => stBadIndex
  | some e =>
    if !e.nvme || o ≥ 8 || fieldAt d 0x45 1 != 0 then stBadIndex
    else if rs < 16 || rs > 16384 || rs % 16 != 0 || o % 4 > 1 || (cnt && o % 4 != 0) || fieldAt d 0x4F 1 != 0 || n == 0 ||
        page + n > extPages e.sizeGB || (if cnt then mx != 0 else mx == 0) || 0x58 + fieldAt d 0x46 2 > rqLen d ||
        (!cnt && filterBytes rs o mx > cap) then stBadLimit
    else if !predicateOk rs (slice d 0x58 (fieldAt d 0x46 2)) then stBadFilter
    else stOk

/-- Steps 8 to 11 (R146). -/
def State.bodyCheck (s : State) (p : Part) (v : Service) (d : Bytes) : Nat × State :=
  let k := rqKind d
  if k == 0x10 || k == 0x11 then
    (bodyFilter p ((p.queueDef? v.ansQ).elim 0 (·.bytes)) d, s)
  else if k == 6 && !rqUpsert d then (bodyEmbed none d, s)
  else
    let (x, s) := s.useIndex p (fieldAt d 0x40 1)
    match x with
    | none => (stBadIndex, s)
    | some x => (if isQueryKind k then bodyQuery x v d else if k == 6 then bodyEmbed (some x) d else bodyUpdate x d, s)

/-- The effective budget in ns (R170). -/
def Service.budgetNs (v : Service) (d : Bytes) : Nat :=
  let b := if rqBudget d == 0 then v.defBudget else rqBudget d
  max 50 (min b v.ceiling) * 1000

/-- Cut time of a deadline (R170). -/
def cutOf (td : Nat) : Nat := td - 20000

/-- A partition owns a flash extent. -/
def Part.ownsFlash (p : Part) : Bool := !p.flash.isEmpty

/-- Put an admitted request into its queue. -/
def State.enqueueReq (s : State) (p : Part) (r : Req) (atHead : Bool := false) : State :=
  match p.queueDef? r.queue with
  | none => s
  | some q => s.post p q r.data (BitVec.ofNat 9 r.tenant) (some r.id) none atHead

/-- Change a request's record. -/
def State.modReq (s : State) (id : Nat) (f : Req → Req) : State :=
  { s with req := { s.req with reqs := s.req.reqs.map fun r => if r.id == id then f r else r } }
def State.req? (s : State) (id : Nat) : Option Req := s.req.reqs.find? (·.id == id)

/-- Steps 3 to 12 of R146: the status of the first check that fails with the partition where one was found, or 0. -/
def State.checks (s : State) (src : Source) (d : Bytes) : Nat × Option (Part × Binding × Service × QueueDef) × State :=
  match s.binding (rqTenant d) (rqSvc d) with
  | none => (stNotBound, none, s)
  | some (p, b) =>
    match p.service? (rqSvc d) with
    | none => (stNotBound, none, s)
    | some v =>
      if !rightsHeld b.rights src d then (stNotBound, none, s)
      else if !v.takes (rqKind d) then (stBadKind, none, s)
      else
        let k := rqKind d
        match p.queueDef? (v.queueFor k) with
        | none => (stBadKind, none, s)
        | some q =>
          let full := some (p, b, v, q)
          match s.pstate p.num with
          | .reloading => (stReloading, full, s)
          | .absent | .failed => (stUnavailable, full, s)
          | .running =>
            if (s.cask.state == 4 && s.cask.capParts.toNat.testBit p.num) then (stUnavailable, full, s)
            else if !s.grist.admitting || !s.canStamp || (s.cask.state == 1 && s.cask.capParts.toNat.testBit p.num) then (stReloading, full, s)
            else if (isUpdateKind k || rqUpsert d) && p.ownsFlash && s.fls.state == .readOnly then (stUnavailable, full, s)
            else if rqLen d > q.bytes then (stTooLong, full, s)
            else
              let st := (rqStamp d).time.toNat
              if st + 50000000 < s.rack then (stStale, full, s)
              else if st > s.rack + 1000000 then (stFuture, full, s)
              else
                let (e, s) := s.bodyCheck p v d
                if e != 0 then (e, full, s)
                else if s.inFlight (rqTenant d) (rqSvc d) ≥ b.limit || s.aboveHigh p.num q then (stBusy, full, s)
                else (0, full, s)

/-- A request is admitted at `ta` (R147, R150, R151): its record, its answer entry, and its queue, unless its stamp lies ahead. -/
def State.enrol (s : State) (src : Source) (d : Bytes) (p : Part) (v : Service) (q : QueueDef) (ta t0 : Nat) (discard : Bool) (colour : Nat) : State :=
  let hold := isQueryKind (rqKind d) && (rqStamp d).time.toNat ≥ s.rack
  let r : Req := { id := s.req.next, src := src, data := d, part := p.num, svc := v.index, tenant := rqTenant d, queue := q.id, ansQ := v.ansQ,
                   ta := ta, td := t0 + v.budgetNs d, place := if hold then .hold else .queued, discard := discard }
  let s := { s with req := { s.req with next := s.req.next + 1, reqs := s.req.reqs ++ [r] },
                    disp := { s.disp with admitCnt := s.disp.admitCnt + 1 } }
  let s := s.modQueue p.num v.ansQ fun a => { a with reserved := a.reserved + 1 }
  let s := s.caskInput p.num src colour 0 ta d
  if hold then s else s.enqueueReq p r

/-- Step 2 passes: the rest of admission (R146 steps 3–12, R147, R150, R170). The budget runs from `t0`, the rack time of the first step 2. -/
def State.admit3 (s : State) (src : Source) (d : Bytes) (discard : Bool) (t0 units colour acct : Nat) : State :=
  match s.checks src d with
  | (0, some (p, _, v, q), s) => s.enrol src d p v q s.rack t0 discard colour
  | (e, full, s) =>
    let s := match full with | some (p, _) => s.caskInput p.num src colour e s.rack d | none => s
    if discard then s else s.refuse src d e 0xFFFF units colour acct

/-- Send a request on to the node that a redirect would name (R493), keeping a reply record where its sender is no node of the map. -/
def State.forward (s : State) (src : Source) (d : Bytes) (dest : Nat) : State :=
  let fl := rqFlags d + 4
  let d1 := patch d 0x26 (toLE 2 fl)
  let (d2, relay) := match src with
    | .fabric _ node .. =>
      if rqReply d != 0xFFFF then (d1, false)
      else if s.mapLists node.toNat then (patch d1 0x24 (toLE 2 node.toNat), false)
      else (d1, true)
    | .nvme .. => (d1, true)
  let s := if relay then { s with req := { s.req with relays := s.req.relays ++ [⟨BitVec.ofNat 64 (rqTag d), rqStamp d, src⟩] } } else s
  let s := { s with disp := { s.disp with fwdCnt := s.disp.fwdCnt + 1 } }
  s.sendMsg { dest := dest, cls := 1, tenant := rqTenant d, set := rqTenant d } d2

/-- Step 2 of R146 (R491–R493, R500), then the rest. `rack` and `since` are the times of the request's first step 2. -/
def State.admit2 (s : State) (src : Source) (d : Bytes) (discard : Bool) (rack since : Nat) (units colour acct : Nat) : State :=
  let k := rqKind d
  let hold (s : State) (claim : Bool) : State :=
    { s with req := { s.req with held := s.req.held ++ [⟨claim, src, d, rack, since, discard⟩] } }
  if rqEpoch d > s.epoch then
    let from_ := match src with | .fabric _ n .. => n.toNat | .nvme .. => 0xFFFF
    hold (s.sawEpoch (rqEpoch d) from_) false
  else if !s.addressed k (rqSvc d) (rqVid d) then
    match s.redirectTo k (rqSvc d) (rqVid d) with
    | none => if discard then s else s.refuse src d stUnavailable 0xFFFF units colour acct
    | some n =>
      if rqForwarded d || rqLocal d || rqRedirect d || n == s.me then
        if discard then s else s.refuse src d (if n == s.me && !(rqForwarded d || rqLocal d || rqRedirect d) then stUnavailable else stRedirect) n units colour acct
      else s.forward src d n
  else
    let sh := s.requestShards k (rqSvc d) (rqVid d)
    if s.comp.map.isSome && sh.any (fun x => (s.shard x.id).role == .unavailable) then
      if discard then s else s.refuse src d stUnavailable 0xFFFF units colour acct
    else if s.comp.map.isSome && sh.any (fun x => (s.shard x.id).role == .claiming) then hold s true
    else s.admit3 src d discard rack units colour acct

/-- The node stopped taking input: flush mode (R627), or no power. -/
def State.inputStopped (s : State) : Bool := s.pwr.off || s.pwr.state == 2 || s.pwr.state == 3

/-- Admit a request whole (R146). -/
def State.takeRequest (s : State) (src : Source) (d : Bytes) (units colour acct : Nat := 0) : State :=
  if s.inputStopped then s
  else if !formatOk src d then s.refuse src d stBadFormat 0xFFFF units colour acct
  else s.admit2 src d false s.rack s.time.up units colour acct

/-- Repeat step 2 for the held requests that a test picks (R492, R500). -/
def State.retryHeld (s : State) (pick : HeldReq → Bool) : State :=
  let hs := s.req.held.filter pick
  let s := { s with req := { s.req with held := s.req.held.filter (!pick ·) } }
  hs.foldl (fun s h => s.admit2 h.src h.data h.discard h.rack h.since 0 0 0) s

/-! ### Answers leave (R147, R168) -/

/-- Form a request's answer: it goes into the entry reserved at admission and to the answer stage (R168, R255). An answer longer than the
entry, or than the answer capacity of an NVMe submission, is replaced by a FAILED header (R153). -/
def State.formAnswer (s : State) (id : Nat) (a : Ans) : State :=
  match s.req? id with
  | none => s
  | some r =>
    match s.part? r.part with
    | none => s
    | some p =>
      let cap := (p.queueDef? r.ansQ).elim 0 (·.bytes)
      let cap := match r.src with
        | .nvme sq cid => min cap (((s.host.nvme.cmds.find? fun c => c.sq == sq.toNat && c.cid == cid).map (·.capacity)).getD cap)
        | .fabric .. => cap
      let b := a.bytes r.data s.epoch
      let b := if b.length > cap then (({ status := stFailed, stamp := a.stamp, usedUs := a.usedUs } : Ans)).bytes r.data s.epoch else b
      let s := s.unqueue r.part r.queue r.id
      let s := s.modQueue r.part r.ansQ fun q => { q with reserved := q.reserved - 1 }
      let s := match p.queueDef? r.ansQ with
        | some q => s.post p q b 0x100 (some id) none
        | none => s
      let s := s.output r.part b
      if r.discard then
        let s := s.unqueue r.part r.ansQ id
        { s with req := { s.req with reqs := s.req.reqs.filter (·.id != id) } }
      else s.modReq id fun r => { r with place := .answered b, owner := none }

/-- Microseconds from admission until now (R151). -/
def State.usedUs (s : State) (r : Req) : Nat := (s.rack - r.ta) / 1000

/-- An answer with a status only, with a fresh answer stamp. -/
def State.plainAnswer (s : State) (id status : Nat) : State :=
  match s.req? id with
  | none => s
  | some r =>
    let (st, s) := s.partStamp r.part
    s.formAnswer id { status := status, stamp := st, usedUs := s.usedUs r }

/-- The answer stage sends a formed answer and frees the reserved entry (R168). -/
def State.sendFormed (s : State) (id : Nat) : State :=
  match s.req? id with
  | some r =>
    match r.place with
    | .answered b =>
      let s := s.sendAnswer r.src r.data b 2
      let s := s.unqueue r.part r.ansQ id
      { s with req := { s.req with reqs := s.req.reqs.filter (·.id != id) } }
    | _ => s
  | none => s

end Sys2Proof.Machine
end

