-- ==== Sys2Proof/Machine/Journal.lean ====
section
/-! DEFINITION. Sys2Proof/Machine/Journal.lean: the journal and its seals, the allocation of flash pages, and images (R617–R624, R669). -/
namespace Sys2Proof.Machine

/-- The bytes of a journal record (R621). -/
def JRec.bytes (r : JRec) : Bytes :=
  let len := 0x34 + r.body.length
  let a := toLE 1 r.typ ++ toLE 1 r.part ++ toLE 2 len ++ toLE 1 r.objKind ++ toLE 1 r.flags ++ toLE 2 r.obj ++ toLE 8 r.seq ++ r.stamp.bytes ++ zeros 4
  let sl := match r.sealed with | some x => x.bytes ++ zeros 4 | none => List.replicate 16 0xFF
  a ++ sl ++ r.body ++ toLE 4 (crc32c (a ++ r.body))

/-- Length of a record. -/
def JRec.len (r : JRec) : Nat := 0x34 + r.body.length

/-- Pad a body so that the record's length is a multiple of 16 (R621). -/
def padBody (b : Bytes) : Bytes := b ++ zeros ((16 - (0x34 + b.length) % 16) % 16)

/-- Write a journal record (R621): its sequence number and the state. -/
def State.journal (s : State) (typ part objKind flags obj : Nat) (body : Bytes) : Nat × State :=
  let (st, s) := s.stampIfCan
  let r : JRec := { typ := typ, part := part, objKind := objKind, flags := flags, obj := obj, seq := s.dur.nextSeq, stamp := st, body := padBody body,
                    at_ := s.time.up }
  (s.dur.nextSeq, { s with dur := { s.dur with nextSeq := s.dur.nextSeq + 1, journal := r :: s.dur.journal } })

/-- Seal a record (R622). -/
def State.sealRec (s : State) (seq : Nat) (st : Stamp) : State :=
  { s with dur := { s.dur with journal := s.dur.journal.map fun r => if r.seq == seq then { r with sealed := some st } else r } }

/-- Void a record: a VOID record names it (R594, R621). -/
def State.voidRec (s : State) (seq part obj : Nat) : State :=
  let (n, s) := s.journal 0x03 part 1 0 obj (toLE 8 seq ++ zeros 8)
  let (st, s) := s.stampIfCan
  let s := s.sealRec n st
  { s with dur := { s.dur with journal := s.dur.journal.map fun r => if r.seq == seq then { r with voided := true } else r } }

/-- The record of a sequence number. -/
def State.jrec? (s : State) (seq : Nat) : Option JRec := s.dur.journal.find? (·.seq == seq)

/-- Bytes of the records not yet programmed (R623). -/
def State.tailBytes (s : State) : Nat := ((s.dur.journal.filter (!·.inTrail)).map JRec.len).sum

/-- Bytes of the trail that the sweep still needs: programmed records younger than the horizon in force. -/
def State.trailBytes (s : State) : Nat :=
  ((s.dur.journal.filter fun r => r.inTrail && r.stamp.time.toNat + s.pwr.horizonUsed.toNat * 10 ^ 9 ≥ s.rack).map JRec.len).sum

/-- Seals are delayed while the tail has reached 256 MiB, or while the trail is full although the horizon was halved (R623). -/
def State.tailFull (s : State) : Bool := s.tailBytes ≥ 268435456 || (s.pwr.errTrail && s.trailBytes > 64 * 10 ^ 9)

/-! ### Free pages (R669) -/

/-- A page of an extent belongs to a directory base of the partition. -/
def State.inDirBase (s : State) (p : Part) (ext n : Nat) : Bool :=
  (List.range 16).any fun i => match s.desc? p i with
    | some x => x.ext == ext && x.dirBase ≤ n && n < x.dirBase + x.dirBuckets
    | none => false

/-- The lowest free page of an extent at or after `n`, eight apart, so on one home carrier. -/
def State.freePageFrom (s : State) (p : Part) (ext lim : Nat) : Nat → Nat → Option Nat
  | 0, _ => none
  | fuel + 1, n =>
    if n ≥ lim then none
    else if s.srch.used.contains (pageKey p.num ext n) || s.inDirBase p ext n then State.freePageFrom s p ext lim fuel (n + 8)
    else some n

/-- The first free page in carrier order from carrier `c` on. -/
def State.freePage (s : State) (p : Part) (ext c : Nat) : Option Nat :=
  match p.flashExt ext with
  | none => none
  | some e =>
    let lim := extPages e.sizeGB
    (List.range 8).findSome? fun i => s.freePageFrom p ext lim (lim / 8 + 1) ((c + i) % 8)

/-- Take a new page for a run or stream whose last page is given (R669). -/
def State.takePage (s : State) (p : Part) (ext : Nat) (last : Option Nat) : Option (Nat × State) :=
  let key := p.num * 65536 + ext
  let prev := match last with | some n => some n | none => let v := s.srch.lastPage.get 0 key; if v == 0 then none else some (v - 1)
  let c := match prev with | some n => (n % 8 + 1) % 8 | none => 0
  match s.freePage p ext c with
  | none => none
  | some n =>
    some (n, { s with srch := { s.srch with used := insNat s.srch.used (pageKey p.num ext n), lastPage := s.srch.lastPage.set 0 key (n + 1) } })

/-- Take `n` pages for one run. -/
def State.takePages (s : State) (p : Part) (ext : Nat) : Nat → Option Nat → Option (List Nat × State)
  | 0, _ => some ([], s)
  | n + 1, last =>
    match s.takePage p ext last with
    | none => none
    | some (pg, s) =>
      match State.takePages s p ext n (some pg) with
      | none => none
      | some (r, s) => some (pg :: r, s)

/-- Free pages of an extent: their contents are deallocated. -/
def State.freePages (s : State) (p ext : Nat) (pages : List Nat) : State :=
  pages.foldl (fun s n =>
    let k := pageKey p ext n
    { (s.dealloc k) with srch := { s.srch with used := s.srch.used.filter (· != k) } }) s

/-! ### Images (R617, R619) -/

/-- The image header and content (R619). -/
def imageBytes (kind obj pages : Nat) (cover : Stamp) (content : Bytes) : Bytes :=
  let h := toLE 4 0x474D4149 ++ toLE 1 kind ++ zeros 3 ++ toLE 4 obj ++ cover.bytes ++ toLE 4 pages ++ zeros 32
  h ++ toLE 4 (crc32c h) ++ content

/-- Stage bytes over a run of pages with a hint. -/
def State.stageRun (s : State) (part ext hint : Nat) : List Nat → Bytes → State
  | [], _ => s
  | n :: r, b => State.stageRun (s.stage (pageKey part ext n) 0 (b.take 16384) hint) part ext hint r (b.drop 16384)

/-- Write an image of pieces (R617): its pages are taken from the extent and staged with hint 3. None where the extent has no room. -/
def State.writeImage (s : State) (p : Part) (ext objKind obj kind id : Nat) (cover : Stamp) (seq : Nat) (pieces : List (Bool × Nat × Bytes)) :
    Option (Img × State) :=
  let content := (pieces.map fun x => x.2.2).flatten
  let n := ceilDiv (64 + content.length) 16384
  match s.takePages p ext n none with
  | none => none
  | some (pg, s) =>
    let s := s.stageRun p.num ext 3 pg (imageBytes kind id n cover content)
    let im : Img := { part := p.num, objKind := objKind, obj := obj, kind := kind, id := id, cover := cover, seq := seq, pages := pg, pieces := pieces }
    some (im, { s with dur := { s.dur with images := im :: s.dur.images } })

/-- Note a change of an object since its newest image (R620). -/
def State.noteChange (s : State) (part index leaf : Nat) : State :=
  if s.srch.changed.contains (part, index, leaf) then s
  else { s with srch := { s.srch with changed := (part, index, leaf) :: s.srch.changed } }

end Sys2Proof.Machine
end

