-- ==== Sys2Proof/Machine/Search.lean ====
section
/-! DEFINITION. Sys2Proof/Machine/Search.lean: the stages of the standard search service: walk, scan, select, rescore, rounds, merge, peers,
ranking and answer (R156–R172, R185–R200, R319). -/
namespace Sys2Proof.Machine
open Fmt (fp32 e4m3 e5m2)

def State.query? (s : State) (req : Nat) : Option Query := s.srch.queries.find? (·.req == req)
def State.modQuery (s : State) (req : Nat) (f : Query → Query) : State :=
  { s with srch := { s.srch with queries := s.srch.queries.map fun q => if q.req == req then f q else q } }

/-! ### The embed stage (R319) -/

/-- Convert one FP32 output to an element of the index (R319); none where the request is answered FAILED. -/
def embedElem (t : Nat) (e : Int) (v : Nat) : Option Nat :=
  match fdecode fp32 v with
  | .fin n m x =>
    match t with
    | 0 =>
      let i := (fintV .rne n m (x - e)).1
      some (unsignedOf 8 (max (-127) (min 127 i)))
    | 1 => let r := fconv fp32 e4m3 v; some (if fspecial e4m3 r then e4m3.top + (if n then e4m3.signBit else 0) else r)
    | 2 => let r := fconv fp32 e5m2 v; some (if fspecial e5m2 r then e5m2.top + (if n then e5m2.signBit else 0) else r)
    | _ => let r := f2bf v; if fspecial Fmt.bf16 r then none else some r
  | _ => none

/-- All of them, or none. -/
def allSome : List (Option Nat) → Option (List Nat)
  | [] => some []
  | some x :: r => (allSome r).map (x :: ·)
  | none :: _ => none

/-- The token ids of a text query or a passage. -/
def tokensOf (b : Bytes) : Nat → List (BitVec 32)
  | 0 => []
  | n + 1 => BitVec.ofNat 32 (fieldAt b 0 4) :: tokensOf (b.drop 4) n

/-- The program of a service's stage. -/
def Service.stageProg (v : Service) (code : Nat) : Option Nat := (v.stages.find? (·.code == code)).map (·.program)

/-- The vector that the embed stage makes of tokens, in the index's elements. -/
def embedVec (prog : Nat) (toks : List (BitVec 32)) (x : Desc) : Option (List Nat) :=
  allSome ((List.range x.dim).map fun i => embedElem x.etype x.exp (Config.encoderOut prog toks i).toNat)

/-! ### Partial lists and merge steps (R187, R189, R191, R192) -/

def satTo (m n : Nat) : Nat := min m n

/-- Keep the first entry of each run of equal ids of a list in id order, counting what is dropped. -/
def dropRuns : List (Nat × Nat) → Option Nat → List (Nat × Nat) × Nat
  | [], _ => ([], 0)
  | e :: r, prev =>
    let (l, n) := dropRuns r (some (payId e.2))
    if prev == some (payId e.2) then (l, n + 1) else (e :: l, n)

/-- A merge step of exact lists (R189, R191, R192). -/
def mergeStep (ins : List PartialList) (k : Nat) : PartialList :=
  let u := (ins.map (·.entries)).flatten
  let (uniq, dropped) := dropRuns (sortBy idBefore u) none
  let ordered := sortBy scoreBefore uniq
  let out := ordered.take k
  let rest := ordered.drop k
  let full := out.length == k && k > 0
  let y := if full then (out.getLastD (0, 0)).1 else 0
  let left := rest.foldl (fun a e => add64 a (widen (scoreOf e.1))) (ins.foldl (fun a i => add64 a i.leftOut) 0)
  { entries := out, exhausted := out.length < k && ins.all (·.exhausted), degraded := ins.any (·.degraded), k := k,
    ties := satTo 65535 (if full then (rest.filter (·.1 == y)).length +
              ((ins.filter fun i => i.entries.length == i.k && i.cutKey == y).map (·.ties)).sum else 0),
    dups := satTo 65535 ((ins.map (·.dups)).sum + dropped), leaves := satTo 65535 (ins.map (·.leaves)).sum,
    skipped := satTo 0xFFFFFFFF (ins.map (·.skipped)).sum, filtered := satTo 0xFFFFFFFF (ins.map (·.filtered)).sum,
    unread := satTo 65535 (ins.map (·.unread)).sum, leftOut := left, cutKey := y }

/-- A round's exact list (R194), not cut: its `k` is past its length. -/
def Round.list (r : Round) (exhausted : Bool) : PartialList :=
  { entries := sortBy scoreBefore r.passing, k := r.passing.length + 1, exhausted := exhausted,
    leaves := (r.leaves.filter (·.result.isSome)).length, skipped := r.skipped + ((r.leaves.filterMap (·.result)).map (·.dead)).sum,
    filtered := r.filtered, unread := r.unread, leftOut := r.leftOut }

/-- The local list of a query from the rounds given (R194); `exhausted` is R165's. -/
def localList (k : Nat) (rounds : List Round) (exhausted : Bool) : PartialList :=
  let n := rounds.length
  let ins : List PartialList := (List.zipIdx rounds).map fun e => Round.list e.1 (exhausted && e.2 + 1 == n)
  let tot : Nat := (ins.map fun i => i.entries.length).sum
  let ins := if tot > 4096 then ins.map fun i => mergeStep [i] k else ins
  if rounds.isEmpty then { k := k, exhausted := exhausted } else mergeStep ins k

/-! ### The walk (R158–R160) -/

/-- Report a tree-node error (R25, R94). -/
def State.reportTree (s : State) (p : Part) (place who : Nat) : State :=
  s.report { cls := 1, part := p.num, kind := 8, unit := p.num, loc := place, detail := who }

/-- Score the entries of the kept nodes of one level, best first, ties to the lower child. -/
def State.rankChildren (s : State) (p : Part) (x : Desc) (dist : Nat) (q : List Nat) (ns : List Node) : List Nat :=
  (sortBy scoreBefore (ns.flatMap fun n => n.entries.map fun e => (keyOf (s.walkScore p x dist q e.code), e.child))).map (·.2)

/-- Reach children as interior nodes: those found, the number skipped, and the state with errors reported. -/
def State.reachAll (s : State) (p : Part) (x : Desc) (at_ : Stamp) : List Nat → List Node × Nat × State
  | [] => ([], 0, s)
  | n :: r =>
    let (ns, k, s) := State.reachAll s p x at_ r
    match s.reachNode p x n at_ with
    | .found v => (v :: ns, k, s)
    | .absent => (ns, k + 1, s)
    | .bad pl => (ns, k, s.reportTree p pl n)

/-- Descend from the kept nodes to the frontier (R159). -/
def State.descend (s : State) (p : Part) (x : Desc) (dist : Nat) (q : List Nat) (at_ : Stamp) (level widen : Nat) :
    Nat → List Node → List Nat × Nat × State
  | 0, _ => ([], 0, s)
  | fuel + 1, ns =>
    match ns with
    | [] => ([], 0, s)
    | n :: _ =>
      let best := s.rankChildren p x dist q ns
      if n.level ≤ 1 then (best.take widen, 0, s)
      else
        let (ms, k, s) := s.reachAll p x at_ (best.take level)
        let (f, k', s) := State.descend s p x dist q at_ level widen fuel ms
        (f, k + k', s)

/-- The walk from the root. -/
def State.walk (s : State) (p : Part) (x : Desc) (dist : Nat) (q : List Nat) (at_ : Stamp) (level widen : Nat) : List Nat × Nat × State :=
  let (ns, k, s) := s.reachAll p x at_ [0]
  let (f, k', s) := s.descend p x dist q at_ level widen 7 ns
  (f, k + k', s)

/-- Read the leaves of a round at S: the scans they need, the number absent, errors reported (R160). -/
def State.roundLeaves (s : State) (p : Part) (x : Desc) (dist : Nat) (q : List Nat) (at_ : Stamp) : List Nat → List LeafScan × Nat × State
  | [] => ([], 0, s)
  | id :: r =>
    match s.reachLeaf p x id at_ with
    | .found l =>
      let cent := s.leafCent p x l.at_
      let (lut, delta, bias) := s.lookupTable p x dist q cent (s.cbSlot p x l.cb).data
      let v : LeafScan := { leaf := id, header := l.at_, bias := bias, delta := delta, lut := lut, visible := s.visibleDelta p l at_,
                            deadSlots := s.deadSlots p x l at_ }
      let (ls, k, s) := State.roundLeaves s p x dist q at_ r
      (v :: ls, k, s)
    | .absent =>
      let (ls, k, s) := State.roundLeaves s p x dist q at_ r
      (ls, k + 1, s)
    | .bad pl =>
      let (ls, k, s) := State.roundLeaves s p x dist q at_ r
      (ls, k, s.reportTree p pl id)

/-! ### Answering (R166–R171, R199, R200) -/

/-- End a context's hold of a request. -/
def State.dropHold (s : State) (req : Nat) : State :=
  { s with cores := s.cores.map fun (c, k) => (c, { k with ctxs := k.ctxs.map fun (i, x) =>
      (i, if x.held == some req then { x with held := none, tenant := 0x100 } else x) }) }

/-- The query ends: its record goes; results still to come are discarded (R171). -/
def State.dropQuery (s : State) (req : Nat) : State :=
  { (s.dropHold req) with srch := { s.srch with queries := s.srch.queries.filter (·.req != req) } }

/-- Form a query's answer from its final list (R200). `cut` holds at the cut time. -/
def State.answerQuery (s : State) (q : Query) (l : PartialList) (cut degraded : Bool) (missing flags : Nat) (shown : List (Nat × Nat)) : State :=
  match s.req? q.req with
  | none => s
  | some r =>
    let deg := degraded || l.degraded || l.unread > 0
    let status := if deg then stDegraded else if cut then stPartial else stOk
    let ex := l.exhausted && !cut && missing == 0
    let entry (e : Nat × Nat) : Bytes := toLE 6 (payId e.2) ++ [0, 0] ++ toLE 4 (scoreOf e.1)
    let padE : Bytes := List.replicate 6 0xFF ++ [0, 0] ++ toLE 4 f32ninf
    let body := ((shown.map entry) ++ List.replicate (q.k - shown.length) padE).flatten
    let (st, s) := s.partStamp r.part
    let a : Ans :=
      { status := status, flags := b2n ex + flags, stamp := st, count := shown.length, entries := q.k, ties := l.ties, dups := l.dups,
        skipped := l.skipped, filtered := l.filtered, leaves := l.leaves, missing := missing,
        selSum := l.entries.foldl (fun a e => add64 a (widen (scoreOf e.1))) 0, leftSum := l.leftOut, usedUs := s.usedUs r,
        unread := l.unread, body := body }
    (s.formAnswer q.req a).dropQuery q.req

/-- The final merge (R198, R199), then ranking (R167) and the answer. `cut` is at the cut time. -/
def State.finishQuery (s : State) (q : Query) (local_ : PartialList) (cut : Bool) : State :=
  let joined := q.peers.filter (·.st == 1)
  let l := if q.coordinator then mergeStep (local_ :: joined.map (·.list)) q.k else local_
  let missing := (q.peers.filter (·.st != 1)).length
  let partial_ := cut || q.peers.any fun x => x.st == 2 || x.st == 0 || (x.st == 1 && x.status == stPartial)
  let degraded := q.peers.any fun x => x.st == 3 || x.st == 4 || (x.st == 1 && x.status == stDegraded)
  let widened := b2n (q.rounds.length > 1) * 2
  let prog := match s.part? q.part with
    | some p => (p.service? q.svc).elim none (·.stageProg 7)
    | none => none
  match (if q.ranking && !cut then prog else none) with
  | some g =>
    let rk := sortBy scoreBefore (l.entries.map fun e => (keyOf (Config.rankerOut g q.ctx (payId e.2)).toNat, e.2))
    s.answerQuery q l partial_ degraded missing (widened + 4) rk
  | none => s.answerQuery q l partial_ degraded missing widened l.entries

/-- The owner's local work is done: merge at once, or wait for peers that have not answered. -/
def State.localDone (s : State) (q : Query) (l : PartialList) : State :=
  if q.peers.any (·.st == 0) then s.modQuery q.req fun x => { x with stage := .merge, merged := some l }
  else s.finishQuery q l false

/-! ### Posting work (R156, R161, R162) -/

/-- Post the scans of the newest round that wait, in frontier order, while the mash command queue has room. -/
def State.postScans (s : State) (p : Part) (c : QueueDef) (req round tag : Nat) : List (LeafScan × Nat) → List LeafScan × State
  | [] => ([], s)
  | (l, i) :: r =>
    if l.posted || s.queueFull p.num c then
      let (ls, s) := State.postScans s p c req round tag r
      (l :: ls, s)
    else
      let s := s.post p c [] (BitVec.ofNat 9 tag) none (some (.scan req round i))
      let (ls, s) := State.postScans s p c req round tag r
      ({ l with posted := true } :: ls, s)

/-- Post the lauter commands of the newest round that wait. -/
def State.postLauter (s : State) (p : Part) (c : QueueDef) (req round tag : Nat) (todo : List (Nat × List Survivor)) : State × List Nat :=
  todo.foldl (fun (acc : State × List Nat) e =>
    if acc.2.contains e.1 || acc.1.queueFull p.num c then acc
    else (acc.1.post p c [] (BitVec.ofNat 9 tag) none (some (.rescore req round e.1)), acc.2 ++ [e.1])) (s, [])

/-- Post what a query has waiting. -/
def State.postWork (s : State) (req : Nat) : State :=
  match s.query? req, s.req? req with
  | some q, some r =>
    match s.part? q.part, q.rounds.getLast? with
    | some p, some rd =>
      let n := q.rounds.length - 1
      let s := match p.queueOfKind 4 with
        | some c =>
          let (ls, s) := s.postScans p c req n r.tenant (List.zipIdx rd.leaves)
          s.modQuery req fun q => { q with rounds := q.rounds.set n { rd with leaves := ls } }
        | none => s
      match s.query? req, p.queueOfKind 5 with
      | some q, some c =>
        let rd := nth q.rounds n { leaves := [] }
        let todo := rd.toPost.filter fun e => !rd.waiting.contains e.1
        let (s, posted) := s.postLauter p c req n r.tenant todo
        s.modQuery req fun q => { q with rounds := q.rounds.set n { rd with waiting := rd.waiting ++ posted } }
      | _, _ => s
    | _, _ => s
  | _, _ => s

/-- Post waiting work of every query of a partition: an entry of a command queue came free. -/
def State.postAll (s : State) (p : Nat) : State := ((s.srch.queries.filter (·.part == p)).map (·.req)).foldl State.postWork s

/-! ### Rounds (R159, R162–R165, R193) -/

/-- The scan left-out sum of a round (R193) and its candidates as entries. -/
def roundLeftOut (keep : List (Nat × Nat)) (leaves : List LeafScan) : Nat :=
  leaves.foldl (fun a l =>
    match l.result with
    | none => a
    | some r =>
      let t := add64 (mul64 (nat64f r.discarded) (widen l.bias)) (mul64 (widen l.delta) (nat64f r.discardSum))
      let bySlot := sortBy (fun x y => x.1 < y.1) r.cands
      bySlot.foldl (fun a c =>
        if keep.contains (l.leaf, c.1) then a else add64 a (widen (approx l.bias l.delta c.2))) (add64 a t)) 0

/-- Select a round's survivors (R162). -/
def State.selectRound (s : State) (p : Part) (x : Desc) (q : Query) (rd : Round) : Round :=
  let cands := rd.leaves.flatMap fun l => match l.result with
    | some r => r.cands.map fun c => (keyOf (approx l.bias l.delta c.2), l.leaf * 65536 + c.1)
    | none => []
  let best := (sortBy scoreBefore cands).take q.rescore
  let keep := best.map fun e => (payId e.2 / 65536, payId e.2 % 65536)
  let surv := keep.filterMap fun e =>
    (rd.leaves.find? (·.leaf == e.1)).map fun l =>
      let (pg, ix) := s.recordOf p x (s.parseLeafAt p l.header) e.2
      ({ leaf := e.1, slot := e.2, page := pg, index := ix } : Survivor)
  let groups := ((List.range 8).map fun c => (c, surv.filter fun v => v.page % 8 == c)).filter fun e => !e.2.isEmpty
  { rd with selected := true, toPost := groups, leftOut := roundLeftOut keep rd.leaves }

/-- Replace a query's newest round. -/
def Query.setLast (q : Query) (rd : Round) : Query := { q with rounds := q.rounds.dropLast ++ [rd] }

/-- Passing entries of all rounds. -/
def Query.passed (q : Query) : Nat := (q.rounds.map (·.passing.length)).sum

/-- Take the next `b` leaves of the frontier into a round (R164). -/
def State.startRound (s : State) (p : Part) (x : Desc) (req b skipped : Nat) : State :=
  match s.query? req with
  | none => s
  | some q =>
    let ids := (q.frontier.drop q.taken).take b
    let (ls, k, s) := s.roundLeaves p x q.dist q.q q.stamp ids
    s.modQuery req fun q => { q with taken := q.taken + ids.length, stage := .scan,
                                     rounds := q.rounds ++ [{ leaves := ls, skipped := k + skipped }] }

/-- Carry a query on as far as it goes without a further result: select when a round's scans are in, end a round whose commands have
returned, widen or answer. -/
def State.advanceQuery (s : State) (req : Nat) : Nat → State
  | 0 => s
  | fuel + 1 =>
    match s.query? req with
    | none => s
    | some q =>
      match s.part? q.part, q.rounds.getLast? with
      | some p, some rd =>
        match s.desc? p q.index with
        | none => (s.plainAnswer req stFailed).dropQuery req
        | some x =>
          if rd.done then s
          else if !rd.selected then
            if rd.leaves.all (·.result.isSome) then
              let rd := s.selectRound p x q rd
              State.advanceQuery (s.modQuery req fun q => { q.setLast rd with stage := .rescore }) req fuel
            else s.postWork req
          else if !rd.toPost.isEmpty then s.postWork req
          else
            let q := q.setLast { rd with done := true }
            let s := s.modQuery req fun _ => q
            if q.passed < q.k && q.taken < q.frontier.length then
              State.advanceQuery (s.startRound p x req q.taken 0) req fuel
            else s.localDone q (localList q.k q.rounds (q.passed < q.k))
      | _, _ => s

/-- Rounds a walk can run, as fuel. -/
def roundFuel : Nat := 64

/-! ### Taking a query (R156, R157, R166, R169) -/

/-- The sub-query of a coordinator for a peer (R166, R196). -/
def subQuery (rq : Bytes) (x : Desc) (svc epoch budgetUs : Nat) (raw : List Nat) : Bytes :=
  let pl := fieldAt rq 0x52 2
  let pred := slice rq 0x58 pl
  let elems := (raw.map fun v => toLE (elemSize x.etype) v).flatten
  let body := slice rq 0x40 0xE ++ toLE 1 x.etype ++ [0] ++ toLE 2 x.dim ++ toLE 2 pl ++ zeros 4 ++ pred ++ elems
  let len := alignUp (64 + body.length) 8
  toLE 1 1 ++ [1] ++ toLE 1 svc ++ slice rq 3 1 ++ toLE 4 len ++ slice rq 8 20 ++ toLE 4 epoch ++ toLE 4 budgetUs ++ toLE 2 0xFFFF ++ toLE 2 1 ++
    zeros 24 ++ body ++ zeros (len - 64 - body.length)

/-- Send the sub-queries of a coordinator and note what could not be sent. -/
def State.sendSubs (s : State) (p : Part) (x : Desc) (r : Req) (raw : List Nat) : List (Nat × Nat) → List PeerState × State
  | [] => ([], s)
  | (n, svc) :: rest =>
    let b := r.td - s.rack
    let (st, s) :=
      if b < 200000 then (2, s)
      else if (s.upLinks n (some p.num)).isEmpty then (3, s)
      else (0, s.sendMsg { dest := n, cls := 1, tenant := r.tenant, part := some p.num, set := r.tenant }
                 (subQuery r.data x svc s.epoch ((b - 100000) / 1000) raw))
    let (ps, s) := State.sendSubs s p x r raw rest
    (({ node := n, st := st } : PeerState) :: ps, s)

/-- The owner context takes a query: embed, sub-queries, walk, first round (R156–R161, R166). -/
def State.takeQuery (s : State) (p : Part) (v : Service) (r : Req) : State :=
  let d := r.data
  if s.rack ≥ cutOf r.td then
    match s.req? r.id with
    | some _ =>
      let q : Query := { req := r.id, part := p.num, svc := v.index, stamp := rqStamp d, index := 0, dist := 0, k := fieldAt d 0x42 2, beam := 0, widen := 0,
                         cands := 0, rescore := 0, level := 0, ranking := false, raw := [], q := [], pred := [], ctx := [], stage := .walk }
      s.answerQuery q { k := q.k } true false 0 0 []
    | none => s
  else
    let (x, s) := s.useIndex p (fieldAt d 0x40 1)
    match x with
    | none => s.plainAnswer r.id stFailed
    | some x =>
      let pl := fieldAt d 0x52 2
      let cl := fieldAt d 0x54 2
      let pay := 0x58 + pl + cl
      let raw : Option (List Nat) :=
        if rqKind d == 1 then some (reqElems x.etype pay x.dim d)
        else embedVec ((v.stageProg 1).getD 0) (tokensOf (d.drop pay) (fieldAt d 0x50 2)) x
      match raw with
      | none => s.plainAnswer r.id stFailed
      | some raw =>
        let kk := fieldAt d 0x42 2
        let orDef (o n : Nat) : Nat := if fieldAt d o 2 == 0 then n else fieldAt d o 2
        let dist := fieldAt d 0x41 1
        let qv := x.query dist raw
        let peers := if rqLocal d then [] else s.peersOf v.index
        let (ps, s) := s.sendSubs p x r raw peers
        let q : Query :=
          { req := r.id, part := p.num, svc := v.index, stamp := rqStamp d, index := fieldAt d 0x40 1, dist := dist, k := kk, beam := orDef 0x44 v.beam,
            widen := orDef 0x46 v.widen, cands := orDef 0x48 32, rescore := orDef 0x4A (min (5 * kk) 4096), level := orDef 0x4C 64,
            ranking := (fieldAt d 0x4F 1).testBit 0, raw := raw, q := qv, pred := slice d 0x58 pl, ctx := slice d (0x58 + pl) cl, stage := .walk,
            peers := ps, coordinator := !peers.isEmpty }
        let (f, k, s) := s.walk p x dist qv q.stamp q.level q.widen
        let q := { q with frontier := f }
        let s := { s with srch := { s.srch with queries := s.srch.queries ++ [q] } }
        if f.isEmpty then s.localDone q { k := kk, exhausted := true }
        else (s.startRound p x r.id q.beam k).advanceQuery r.id roundFuel

/-- A scan's result reaches the owner (R162); a result for a query that has ended is discarded (R171). -/
def State.scanArrived (s : State) (req round leaf : Nat) (res : LeafResult) : State :=
  match s.query? req with
  | none => s
  | some q =>
    if round + 1 != q.rounds.length then s
    else
      let rd := nth q.rounds round { leaves := [] }
      match rd.leaves[leaf]? with
      | none => s
      | some l =>
        let rd := { rd with leaves := rd.leaves.set leaf { l with result := some res } }
        (s.modQuery req fun q => q.setLast rd).advanceQuery req roundFuel

/-- A lauter command's result reaches the owner (R163, R164): passing entries as (key, id), filtered and unread. -/
def State.lauterArrived (s : State) (req round carrier : Nat) (pass : List (Nat × Nat)) (filtered unread : Nat) : State :=
  match s.query? req with
  | none => s
  | some q =>
    if round + 1 != q.rounds.length then s
    else
      let rd := nth q.rounds round { leaves := [] }
      if !rd.toPost.any (·.1 == carrier) then s
      else
        let rd := { rd with toPost := rd.toPost.filter (·.1 != carrier), waiting := rd.waiting.filter (· != carrier),
                            passing := rd.passing ++ pass, filtered := rd.filtered + filtered, unread := rd.unread + unread }
        (s.modQuery req fun q => q.setLast rd).advanceQuery req roundFuel

/-- The rounds that an answer at the cut time draws on (R171, R194): those completed, and the one in its rescore stage. -/
def Query.cutRounds (q : Query) : List Round := q.rounds.filter fun r => r.done || r.selected

/-- The cut time comes (R171). -/
def State.cutQuery (s : State) (q : Query) : State :=
  let l := match q.merged with
    | some l => l
    | none => localList q.k q.cutRounds false
  s.finishQuery q l true

/-- A peer answer as an exact partial list (R197). -/
def peerList (k : Nat) (a : Bytes) : PartialList :=
  let n := min (fieldAt a 0x2C 2) k
  let es := (List.range n).map fun i => (keyOf (fieldAt a (0x60 + 12 * i + 8) 4), fieldAt a (0x60 + 12 * i) 6)
  { entries := es, exhausted := (fieldAt a 3 1).testBit 0, degraded := fieldAt a 2 1 == stDegraded, k := k,
    ties := fieldAt a 0x30 2, dups := fieldAt a 0x32 2, leaves := fieldAt a 0x3C 2, skipped := fieldAt a 0x34 4, filtered := fieldAt a 0x38 4,
    unread := fieldAt a 0x56 2, leftOut := fieldAt a 0x48 8, cutKey := if n == k && k > 0 then (es.getLastD (0, 0)).1 else 0 }

/-- A peer answer arrives (R166, R198): kept when it comes before the cut time, else discarded. -/
def State.peerArrived (s : State) (ch node : Nat) (a : Bytes) (fed : Bool := false) : State :=
  let hit (q : Query) : Bool := q.peers.any (fun p => p.node == node && p.st == 0) &&
    match s.req? q.req with
    | some r => rqTag r.data == fieldAt a 8 8 && rqStamp r.data == stampAt a 0x10 && s.rack < cutOf r.td
    | none => false
  match s.srch.queries.find? hit with
  | none => s
  | some q =>
    if s.replaying q.part && !fed then s
    else
    let s := s.caskMessage q.part ch a
    let st := fieldAt a 2 1
    let ok := st == stOk || st == stPartial || st == stDegraded
    let q := { q with peers := q.peers.map fun p =>
      if p.node == node then { p with st := if ok then 1 else 4, status := st, list := peerList q.k a } else p }
    let s := s.modQuery q.req fun _ => q
    match q.merged with
    | some l => if q.peers.any (·.st == 0) then s else s.finishQuery q l false
    | none => s

/-! ### Storage filters (R415–R417) -/

/-- The state of a filter's examination. -/
structure FiltAcc where
  entries : List Bytes := []
  count : Nat := 0
  skipped : Nat := 0
  filtered : Nat := 0
  unread : Nat := 0
  resume : Nat
  deriving DecidableEq, Repr

/-- Examine one record (R416). -/
def State.filterOne (s : State) (pg : Nat) (rs opts mx : Nat) (cnt : Bool) (pred : Bytes) (acc : FiltAcc) (place ix : Nat) : FiltAcc :=
  if !cnt && acc.entries.length ≥ mx then acc
  else
    let b := s.flashRead pg (ix * rs) rs
    let perPage := 16384 / rs
    let next := if ix + 1 ≥ perPage then place % 2 ^ 40 + 1 else place % 2 ^ 40 + (ix + 1) * 2 ^ 40
    if (opts / 4) % 2 == 1 && allZero b then { acc with skipped := acc.skipped + 1, resume := next }
    else if passes pred b then
      { acc with entries := if cnt then acc.entries else acc.entries ++ [if opts % 4 == 1 then toLE 8 (place % 2 ^ 40 + ix * 2 ^ 40) else b],
                 count := acc.count + 1, resume := next }
    else { acc with filtered := acc.filtered + 1, resume := next }

/-- Examine the records of one page from index `from_` on. -/
def State.filterPage (s : State) (pg page rs opts mx : Nat) (cnt : Bool) (pred : Bytes) (acc : FiltAcc) (from_ : Nat) : FiltAcc :=
  ((List.range (16384 / rs)).filter (from_ ≤ ·)).foldl (fun a ix => s.filterOne pg rs opts mx cnt pred a page ix) acc

/-- Examine the pages of a range; `bad` says which page keys cannot be read. -/
def State.filterPages (s : State) (p : Part) (ext rs opts mx : Nat) (cnt : Bool) (pred : Bytes) (bad : List Nat) (first : Nat) :
    Nat → Nat → FiltAcc → FiltAcc
  | 0, _, acc => acc
  | n + 1, page, acc =>
    if !cnt && acc.entries.length ≥ mx then acc
    else
      let k := pageKey p.num ext page
      let acc := if bad.contains k then { acc with unread := acc.unread + (16384 / rs - first), resume := page + 1 }
                 else s.filterPage k page rs opts mx cnt pred acc first
      State.filterPages s p ext rs opts mx cnt pred bad 0 n (page + 1) acc

/-- Run a storage filter request and form its answer (R416, R417). At the cut time it has examined nothing more. -/
def State.takeFilter (s : State) (p : Part) (r : Req) (bad : List Nat) : State :=
  let d := r.data
  let cnt := rqKind d == 0x11
  let ext := fieldAt d 0x40 2
  let rs := fieldAt d 0x42 2
  let opts := fieldAt d 0x44 1
  let page := fieldAt d 0x48 5
  let ix := fieldAt d 0x4D 2
  let n := fieldAt d 0x50 4
  let mx := fieldAt d 0x54 4
  let pred := slice d 0x58 (fieldAt d 0x46 2)
  let late := s.rack ≥ cutOf r.td
  let acc0 : FiltAcc := { resume := page + ix * 2 ^ 40 }
  let acc := if late then acc0 else s.filterPages p ext rs opts mx cnt pred bad ix n page acc0
  let ks := (List.range n).map fun i => pageKey p.num ext (page + i)
  let s := if late then s else ks.foldl (fun s k => s.countRead k (if bad.contains k then 10 else s.defaultStep k) (rqTenant d) true) s
  let (st, s) := s.partStamp r.part
  let beyond := acc.resume % 2 ^ 40 ≥ page + n
  let body := toLE 8 acc.resume ++ (if cnt then toLE 8 acc.count else acc.entries.flatten)
  let m := acc.entries.length
  s.formAnswer r.id
    { status := if acc.unread > 0 then stDegraded else if late then stPartial else stOk, flags := b2n (beyond && !late), stamp := st, count := m, entries := m,
      skipped := acc.skipped, filtered := acc.filtered, unread := acc.unread, usedUs := s.usedUs r, body := body }

end Sys2Proof.Machine
end

