-- ==== Sys2Proof/Machine/Updates.lean ====
section
/-! DEFINITION. Sys2Proof/Machine/Updates.lean: the id directory, leaf choice and the steps of an update, with its waits, its mirror and its
acknowledgement (R109–R115, R128, R323, R495). -/
namespace Sys2Proof.Machine

/-! ### The id directory (R113, R114) -/

/-- Probe the directory log from an entry on: the entry of the id, or the first empty one. -/
def State.probe (s : State) (p : Part) (x : Desc) (vid : Nat) : Nat → Nat → Option (Nat × Bool)
  | 0, _ => none
  | n + 1, i =>
    let e := s.pmRead p (x.dirLog + 16 * i) 16
    if fieldAt e 6 1 == 0 then some (i, false)
    else if fieldAt e 0 6 == vid then some (i, true)
    else State.probe s p x vid n ((i + 1) % max 1 x.dirCap)

/-- What a directory tier says of an id. -/
inductive DirHit where
  | none
  | absent
  | leaf (id : Nat)
  deriving DecidableEq, Repr

/-- Look an id up in the log. -/
def State.logLookup (s : State) (p : Part) (x : Desc) (vid : Nat) : DirHit :=
  match s.probe p x vid x.dirCap (idHash vid % max 1 x.dirCap) with
  | some (i, true) =>
    let e := s.pmRead p (x.dirLog + 16 * i) 16
    if fieldAt e 6 1 == 2 then .absent else .leaf (fieldAt e 8 4)
  | _ => .none

/-- Look an id up in a bucket chain of the base; each page costs one flash read. -/
def State.baseLookup (s : State) (p : Part) (x : Desc) (vid : Nat) : Nat → Nat → DirHit × State
  | 0, _ => (.none, s)
  | fuel + 1, page =>
    let k := pageKey p.num x.ext page
    let b := s.flashRead k 0 16384
    let s := s.countRead k (s.defaultStep k)
    let n := min 1632 (fieldAt b 0 2)
    match (List.range n).find? fun i => fieldAt b (64 + 10 * i) 6 == vid with
    | some i => (.leaf (fieldAt b (64 + 10 * i + 6) 4), s)
    | none =>
      let o := fieldAt b 8 5
      if o == 0 then (.none, s) else State.baseLookup s p x vid fuel o

/-- Write a directory log entry (R112 step 7): present with a leaf, or absent. -/
def State.dirWrite (s : State) (p : Part) (x : Desc) (index vid : Nat) (leaf : Option Nat) : State :=
  match s.probe p x vid x.dirCap (idHash vid % max 1 x.dirCap) with
  | none => s
  | some (i, old) =>
    let e := toLE 6 vid ++ (match leaf with | some _ => [1] | none => [2]) ++ [0] ++ toLE 4 (leaf.getD 0) ++ zeros 4
    let s := s.pmWrite p (x.dirLog + 16 * i) e
    if old then s else { s with srch := { s.srch with dirFill := s.srch.dirFill.modify 0 (p.num * 16 + index) (· + 1) } }

/-- The vector id of a slot (R98, R102): from the metadata of a delta slot, or from the record of a body slot with one flash read. -/
def State.slotVid (s : State) (p : Part) (x : Desc) (l : Leaf) (slot : Nat) : Nat × State :=
  if slot ≥ x.bodyCap then (s.pmNum p (l.meta_ + 32 * (slot - x.bodyCap)) 6, s)
  else
    let (pg, ix) := s.recordOf p x l slot
    let k := pageKey p.num x.ext pg
    (leNat (s.flashRead k (ix * x.recSize) 6), s.countRead k (s.defaultStep k))

/-- Confirm candidates in descending slot order (R114 step 4). -/
def State.confirm (s : State) (p : Part) (x : Desc) (l : Leaf) (vid : Nat) : List Nat → Option Nat × State
  | [] => (none, s)
  | c :: r =>
    let (v, s) := s.slotVid p x l c
    if v == vid then (some c, s) else State.confirm s p x l vid r

/-- What a lookup finds (R114). -/
inductive Lookup where
  | notLive
  | waits (leaf : Nat)
  | found (leaf slot : Nat)
  deriving DecidableEq, Repr

/-- Look up an id (R114); an id with no matching slot gets an absent log entry. -/
def State.lookup (s : State) (p : Part) (x : Desc) (index vid : Nat) : Lookup × State :=
  let (h, s) := match s.logLookup p x vid with
    | .none => s.baseLookup p x vid 1024 (x.dirBase + idHash vid % max 1 x.dirBuckets)
    | h => (h, s)
  match h with
  | .none | .absent => (.notLive, s)
  | .leaf id =>
    match s.curLeaf p x id with
    | none =>
      if leState (s.leafEntry p x id) != 1 then (.waits id, s)
      else (.notLive, s.reportTree p (leOff (s.leafEntry p x id)) id)
    | some l =>
      let fp := fingerprint vid
      let cand := ((l.slots x).filter fun n => !s.tomb p l n && s.pmNum p (l.prints + 2 * n) 2 == fp).reverse
      match s.confirm p x l vid cand with
      | (some n, s) => (.found id n, s)
      | (none, s) => (.notLive, s.dirWrite p x index vid none)

/-! ### Leaf choice (R111, R128) -/

/-- Children of a node by distance from x, ties to the lower child. -/
def State.nearest (s : State) (p : Part) (x : Desc) (v : List Nat) (n : Node) : List Nat :=
  let ds := n.entries.map fun e => (0xFFFFFFFF - keyOf (sqDist v (s.reconstruct p x e.code)), e.child)
  (sortBy scoreBefore ds).map (·.2)

/-- Descend to the level-1 node (R111 step 1). -/
def State.toLevel1 (s : State) (p : Part) (x : Desc) (v : List Nat) : Nat → Nat → Option Node
  | 0, _ => none
  | fuel + 1, num =>
    match s.curNode p x num with
    | none => none
    | some n =>
      if n.level ≤ 1 then some n
      else match s.nearest p x v n with
        | [] => none
        | c :: _ => State.toLevel1 s p x v fuel c

/-- The leaf that R111 chooses for a vector. -/
def State.chooseLeaf (s : State) (p : Part) (x : Desc) (v : List Nat) : Option Nat :=
  match s.toLevel1 p x v 8 0 with
  | none => none
  | some n =>
    let four := (s.nearest p x v n).take 4
    let ds := four.filterMap fun id => (s.curLeaf p x id).map fun l => (0xFFFFFFFF - keyOf (sqDist v (s.leafCent p x l.at_)), id)
    ((sortBy scoreBefore ds).head?).map (·.2)

/-- Where an addition goes. -/
inductive Place where
  | leaf (id : Nat)
  /-- the chosen leaf is not full but its delta is (R115) -/
  | waits (id : Nat)
  | full
  deriving DecidableEq, Repr

/-- The chosen leaf, or the first neighbour with room when it is full (R128). -/
def State.placeIn (s : State) (p : Part) (x : Desc) (id : Nat) : Place :=
  match s.curLeaf p x id with
  | none => .full
  | some l =>
    if l.live < x.bodyCap then (if l.delta < x.deltaCap then .leaf id else .waits id)
    else
      let cand := l.nbrs.flatMap fun n => s.followLink p x 4 n
      match cand.find? fun n => match s.curLeaf p x n with | some k => k.live < x.bodyCap && k.delta < x.deltaCap | none => false with
      | some n => .leaf n
      | none => .full

/-! ### Applying (R112) -/

def State.modUpdate (s : State) (req : Nat) (f : Update → Update) : State :=
  { s with srch := { s.srch with updates := s.srch.updates.map fun u => if u.req == req then f u else u } }
def State.update? (s : State) (req : Nat) : Option Update := s.srch.updates.find? (·.req == req)

/-- The delta stream of an index. -/
def State.stream (s : State) (p index : Nat) : DeltaStream := s.srch.streams.get DeltaStream.reset (p * 16 + index)

/-- Place a record in the delta stream (R112 step 3, R669): its page and index; none where no page is free or the staging buffer is full. -/
def State.streamRecord (s : State) (p : Part) (x : Desc) (index : Nat) (b : Bytes) : Option (Nat × Nat × State) :=
  let ds := s.stream p.num index
  let cur : Option (Nat × Nat × DeltaStream × State) :=
    match ds.pages.getLast? with
    | some pg => if ds.next < x.rpp then some (pg, ds.next, ds, s) else
        (match s.takePage p x.ext (some pg) with
         | some (n, s) => some (n, 0, { pages := ds.pages ++ [n], next := 0 }, s)
         | none => none)
    | none =>
      match s.takePage p x.ext none with
      | some (n, s) => some (n, 0, { pages := ds.pages ++ [n], next := 0 }, s)
      | none => none
  match cur with
  | none => none
  | some (pg, ix, ds, s) =>
    let k := pageKey p.num x.ext pg
    if s.stagingFull k then none
    else
      let s := s.stage k (ix * x.recSize) b 0
      some (pg, ix, { s with srch := { s.srch with streams := s.srch.streams.set DeltaStream.reset (p.num * 16 + index) { ds with next := ix + 1 } } })

/-- Add to a counter of a leaf's state block. -/
def State.leafAdd (s : State) (p : Part) (l : Leaf) (o : Nat) (up : Bool) : State :=
  let v := s.pmNum p (l.at_ + o) 2
  s.pmSet p (l.at_ + o) 2 (if up then v + 1 else v - 1)

/-- Append a delta slot (R112 step 5): code, metadata with an all-ones stamp, fingerprint, counts. -/
def State.appendDelta (s : State) (p : Part) (x : Desc) (l : Leaf) (vid page ix : Nat) (code : Bytes) : State :=
  let j := l.delta
  let s := s.locWrite (.dram (scanAddrStack l.deltaCodes) (scanAddrOff l.deltaCodes + 6 * j)) code
  let s := s.pmWrite p (l.meta_ + 32 * j) (toLE 6 vid ++ zeros 2 ++ Stamp.ones.bytes ++ zeros 4 ++ toLE 5 page ++ toLE 1 ix ++ zeros 2)
  let s := s.pmSet p (l.prints + 2 * (x.bodyCap + j)) 2 (fingerprint vid)
  (s.leafAdd p l 0xD4 true).leafAdd p l 0xD6 true

/-- Delete a slot (R112 step 6): tombstone, recent-delete entry with an all-ones stamp, counts. -/
def State.deleteSlot (s : State) (p : Part) (l : Leaf) (slot : Nat) : State :=
  let s := s.pmSetBit p l.tombs slot true
  let s := s.setRecents p l (s.recents p l ++ [(slot, Stamp.ones)])
  (s.leafAdd p l 0xD8 true).leafAdd p l 0xD6 false

/-- Write the acknowledgement stamp into the entries of an update (R112 step 8). -/
def State.ackEntries (s : State) (p : Part) (x : Desc) (u : Update) (a : Stamp) : State :=
  let s := match u.newAt with
    | some (lf, sl) => (match s.curLeaf p x lf with
        | some l => s.pmWrite p (l.meta_ + 32 * (sl - x.bodyCap) + 8) a.bytes
        | none => s)
    | none => s
  match u.oldAt with
  | some (lf, sl) => (match s.curLeaf p x lf with
      | some l => s.setRecents p l ((s.recents p l).map fun r => if r.1 == sl && r.2 == Stamp.ones then (sl, a) else r)
      | none => s)
  | none => s

/-- The body of an UPDATE record (R621). -/
def Update.jbody (u : Update) : Bytes :=
  let none4 := toLE 4 0xFFFFFFFF
  toLE 6 u.vid ++ zeros 2 ++ (match u.newAt with | some (l, _) => toLE 4 l | none => none4) ++
    (match u.newAt with | some (_, n) => toLE 2 n | none => zeros 2) ++ (match u.oldAt with | some (_, n) => toLE 2 n | none => zeros 2) ++
    (match u.oldAt with | some (l, _) => toLE 4 l | none => none4) ++ (match u.rec_ with | some (pg, ix) => toLE 5 pg ++ toLE 1 ix | none => zeros 6) ++
    zeros 2 ++ toLE 6 u.code ++ zeros 10

/-- The refinement record of an index is valid (R321, R322). -/
def State.refineOk (s : State) (p : Part) (n : Nat) : Bool :=
  let b := s.pmRead p (0x100001000 + 512 * n) 0xC0
  p.memBytes ≥ 0x100003000 && fieldAt b 0 4 == 0x4E494652 && fieldAt b 4 1 == n && crcOk b 0xBC

/-- Post a refinement sample after the acknowledgement of an addition (R323, R324). -/
def State.postSample (s : State) (p : Part) (u : Update) (leaf : Nat) (a : Stamp) : State :=
  if !u.adds || !s.refineOk p u.index then s
  else
    let rec_ := s.pmRead p (0x100001000 + 512 * u.index) 512
    let h := crc32c (toLE 6 u.vid ++ a.bytes)
    if h % 2 ^ fieldAt rec_ 0xC1 1 != 0 then s
    else match p.queueDef? (fieldAt rec_ 6 2) with
      | none => s
      | some q =>
        if q.kind != 3 || s.queueFull p.num q then s
        else s.post p q ([1] ++ toLE 1 u.index ++ zeros 2 ++ toLE 4 leaf ++ toLE 6 u.vid ++ zeros 2 ++ a.bytes ++ zeros 4 ++ u.elems) 0x100 none none

/-- The last acknowledgement stamp of the shard of a vector id (R501). -/
def State.noteAck (s : State) (svc vid : Nat) (a : Stamp) : State :=
  match s.corpusOf svc with
  | none => s
  | some c => match s.shardOfVid c vid with
    | some x => s.modShard x.id fun k => { k with lastAck := if k.lastAck.before a then a else k.lastAck }
    | none => s

/-- Acknowledge an update (R112 step 8, R155, R622): seal, then the answer with the stamp A. -/
def State.ackUpdate (s : State) (u : Update) : State :=
  let a := u.ack.getD Stamp.zero
  let s := match u.seq with | some q => s.sealRec q a | none => s
  let s := { s with srch := { s.srch with updates := s.srch.updates.filter (·.req != u.req) } }
  match s.req? u.req with
  | none => s
  | some r =>
    let s := s.noteAck r.svc u.vid a
    let s := s.formAnswer u.req { status := u.status, stamp := a, usedUs := s.usedUs r }
    let s := s.dropHold u.req
    match s.part? u.part, u.newAt with
    | some p, some (lf, _) => s.postSample p u lf a
    | _, _ => s

/-- End an update without effect, with a status (R155). -/
def State.endUpdate (s : State) (u : Update) (status : Nat) : State :=
  let s := match u.seq with | some q => s.voidRec q u.part u.index | none => s
  let s := { s with srch := { s.srch with updates := s.srch.updates.filter (·.req != u.req) } }
  (s.plainAnswer u.req status).dropHold u.req

/-- The shard of an update, when it is mirrored and this node owns it (R495): its id and its mirror. -/
def State.mirrorOf (s : State) (u : Update) : Option (Nat × Nat) :=
  match s.comp.map with
  | none => none
  | some m =>
    match s.req? u.req with
    | none => none
    | some r =>
      match s.corpusOf r.svc with
      | none => none
      | some c =>
        match s.shardOfVid c u.vid with
        | some sh => if sh.mirrored && s.holder sh == s.me && m.nodes.any (·.id == sh.mirror) then some (sh.id, sh.mirror) else none
        | none => none

/-- The MIRROR_UPDATE message body of an update (R509). -/
def mirrorBody (shard flags : Nat) (a : Stamp) (rq journal : Bytes) : Bytes :=
  toLE 2 shard ++ toLE 2 flags ++ zeros 4 ++ a.bytes ++ zeros 4 ++ toLE 4 journal.length ++ zeros 4 ++ rq ++ journal

/-- Send a node-to-node message on the first up channel that the map lists (R495). -/
def State.sendNodeFirst (s : State) (dest kind : Nat) (body : Bytes) : State :=
  let (h, s) := s.nodeHeader kind body.length 0
  s.sendMsg { dest := dest, cls := nodeClass kind, firstUp := true } (h ++ pad8 body)

/-- Send an update to the mirror and wait for its MIRROR_ACK (R495). -/
def State.mirrorSend (s : State) (u : Update) (shard mirror : Nat) (a : Stamp) : State :=
  let rq := ((s.req? u.req).map (·.data)).getD []
  let j := match u.seq with | some q => ((s.jrec? q).map JRec.bytes).getD [] | none => []
  let s := s.sendNodeFirst mirror 0x24 (mirrorBody shard 0 a rq j)
  let s := s.modShard shard fun k => { k with unacked := k.unacked ++ [{ ack := a, request := rq, journal := j, upd := u.req, sentAt := s.time.up, sent := true }] }
  s.modUpdate u.req fun v => { v with wait := .mirror a, sentAt := s.time.up }

/-- An update waiting for its mirror holds the append lock of a leaf. -/
def State.appendLocked (s : State) (u : Update) (leaf : Nat) : Bool :=
  s.srch.updates.any fun v => v.req != u.req && v.part == u.part && v.index == u.index &&
    (match v.wait with | .mirror _ => true | _ => false) && (v.newAt.any (·.1 == leaf) || v.oldAt.any (·.1 == leaf))

/-- Leave an update waiting. -/
def State.waitUpdate (s : State) (req : Nat) (w : UpdWait) : State := s.modUpdate req fun u => { u with wait := w }

/-- Apply an update whose leaf and old entry are known (R112 steps 3–8). -/
def State.applyAt (s : State) (p : Part) (x : Desc) (u : Update) (new : Option Nat) (old : Option (Nat × Nat)) : State :=
  let locked := (new.toList ++ (old.map (·.1)).toList).find? fun l => s.appendLocked u l
  let recentFull : Bool := match old with
    | some (lf, _) => (match s.curLeaf p x lf with | some l => l.recentN ≥ 32 | none => false)
    | none => false
  match locked with
  | some l => s.waitUpdate u.req (.append l)
  | none =>
    if recentFull then s.waitUpdate u.req (.recent ((old.map (·.1)).getD 0))
    else
      let staged : Option (Option (Nat × Nat) × State) :=
        match new with
        | none => some (none, s)
        | some lf =>
          match s.streamRecord p x u.index (x.record u.vid lf u.elems u.attrs) with
          | some (pg, ix, s) => some (some (pg, ix), s)
          | none => none
      match staged with
      | none => s.waitUpdate u.req .staging
      | some (place, s) =>
        let v := x.vec (elemsOf x.etype u.elems x.dim)
        let code : Bytes := match new with
          | some lf => (match s.curLeaf p x lf with
              | some l => s.encode p x l.cb (s.leafCent p x l.at_) v
              | none => zeros 6)
          | none => zeros 6
        let newAt : Option (Nat × Nat) := match new with
          | some lf => (s.curLeaf p x lf).map fun l => (lf, x.bodyCap + l.delta)
          | none => none
        let notFound := !u.adds && old.isNone
        let u := { u with newAt := newAt, oldAt := old, rec_ := place, code := leNat code, status := if notFound then stNotFound else stOk }
        let (seq, s) := s.journal 0x01 p.num 1 (b2n u.adds + 2 * b2n (old.isSome || !u.adds) + 4 * b2n notFound) u.index u.jbody
        let u := { u with seq := some seq }
        let s := match new, place with
          | some lf, some (pg, ix) => (match s.curLeaf p x lf with
              | some l => s.appendDelta p x l u.vid pg ix code
              | none => s)
          | _, _ => s
        let s := match old with
          | some (lf, sl) => (match s.curLeaf p x lf with | some l => s.deleteSlot p l sl | none => s)
          | none => s
        let s := if u.adds then s.dirWrite p x u.index u.vid new else if notFound then s else s.dirWrite p x u.index u.vid none
        let (a, s) : Stamp × State := match u.ack with | some a => (a, s) | none => s.partStamp p.num
        let s := s.ackEntries p x u a
        let u := { u with ack := some a, wait := .nothing }
        let s := s.modUpdate u.req fun _ => u
        let s := (new.toList ++ (old.map (·.1)).toList).foldl (fun s l => s.noteChange p.num u.index l) s
        let s := s.noteChange p.num u.index 0xFFFFFFFF
        match s.mirrorOf u with
        | some (sh, m) => s.mirrorSend u sh m a
        | none => s.ackUpdate u

/-- Try an update (R110–R115, R128): apply it, or leave it waiting. -/
def State.tryUpdate (s : State) (req : Nat) : State :=
  match s.update? req with
  | none => s
  | some u =>
    match s.part? u.part with
    | none => s
    | some p =>
      if (match u.wait with | .mirror _ => true | .embed => true | _ => false) then s
      else
        let (x, s) := s.useIndex p u.index
        match x with
        | none => s.endUpdate u stFailed
        | some x =>
          let earlier := (s.srch.updates.takeWhile (·.req != u.req)).any fun v => v.part == u.part && v.index == u.index && v.vid == u.vid
          if earlier then s.waitUpdate req .order
          else if !s.canStamp then s.waitUpdate req .lock
          else if s.tailFull then s.waitUpdate req .trail
          else if u.adds && s.fls.state == .readOnly then s.endUpdate u stFailed
          else
            let (old, s) := if u.upsert || !u.adds then s.lookup p x u.index u.vid else (.notLive, s)
            match old with
            | .waits l => s.waitUpdate req (.lookup l)
            | o =>
              let oldAt : Option (Nat × Nat) := match o with | .found l n => some (l, n) | _ => none
              if !u.adds then s.applyAt p x u none oldAt
              else
                let v := x.vec (elemsOf x.etype u.elems x.dim)
                match s.chooseLeaf p x v with
                | none => s.endUpdate u stFailed
                | some c =>
                  match s.placeIn p x c with
                  | .waits l => s.waitUpdate req (.delta l)
                  | .full =>
                    let s := s.report { cls := 0x0F, part := p.num, kind := 8, unit := p.num, loc := c, detail := u.index }
                    s.endUpdate u stIndexFull
                  | .leaf l => s.applyAt p x u (some l) oldAt

/-- Try the updates whose wait another update's end may have ended: same id, append locks, staging, tail. -/
def State.retryUpdates (s : State) : State :=
  let pick (u : Update) : Bool := match u.wait with | .order | .append _ | .staging | .trail | .lock => true | _ => false
  ((s.srch.updates.filter pick).map (·.req)).foldl State.tryUpdate s

/-- The owner context takes an update (R112): its record, then the first attempt. -/
def State.takeUpdate (s : State) (p : Part) (r : Req) : State :=
  let d := r.data
  let k := rqKind d
  let x := s.desc? p (fieldAt d 0x40 1)
  let z := x.elim 1 (fun x => elemSize x.etype)
  let n := fieldAt d 0x42 2
  let u : Update :=
    { req := r.id, part := p.num, index := fieldAt d 0x40 1, adds := k != 5, upsert := k == 4, vid := rqVid d,
      elems := if k == 5 then [] else slice d 0x50 (n * z), attrs := if k == 5 then [] else slice d (0x50 + n * z) (fieldAt d 0x44 2), wait := .nothing }
  let s := { s with srch := { s.srch with updates := s.srch.updates ++ [u] } }
  (s.tryUpdate r.id).retryUpdates

/-- The owner context takes an embed request (R138, R153, R172): the encoder runs; an upsert goes on as an update. -/
def State.takeEmbed (s : State) (p : Part) (v : Service) (r : Req) : State :=
  let d := r.data
  let prog := (v.stageProg 1).getD 0
  let n := fieldAt d 0x42 2
  let toks := tokensOf (d.drop 0x50) n
  if s.rack ≥ cutOf r.td then s.plainAnswer r.id stPartial
  else if !rqUpsert d then
    let w := 64 + 4 * (Config.encoderWidth prog).val
    let es := allSome ((List.range w).map fun i => embedElem 3 0 (Config.encoderOut prog toks i).toNat)
    match es with
    | none => s.plainAnswer r.id stFailed
    | some es =>
      let (st, s) := s.partStamp r.part
      s.formAnswer r.id { status := stOk, stamp := st, usedUs := s.usedUs r,
                          body := [3, 0] ++ toLE 2 w ++ zeros 4 ++ (es.map fun e => toLE 2 e).flatten }
  else
    match s.desc? p (fieldAt d 0x40 1) with
    | none => s.plainAnswer r.id stFailed
    | some x =>
      match embedVec prog toks x with
      | none => s.plainAnswer r.id stFailed
      | some es =>
        let u : Update :=
          { req := r.id, part := p.num, index := fieldAt d 0x40 1, adds := true, upsert := true, vid := rqVid d,
            elems := (es.map fun e => toLE (elemSize x.etype) e).flatten, attrs := slice d (0x50 + 4 * n) (fieldAt d 0x44 2), wait := .nothing }
        let s := { s with srch := { s.srch with updates := s.srch.updates ++ [u] } }
        (s.tryUpdate r.id).retryUpdates

/-! ### Owner contexts of the standard programs (R156, R252) -/

/-- Cores of a partition's program in ascending tile and core, with the contexts assigned, ascending. -/
def Part.contextsOf (p : Part) (prog : Nat) : List CtxRef :=
  match p.programs.find? (·.id == prog) with
  | none => []
  | some g =>
    (p.tiles.map (·.1)).flatMap fun t =>
      match g.assigns.find? (·.tile == t) with
      | none => []
      | some a => (List.range 9).flatMap fun c =>
          if a.coreMask.getLsbD c then
            (List.range 16).filterMap fun i => if a.ctxMask.getLsbD i then some ⟨9 * t + c, Fin.ofNat 16 i⟩ else none
          else []

/-- A core and a context. -/
def State.core (s : State) (c : Nat) : Core := s.cores.get Core.reset c
def State.ctx (s : State) (r : CtxRef) : Ctx := (s.core r.core).ctxs.get Ctx.reset r.ctx.val
def State.setCore (s : State) (c : Nat) (v : Core) : State := { s with cores := s.cores.set Core.reset c v }
def State.modCtx (s : State) (r : CtxRef) (f : Ctx → Ctx) : State :=
  let k := s.core r.core
  s.setCore r.core { k with ctxs := k.ctxs.modify Ctx.reset r.ctx.val f }

/-- The first context of a service's entry program that can take a request: its core runs, and it holds nothing and is ready. -/
def State.idleOwner (s : State) (p : Part) (v : Service) : Option CtxRef :=
  (p.contextsOf v.entryProg).find? fun r => (s.core r.core).st == .running && (s.ctx r).wait == .ready && (s.ctx r).held.isNone

/-- The oldest waiting request of a queue, unless a context waits for it in AB.QTAKE (assumption 25). -/
def State.nextReq (s : State) (p id : Nat) : Option Req :=
  if !(s.queue p id).takers.isEmpty then none
  else match (s.queue p id).oldest with
    | some e => (match e.req with | some r => s.req? r | none => none)
    | none => none

/-- An owner takes a request and runs its stages as far as they go. -/
def State.runReq (s : State) (p : Part) (v : Service) (r : Req) (o : CtxRef) : State :=
  let slot := ((s.queue p.num r.queue).entries.find? (·.req == some r.id)).elim 0 (·.slot)
  let s := s.modQueue p.num r.queue (·.take slot)
  let s := s.modReq r.id fun r => { r with place := .owned, owner := some o }
  let s := s.modCtx o fun c => { c with held := some r.id, tenant := BitVec.ofNat 9 r.tenant }
  let k := rqKind r.data
  let s := if isQueryKind k then s.takeQuery p v r
    else if isUpdateKind k then s.takeUpdate p r
    else if k == 6 then s.takeEmbed p v r
    else s.takeFilter p r []
  match s.req? r.id with
  | some q => (match q.place with | .owned => s | _ => s.dropHold r.id)
  | none => s.dropHold r.id

/-- Contexts of a service take requests while some wait (R156): the update queue first. -/
def State.kickSvc (s : State) (p : Part) (v : Service) : Nat → State
  | 0 => s
  | fuel + 1 =>
    match s.idleOwner p v with
    | none => s
    | some o =>
      let pick := match (if v.updQ != 0xFFFF then s.nextReq p.num v.updQ else none) with
        | some r => some r
        | none => if v.reqQ != 0xFFFF then s.nextReq p.num v.reqQ else none
      match pick with
      | none => s
      | some r => State.kickSvc (s.runReq p v r o) p v fuel

/-- Every running partition's services take what waits. -/
def State.kick (s : State) : State :=
  if s.inputStopped then s
  else s.grist.parts.foldl (fun s p =>
    if s.works p.num then p.services.foldl (fun s v => if v.kind == 4 then s else s.kickSvc p v 4096) s else s) s

end Sys2Proof.Machine
end

