-- ==== Sys2Proof/Machine/Mapping.lean ====
section
/-! DEFINITION. Sys2Proof/Machine/Mapping.lean: the composition map and what follows from it: its checks, adoption, confirmation, shard roles,
ownership, mirrors and their resynchronisation (R482–R490, R495–R504). -/
namespace Sys2Proof.Machine

/-! ### Reading a map (R482, R483) -/

/-- Entry `i` of a table of entries of `w` bytes at `o`. -/
def entryAt (b : Bytes) (o w i : Nat) : Bytes := slice b (o + w * i) w

def parseMapNode (e : Bytes) : MapNode := ⟨fieldAt e 0 2, fieldAt e 2 1, fieldAt e 3 1 == 1, BitVec.ofNat 48 (fieldAt e 4 6)⟩
def parseMapLink (e : Bytes) : MapLink := ⟨fieldAt e 0 2, fieldAt e 2 1, fieldAt e 4 2, fieldAt e 6 1⟩
def parseMapCorpus (e : Bytes) : MapCorpus := ⟨fieldAt e 0 1, fieldAt e 2 2, fieldAt e 4 2⟩
def parseMapShard (e : Bytes) : MapShard :=
  { id := fieldAt e 0 2, corpus := fieldAt e 2 1, mirrored := (fieldAt e 3 1).testBit 0, takeover := (fieldAt e 3 1).testBit 1,
    owner := fieldAt e 4 2, service := fieldAt e 6 1, mirrorService := fieldAt e 7 1, mirror := fieldAt e 8 2,
    previous := fieldAt e 0xA 2, index := fieldAt e 0xC 1 }
def parseMapLend (e : Bytes) : MapLend :=
  { id := fieldAt e 0 2, flash := fieldAt e 2 1 == 1, lenderPart := fieldAt e 3 1, lender := fieldAt e 4 2, extent := fieldAt e 6 2,
    borrower := fieldAt e 8 2, borrowerPart := fieldAt e 0xA 1 }

/-- No two equal numbers in a list. -/
def distinctNats (l : List Nat) : Bool := l.eraseDups.length == l.length

/-- Field rules of the entries that need no other entry (R483). -/
def nodeEntryOk (e : Bytes) : Bool :=
  1 ≤ fieldAt e 0 2 && fieldAt e 0 2 ≤ 0xFFFE && fieldAt e 2 1 ≤ 2 && fieldAt e 3 1 ≤ 1 && allZero (slice e 0xA 6)
def linkEntryOk (e : Bytes) : Bool :=
  fieldAt e 2 1 ≤ 127 && fieldAt e 3 1 == 0 && (fieldAt e 6 1 ≤ 127 || fieldAt e 6 1 == 0xFF) && fieldAt e 7 1 == 0
def corpusEntryOk (e : Bytes) : Bool :=
  fieldAt e 0 1 ≤ 63 && fieldAt e 1 1 == 0 && 1 ≤ fieldAt e 2 2 && fieldAt e 2 2 ≤ 1024 && allZero (slice e 6 10)
def shardEntryOk (e : Bytes) : Bool :=
  fieldAt e 0 2 ≤ 1023 && fieldAt e 3 1 < 4 && ((fieldAt e 3 1).testBit 0 || (fieldAt e 7 1 == 0 && fieldAt e 8 2 == 0xFFFF)) &&
  fieldAt e 0xC 1 ≤ 15 && allZero (slice e 0xD 19)
def lendEntryOk (e : Bytes) : Bool :=
  fieldAt e 2 1 ≤ 1 && fieldAt e 3 1 ≤ 0x1F && fieldAt e 0xA 1 ≤ 0x1F && allZero (slice e 0xB 5)

/-- A map that breaks neither R482 nor R483 in what they say of one entry alone. -/
def parseMap (b : Bytes) : Option CompMap :=
  let n := fieldAt b 0xC 2
  let l := fieldAt b 0xE 2
  let c := fieldAt b 0x10 2
  let h := fieldAt b 0x12 2
  let e := fieldAt b 0x14 2
  let oL := 64 + 16 * n
  let oC := oL + 8 * l
  let oS := oC + 16 * c
  let oE := oS + 32 * h
  let ns := (List.range n).map (entryAt b 64 16)
  let ls := (List.range l).map (entryAt b oL 8)
  let cs := (List.range c).map (entryAt b oC 16)
  let ss := (List.range h).map (entryAt b oS 32)
  let es := (List.range e).map (entryAt b oE 16)
  if fieldAt b 0 4 != 0x504D4F43 || fieldAt b 4 2 != 1 || fieldAt b 6 2 != 0 || fieldAt b 8 4 == 0 || n == 0 || n > 512 || l > 2048 || c > 64 ||
     h > 1024 || e > 256 || fieldAt b 0x16 2 != 0 || !allZero (slice b 0x24 28) || b.length != oE + 16 * e then none
  else if !(ns.all nodeEntryOk && ls.all linkEntryOk && cs.all corpusEntryOk && ss.all shardEntryOk && es.all lendEntryOk) then none
  else
    let m : CompMap := { epoch := fieldAt b 8 4, nodes := ns.map parseMapNode, links := ls.map parseMapLink, corpora := cs.map parseMapCorpus,
                         shards := ss.map parseMapShard, lends := es.map parseMapLend }
    if distinctNats (m.nodes.map (·.id)) && distinctNats (m.corpora.map (·.id)) && distinctNats (m.shards.map (·.id)) &&
       distinctNats (m.lends.map (·.id)) then some m else none

/-! ### The checks (R487) -/

def CompMap.isSearch (m : CompMap) (n : Nat) : Bool := m.nodes.any fun x => x.id == n && x.kind == 0
def CompMap.lists (m : CompMap) (n : Nat) : Bool := m.nodes.any (·.id == n)
def CompMap.failed (m : CompMap) (n : Nat) : Bool := m.nodes.any fun x => x.id == n && x.failed

/-- The node entry that carries the node's MAC (R485). -/
def State.ownEntry (s : State) (m : CompMap) : Option MapNode := m.nodes.find? fun x => x.kind == 0 && x.mac == s.fab.mac

/-- Every reference names something of the map, of the right kind. -/
def CompMap.refsOk (m : CompMap) : Bool :=
  (m.links.all fun l => m.isSearch l.a && m.lists l.b && (m.isSearch l.b == (l.chB != 0xFF))) &&
  (m.shards.all fun x => m.corpora.any (·.id == x.corpus) && m.isSearch x.owner && (x.mirror == 0xFFFF || m.isSearch x.mirror) &&
    (x.previous == 0xFFFF || m.isSearch x.previous)) &&
  (m.lends.all fun x => m.isSearch x.lender && m.isSearch x.borrower && x.lender != x.borrower)

/-- The shard rules of R484 and R483. -/
def CompMap.shardsOk (m : CompMap) : Bool :=
  (m.corpora.all fun c => (List.range c.count).all fun i => m.shards.any fun x => x.id == c.first + i && x.corpus == c.id) &&
  (m.shards.all fun x => m.corpora.any fun c => c.id == x.corpus && c.first ≤ x.id && x.id < c.first + c.count) &&
  (m.shards.all fun x => (m.shards.all fun y => !(x.corpus == y.corpus && x.owner == y.owner) || x.service == y.service) &&
    (!x.mirrored || (x.mirror != 0xFFFF && x.mirror != x.owner)))

/-- The lend rules: no extent is lent twice, and an extent lent by this node is one its partition holds. -/
def State.lendsOk (s : State) (m : CompMap) (me : Nat) : Bool :=
  (m.lends.all fun x => (m.lends.filter fun y => x.lender == y.lender && x.lenderPart == y.lenderPart && x.extent == y.extent &&
    x.flash == y.flash).length ≤ 1) &&
  (m.lends.all fun x => x.lender != me ||
    match s.part? x.lenderPart with
    | none => false
    | some p => if x.flash then (match p.flashExt x.extent with | some e => !e.nvme | none => false) else x.extent < p.general.length)

/-- The code of the first check that a map fails; 0 for none (R487). -/
def State.mapErr (s : State) (m : CompMap) (raw : Bytes) : Nat :=
  if m.epoch < s.epoch || (m.epoch == s.epoch && raw != s.comp.raw) then 3
  else match s.ownEntry m with
    | none => 4
    | some e =>
      if s.comp.node != 0 && e.id != s.comp.node.toNat then 4
      else if !m.refsOk then 5
      else if !m.shardsOk then 6
      else if !s.lendsOk m e.id then 7
      else 0

/-! ### MIRROR_SYNC's state bytes (R498, R509; assumption 40) -/

/-- A place that holds a part of an index's state. -/
inductive SyncAt where
  | pm (off : Nat)
  | node (l : NodeLoc)
  | scan (addr : Nat)
  deriving DecidableEq, Repr

/-- The regions of one phase of an index's state, in the order in which chapter 03 lays its structures out; later phases are found from what
earlier ones hold. -/
def State.syncPhase (s : State) (p : Part) (index : Nat) (phase : Nat) : List (SyncAt × Nat) :=
  let x := parseDesc (s.pmRead p (descAt index) 256)
  match phase with
  | 0 => [(.pm (descAt index), 256)]
  | 1 => [(.pm x.cbT, 256), (.pm x.routeCb, 2 * routeK * x.dim), (.pm x.nodeT, 8 * x.nodeN), (.pm x.leafT, 8 * x.leafN), (.pm x.dirLog, 16 * x.dirCap)]
  | 2 =>
    ((List.range 8).filterMap fun n =>
      let c := s.cbSlot p x n
      if c.state == 0 then none else some (SyncAt.pm c.data, 2 * x.k * x.dim)) ++
    ((List.range x.nodeN).filterMap fun n => (nodeLoc (s.nodeEntry p x n)).map fun l => (SyncAt.node l, 64 + 64 * 256)) ++
    ((List.range x.leafN).filterMap fun i =>
      let e := s.leafEntry p x i
      match leState e with
      | 1 => some (SyncAt.pm (leOff e), x.leafBytes)
      | 2 => some (SyncAt.pm (leOff e), 64)
      | _ => none)
  | _ =>
    (List.range x.leafN).flatMap fun i =>
      match s.curLeaf p x i with
      | none => []
      | some l =>
        let n := x.bodyCap + x.deltaCap
        [(SyncAt.scan l.bodyCodes, 6 * x.bodyCap), (SyncAt.scan l.deltaCodes, 6 * x.deltaCap), (SyncAt.pm l.meta_, 32 * x.deltaCap),
         (SyncAt.pm l.tombs, ceilDiv n 8), (SyncAt.pm l.prints, 2 * n), (SyncAt.pm l.pageMap, 5 * l.pages),
         (SyncAt.pm l.posMap, ceilDiv (l.pages * l.rpp) 8), (SyncAt.pm l.recent, 512)]

def State.syncRead (s : State) (p : Part) (r : SyncAt × Nat) : Bytes :=
  match r.1 with
  | .pm o => s.pmRead p o r.2
  | .node l => s.nodeRead p l 0 r.2
  | .scan a => s.locRead (.dram (scanAddrStack a) (scanAddrOff a)) r.2

def State.syncWrite (s : State) (p : Part) (r : SyncAt) (b : Bytes) : State :=
  match r with
  | .pm o => s.pmWrite p o b
  | .node l => s.nodeWrite p l 0 b
  | .scan a => s.locWrite (.dram (scanAddrStack a) (scanAddrOff a)) b

/-- Flash pages in use of an extent. -/
def State.usedPages (s : State) (p : Part) (ext : Nat) : List Nat :=
  (s.srch.used.filter fun k => keyPart k == p.num && keyExt k == ext).map keyPage

/-- The state of an index as bytes: the four phases, then its flash pages. -/
def State.syncBytes (s : State) (p : Part) (index : Nat) : Bytes :=
  let x := parseDesc (s.pmRead p (descAt index) 256)
  let mem := ((List.range 4).flatMap fun ph => s.syncPhase p index ph).flatMap (s.syncRead p)
  let pg := s.usedPages p x.ext
  mem ++ toLE 8 pg.length ++ pg.flatMap fun n => toLE 8 n ++ s.flashRead (pageKey p.num x.ext n) 0 16384

/-- Load flash pages from the rest of the state bytes. -/
def State.syncPages (s : State) (p : Part) (ext : Nat) : Nat → Bytes → State
  | 0, _ => s
  | n + 1, b =>
    let k := pageKey p.num ext (fieldAt b 0 8)
    let s := s.stage k 0 (slice b 8 16384) 0
    State.syncPages { s with srch := { s.srch with used := insNat s.srch.used k } } p ext n (b.drop 16392)

/-- Load an index's state from its bytes. -/
def State.syncLoad (s : State) (p : Part) (index : Nat) (b : Bytes) : State :=
  let (s, b) := (List.range 4).foldl (fun (acc : State × Bytes) ph =>
    (acc.1.syncPhase p index ph).foldl (fun (acc : State × Bytes) r => (acc.1.syncWrite p r.1 (acc.2.take r.2), acc.2.drop r.2)) acc) (s, b)
  let x := parseDesc (s.pmRead p (descAt index) 256)
  s.syncPages p x.ext (fieldAt b 0 8) (b.drop 8)

/-- The partition that holds a service of this node. -/
def State.svcPart (s : State) (svc : Nat) : Option Part := s.grist.parts.find? fun p => p.services.any (·.index == svc)

/-- Send the state in MIRROR_SYNC messages of at most a message's bytes. -/
def State.syncSend (s : State) (dest shard : Nat) (cut : Stamp) : Nat → Nat → Bytes → State
  | 0, _, _ => s
  | fuel + 1, seq, b =>
    let last := b.length ≤ 65408
    let body := toLE 2 shard ++ toLE 2 (b2n last) ++ toLE 4 seq ++ cut.bytes ++ zeros 4 ++ b.take 65408
    let s := s.sendNode dest 0x26 body
    if last then s else State.syncSend s dest shard cut fuel (seq + 1) (b.drop 65408)

/-- The owner starts to resynchronise a mirror (R498): it takes the cut stamp and sends the shard's state as of it. -/
def State.startSync (s : State) (x : MapShard) : State :=
  if !s.canStamp then s
  else
    let (c, s) := s.takeStamp
    let s := s.modShard x.id fun k => { k with cut := c, syncSeq := 0 }
    match s.svcPart x.service with
    | none => s
    | some p =>
      let b := s.syncBytes p x.index
      s.syncSend x.mirror x.id c (b.length / 65408 + 1) 0 b

/-! ### Roles and ownership (R497–R501, R504) -/

/-- Count a composition conflict and report it. -/
def State.conflict (s : State) (shard other : Nat) : State :=
  ({ s with comp := { s.comp with conflicts := s.comp.conflicts + 1 } }).reportComp 0 shard other

/-- A claiming pool may begin to own (R499). Of `yieldTo`, all ones stands for CLAIM_REPLY NONE. -/
def State.mayOwn (s : State) (x : MapShard) : Bool :=
  let k := s.shard x.id
  if x.previous == 0xFFFF || x.previous == s.me then true
  else if x.takeover && s.mapFailed x.previous then k.inSync && k.toApply.isEmpty
  else match k.yieldTo with
    | none => false
    | some y => if y == Stamp.ones then k.inSync && k.toApply.isEmpty else !k.lastAck.before y

/-- Ownership starts (R499): the ownership stamp is taken, and requests held for the claim repeat step 2 (R500). -/
def State.startOwn (s : State) (x : MapShard) : State :=
  if !s.canStamp then s
  else
    let k := s.shard x.id
    let (st, s) := if k.ostamp == Stamp.zero then s.takeStamp else (k.ostamp, s)
    let s := s.modShard x.id fun k => { k with role := .owner, ostamp := st, yieldTo := none, inSync := false }
    let s := if x.mirrored then s.startSync x else s
    (s.retryHeld (·.claim)).kick

/-- Try to begin to own a claimed shard. -/
def State.tryOwn (s : State) (x : MapShard) : State :=
  if (s.shard x.id).role == .claiming && s.mapConfirmed && s.mayOwn x then s.startOwn x else s

/-- Updates of the shard that this node admitted and has not answered. -/
def State.updatesOf (s : State) (x : MapShard) : List Req :=
  s.req.reqs.filter fun r => isUpdateKind (rqKind r.data) && (match r.place with | .answered _ => false | _ => true) &&
    match s.corpusOf r.svc with
    | some c => c.id == x.corpus && (match s.shardOfVid c (rqVid r.data) with | some y => y.id == x.id | none => false)
    | none => false

/-- Queries of the shard's corpus that this node admitted and has not answered. -/
def State.queriesOf (s : State) (x : MapShard) : List Req :=
  s.req.reqs.filter fun r => !isUpdateKind (rqKind r.data) && r.svc == x.service

/-- The node drops a shard's state (R501, R504): its index is absent, unless another shard of the node lies in it. -/
def State.dropShard (s : State) (x : MapShard) (svc : Nat) : State :=
  let other := match s.comp.map with
    | some m => m.shards.any fun y => y.id != x.id && y.index == x.index && s.holder y == s.me
    | none => false
  let s := s.modShard x.id fun k => { role := .none, override := k.override, lastAck := Stamp.zero }
  if other then s
  else match s.svcPart svc with
    | some p => s.pmSet p (descAt x.index + 0x80) 1 0
    | none => s

/-- A shard that was yielded is kept until its queries have retired, then mirrored or dropped (R501). -/
def State.settleYield (s : State) (x : MapShard) : State :=
  let k := s.shard x.id
  if k.role == .yielding && k.yieldTo.isSome && (s.queriesOf x).isEmpty then
    if x.mirrored && x.mirror == s.me then s.modShard x.id fun k => { k with role := .resyncing, inSync := false, yieldTo := none, ostamp := Stamp.zero }
    else s.dropShard x x.service
  else s

/-- Settle every yielded shard. -/
def State.settleYields (s : State) : State :=
  match s.comp.map with
  | none => s
  | some m => if m.shards.any (fun x => (s.shard x.id).role == .yielding) then m.shards.foldl State.settleYield s else s

/-- The role of one shard under a newly adopted or newly confirmed map; `old` is its entry in the map before (R497–R501). -/
def State.assignRole (s : State) (old : Option CompMap) (x : MapShard) : State :=
  let k := s.shard x.id
  let was : Option MapShard := match old with | some m => m.shards.find? (·.id == x.id) | none => none
  let mine := s.holder x == s.me
  if mine then
    if k.role == .owner then
      let changed : Bool := match was with | some y => y.mirrored != x.mirrored || y.mirror != x.mirror | none => false
      if !changed then s
      else
        let s := if x.mirrored then s.startSync x else s
        let items := (s.shard x.id).unacked
        if x.mirrored then
          let s := items.foldl (fun s i => s.sendNodeFirst x.mirror 0x24 (mirrorBody x.id 0 i.ack i.request i.journal)) s
          s.modShard x.id fun k => { k with held := false, unacked := k.unacked.map fun i => { i with sentAt := s.time.up } }
        else
          let s := s.modShard x.id fun k => { k with held := false, unacked := [] }
          items.foldl (fun s i => match s.update? i.upd with | some u => s.ackUpdate u | none => s) s
    else if k.ostamp != Stamp.zero && k.role == .none then s.startOwn x
    else
      let failedPrev := x.takeover && s.mapFailed x.previous
      if k.role == .resyncing || (failedPrev && !k.inSync) then
        (s.modShard x.id fun k => { k with role := .unavailable }).conflict x.id x.previous |>.retryHeld (·.claim)
      else (s.modShard x.id fun k => { k with role := .claiming, yieldTo := if k.role == .claiming then k.yieldTo else none }).tryOwn x
  else if k.role == .owner then s.modShard x.id fun k => { k with role := .yielding, yieldTo := none, held := false }
  else if k.role == .yielding then s.settleYield x
  else if x.mirrored && x.mirror == s.me then
    let kept := k.inSync || k.role == .resyncing
    s.modShard x.id fun k => { k with role := if k.inSync then .inSync else .resyncing, sync := if kept then k.sync else [], syncSeq := if kept then k.syncSeq else 0 }
  else if k.role == .none then s
  else s.modShard x.id fun k => { role := .none, override := k.override }

/-- Shards that the map no longer lists have no role. -/
def State.dropUnlisted (s : State) (m : CompMap) : State :=
  { s with comp := { s.comp with shards := s.comp.shards.filter fun e => m.shards.any fun x => x.id == e.1 } }

/-- Give every shard of the map its role. While the map is unconfirmed the node owns no shard (R490). -/
def State.assignRoles (s : State) (old : Option CompMap) : State :=
  match s.comp.map with
  | none => s
  | some m => if s.mapConfirmed then m.shards.foldl (fun s x => s.assignRole old x) (s.dropUnlisted m) else s

/-- The held map becomes confirmed (R490). -/
def State.confirmMap (s : State) : State :=
  if s.comp.confirmed || s.comp.map.isNone then s
  else (({ s with comp := { s.comp with confirmed := true } }).assignRoles s.comp.map).retryHeld (fun _ => true)

/-- An override ends when a map of a higher epoch is adopted (R504). -/
def State.endOverrides (s : State) (epoch : Nat) : State :=
  { s with comp := { s.comp with shards := s.comp.shards.map fun e =>
      (e.1, { e.2 with override := match e.2.override with | some (n, v) => if epoch > v then none else some (n, v) | none => none }) } }

/-- Adopt a map that has passed the checks (R485, R488, R489): the identifier, the map, its stored copy, the roles, and held requests. -/
def State.adopt (s : State) (m : CompMap) (raw : Bytes) (confirmed : Bool) : State :=
  let old := s.comp.map
  let id := match s.ownEntry m with | some e => e.id | none => 0
  let s := if s.comp.node == 0 then
      { s with time := { s.time with node := BitVec.ofNat 16 id, notBefore := s.rack + 1 }, comp := { s.comp with node := BitVec.ofNat 16 id } }
    else s
  let wanted := match s.comp.wanted with | some (e, n) => if m.epoch ≥ e then none else some (e, n) | none => none
  let s := { s with comp := { s.comp with map := some m, raw := raw, stored := raw, confirmed := confirmed, wanted := wanted } }
  let s := s.caskEvent 0xFF 7 (toLE 2 s.comp.node.toNat ++ zeros 6 ++ raw)
  let s := (s.endOverrides m.epoch).assignRoles old
  ((s.retryHeld (fun _ => true)).retryUpdates).kick

/-- A rejected map changes nothing but the error code; one of the held epoch with other bytes counts as a conflict (R486, R487). -/
def State.rejectMap (s : State) (code : Nat) (same : Bool) : State :=
  let s := { s with comp := { s.comp with err := BitVec.ofNat 8 code } }
  if same then s.conflict 0 0xFFFF else s

/-- A map is offered (R486, R487): equal to the held one it confirms it; else it is rejected or adopted. -/
def State.offerMap (s : State) (raw : Option Bytes) : State :=
  match raw with
  | none => s.rejectMap 1 false
  | some b =>
    if s.comp.map.isSome && b == s.comp.raw then s.confirmMap
    else match parseMap b with
      | none => s.rejectMap 2 false
      | some m =>
        match s.mapErr m b with
        | 0 => s.adopt m b true
        | c => s.rejectMap c (c == 3 && m.epoch == s.epoch)

/-- COMP_CTRL.GO (R486, R515): the buffer is read over the host port; `buf` is what the host returned, none where the read failed. -/
def State.compGo (s : State) (buf : Option Bytes) : State :=
  if s.comp.busy then { s with comp := { s.comp with refused := true } }
  else
    let n := s.comp.hostLen.toNat
    if n == 0 || n > 62528 || n % 8 != 0 || s.comp.hostAddr.toNat % 8 != 0 then s.rejectMap 1 false
    else match buf with
      | some b => if b.length == n then s.offerMap (some b) else s.rejectMap 1 false
      | none => s.rejectMap 1 false

/-- The node starts from its stored map, unconfirmed (R486, R490). -/
def State.loadStored (s : State) : State :=
  if s.comp.map.isSome then s
  else match parseMap s.comp.stored with
    | none => s
    | some m => if s.mapErr m s.comp.stored == 0 then s.adopt m s.comp.stored s.comp.alone else s

/-- Send MAP_FETCH for a wanted epoch at once when that has not happened yet (R489). -/
def State.fetchNow (s : State) : State :=
  match s.comp.wanted with
  | some (e, n) =>
    if s.comp.fetchAt == 0 && n != 0xFFFF then
      let s := { s with comp := { s.comp with fetchAt := s.time.up + 1 } }
      s.sendNode n 0x20 (toLE 4 e ++ zeros 4)
    else s
  | none => s

end Sys2Proof.Machine
end

