-- ==== Sys2Proof/Machine/RequestWork.lean ====
section
/-! DEFINITION. Sys2Proof/Machine/RequestWork.lean: what the commands do of the request path: the eight request kinds, holds, refusals, answers, peers
and the waits of updates (R112–R115, R135–R138, R148, R150, R166, R168, R171, R415, R493). -/
namespace Sys2Proof.Machine

/-- A request message of a kind: the kind is the command's, the rest is the message. -/
def ofKind (k : Nat) (data : Bytes) : Bytes := toLE 1 k ++ data.drop 1

/-- A request is taken whole: admitted, held, forwarded or refused (R146), and idle contexts take what waits (R156). -/
def State.request (s : State) (src : Source) (d : Bytes) : State := ((s.takeRequest src d).fetchNow).kick

/-- A held query's stamp has passed: it goes into its queue (R150). -/
def State.releaseHold (s : State) (req : Nat) : State :=
  match s.req? req with
  | none => s
  | some r =>
    match r.place, s.part? r.part with
    | .hold, some p =>
      let s := s.advanceToRack ((rqStamp r.data).time.toNat + 1)
      let s := s.modReq req fun r => { r with place := .queued }
      (s.enqueueReq p r).kick
    | _, _ => s

/-- The oldest refusal leaves the refusal buffer; a request that waits for room in it is dealt with, and its credit units free (R148). -/
def State.refusalLeaves (s : State) : State :=
  match s.req.refusals with
  | [] => s
  | e :: rest =>
    let s := { s with req := { s.req with refusals := rest }, disp := { s.disp with fill := s.disp.fill - 1 } }
    let s := match e.src with
      | .nvme sq cid => s.nvmeAnswer sq cid e.data
      | .fabric .. => s
    match s.req.stalled with
    | [] => s
    | w :: ws =>
      let s := { s with req := { s.req with stalled := ws } }
      let s := match w.src with
        | .fabric ch _ cls _ _ => s.freeUnits ch.val cls.val w.units
        | .nvme .. => s
      s.takeRequest w.src w.data 0 w.colour w.acct

/-! ### The directory merge (R113) -/

/-- The entries of the directory log in use: id and the leaf, none for absent. -/
def State.logEntries (s : State) (p : Part) (x : Desc) : List (Nat × Option Nat) :=
  (List.range x.dirCap).filterMap fun i =>
    let e := s.pmRead p (x.dirLog + 16 * i) 16
    match fieldAt e 6 1 with
    | 1 => some (fieldAt e 0 6, some (fieldAt e 8 4))
    | 2 => some (fieldAt e 0 6, none)
    | _ => none

/-- A bucket chain: its pages and its entries. -/
def State.bucketChain (s : State) (p : Part) (x : Desc) : Nat → Nat → List Nat × List (Nat × Nat)
  | 0, _ => ([], [])
  | fuel + 1, page =>
    let b := s.flashRead (pageKey p.num x.ext page) 0 16384
    let n := min 1632 (fieldAt b 0 2)
    let es := (List.range n).map fun i => (fieldAt b (64 + 10 * i) 6, fieldAt b (64 + 10 * i + 6) 4)
    let o := fieldAt b 8 5
    if o == 0 then ([page], es)
    else
      let (ps, r) := State.bucketChain s p x fuel o
      (page :: ps, es ++ r)

/-- The image of one bucket page. -/
def bucketPage (es : List (Nat × Nat)) (ovf : Nat) : Bytes :=
  let b := toLE 2 es.length ++ zeros 6 ++ toLE 5 ovf ++ zeros 51 ++ (es.map fun e => toLE 6 e.1 ++ toLE 4 e.2).flatten
  b ++ zeros (16384 - b.length)

/-- Write a bucket's entries over a list of pages, 1,632 a page. -/
def State.writeChain (s : State) (p : Part) (x : Desc) : List Nat → List (Nat × Nat) → State
  | [], _ => s
  | pg :: r, es => State.writeChain (s.stage (pageKey p.num x.ext pg) 0 (bucketPage (es.take 1632) (r.headD 0)) 2) p x r (es.drop 1632)

/-- Rewrite one bucket with what the log says of its ids: whether that was done. A bucket whose chain finds no page stays as it is. -/
def State.mergeBucket (s : State) (p : Part) (x : Desc) (b : Nat) (log : List (Nat × Option Nat)) : Bool × State :=
  let (pages, es) := s.bucketChain p x 1024 (x.dirBase + b)
  let kept := es.filter fun e => !log.any (·.1 == e.1)
  let all := kept ++ log.filterMap fun e => e.2.map fun l => (e.1, l)
  let need := max 1 (ceilDiv all.length 1632)
  let got : Option (List Nat × State) :=
    if need ≤ pages.length then some (pages.take need, s.freePages p.num x.ext ((pages.drop need).filter (· != 0)))
    else (s.takePages p x.ext (need - pages.length) pages.getLast?).map fun r => (pages ++ r.1, r.2)
  match got with
  | none => (false, s)
  | some (ps, s) => (true, s.writeChain p x ps all)

/-- The directory merge of an index (R113): each bucket that holds logged ids is rewritten and its log entries go. -/
def State.dirMergeNow (s : State) (p : Part) (n : Nat) (x : Desc) : State :=
  let log := s.logEntries p x
  let bucketOf (e : Nat × Option Nat) : Nat := idHash e.1 % max 1 x.dirBuckets
  let buckets := (log.map bucketOf).eraseDups
  let (left, s) := buckets.foldl (fun (acc : List (Nat × Option Nat) × State) b =>
    let mine := log.filter (bucketOf · == b)
    let (ok, s) := acc.2.mergeBucket p x b mine
    if ok then (acc.1, s) else (acc.1 ++ mine, s)) (([] : List (Nat × Option Nat)), s)
  let s := s.pmWrite p x.dirLog (zeros (16 * x.dirCap))
  let s := { s with srch := { s.srch with dirFill := s.srch.dirFill.set 0 (p.num * 16 + n) 0 } }
  left.foldl (fun s e => s.dirWrite p x n e.1 e.2) s

/-- The log's fill has reached its merge level. -/
def State.dirDue (s : State) (p : Part) (n : Nat) (x : Desc) : Bool := s.srch.dirFill.get 0 (p.num * 16 + n) * 100 ≥ x.dirMerge * x.dirCap

/-! ### Peers and the end of a request -/

/-- A peer's answer (R198), or the answer to a request that this node forwarded (R493). -/
def State.peerAnswer (s : State) (ch node : Nat) (a : Bytes) : State :=
  match s.req.relays.find? fun r => r.tag.toNat == fieldAt a 8 8 && r.stamp == stampAt a 0x10 with
  | some r => ({ s with req := { s.req with relays := s.req.relays.erase r } }).sendAnswer r.src [] a 0
  | none => (s.peerArrived ch node a).kick

/-- The cut time of a request (R171): an owner's query stops and is answered; a held query is answered with no entries. Updates have
no cut time (R172), and a request that waits in its queue is dealt with when it is taken. -/
def State.budgetCut (s : State) (req : Nat) : State :=
  match s.req? req with
  | none => s
  | some r =>
    match s.query? req with
    | some q => let s := s.advanceToRack (cutOf r.td); (s.cutQuery q).kick
    | none =>
      match r.place with
      | .hold =>
        let s := s.advanceToRack (cutOf r.td)
        let q : Query := { req := req, part := r.part, svc := r.svc, stamp := rqStamp r.data, index := 0, dist := 0, k := fieldAt r.data 0x42 2, beam := 0,
                           widen := 0, cands := 0, rescore := 0, level := 0, ranking := false, raw := [], q := [], pred := [], ctx := [], stage := .walk }
        s.answerQuery q { k := q.k } true false 0 0 []
      | _ => s

end Sys2Proof.Machine
end

