-- ==== Sys2Proof/Machine/Failures.lean ====
section
/-! DEFINITION. Sys2Proof/Machine/Failures.lean: what a fence or a failure does with requests, and partitions that fail (R155, R169, R171,
R271, R377, R378, R434, R594). -/
namespace Sys2Proof.Machine

/-- Drop a request without an answer. -/
def State.dropReq (s : State) (id : Nat) : State :=
  match s.req? id with
  | none => s
  | some r =>
    let s := s.unqueue r.part r.queue id
    let s := s.modQueue r.part r.ansQ fun q => { q with reserved := q.reserved - 1 }
    let s := { s with srch := { s.srch with updates := s.srch.updates.filter (·.req != id) }, req := { s.req with reqs := s.req.reqs.filter (·.id != id) } }
    s.dropQuery id

/-- Place a request at the head of the queue it was taken from. -/
def State.putBack (s : State) (r : Req) : State :=
  match s.part? r.part with
  | none => s
  | some p =>
    let s := (s.unqueue r.part r.queue r.id).modReq r.id fun r => { r with place := .queued, owner := none }
    s.enqueueReq p r true

/-- A fence takes a query, an embed or a filter request from its owner (R169): again at the head of its queue, once, with half its budget
left; else FAILED. -/
def State.reQueue (s : State) (id : Nat) : State :=
  match s.req? id with
  | none => s
  | some r =>
    let s := s.dropQuery id
    if !r.rerun && 2 * (r.td - s.rack) ≥ r.td - r.ta then s.putBack { r with rerun := true } |>.modReq id fun r => { r with rerun := true }
    else s.plainAnswer id stFailed

/-- Settle an update that a fence took from its context (R271, R594): one whose acknowledgement stamp is written has taken effect and is
acknowledged (by its mirror's MIRROR_ACK where the shard is mirrored); any other is undone and stands at the head of its queue again. -/
def State.settleFenced (s : State) (id : Nat) : State :=
  match s.req? id with
  | none => s
  | some r =>
    match s.update? id with
    | none => s.putBack r
    | some u =>
      if u.ack.isSome then s.modReq id fun r => { r with owner := none }
      else
        let s := match u.seq with | some q => s.voidRec q u.part u.index | none => s
        let s := { s with srch := { s.srch with updates := s.srch.updates.filter (·.req != id) } }
        s.putBack r

/-- A request is an update for a fence: an update, or an upsert of a passage that has gone on as one. -/
def State.isUpdating (s : State) (r : Req) : Bool := isUpdateKind (rqKind r.data) || (s.update? r.id).isSome

/-- Held requests of a fenced core's contexts pass (R271). -/
def State.passRequest (s : State) (id : Nat) : State :=
  match s.req? id with
  | none => s.dropHold id
  | some r =>
    let s := s.dropHold id
    match r.place with
    | .owned => if s.isUpdating r then s.settleFenced id else s.reQueue id
    | _ => s

/-- A context's exception disposes of its request (R269 step 2). -/
def State.faultRequest (s : State) (id : Nat) : State :=
  match s.req? id with
  | none => s.dropHold id
  | some r =>
    let s := s.dropHold id
    match r.place with
    | .owned => if s.isUpdating r then s.settleFenced id else (s.dropQuery id).plainAnswer id stFailed
    | _ => s

/-- What a failure does with one request of a failed partition (R378, R434); `lost` where the journal tail is lost too. -/
def State.failRequest (s : State) (lost : Bool) (r : Req) : State :=
  match r.place with
  | .answered _ => s
  | .owned =>
    if s.isUpdating r then
      match s.update? r.id with
      | some u =>
        if u.ack.isSome then (if lost then s.dropReq r.id else s)
        else if lost then
          ({ s with srch := { s.srch with updates := s.srch.updates.filter (·.req != r.id) } }).plainAnswer r.id stFailed |>.dropHold r.id
        else s.endUpdate u stFailed
      | none => (s.plainAnswer r.id stFailed).dropHold r.id
    else (s.plainAnswer r.id stFailed).dropQuery r.id
  | _ => s.plainAnswer r.id (if isUpdateKind (rqKind r.data) then stFailed else stUnavailable)

/-- A partition enters the failed state. -/
def State.failPart (s : State) (p : Nat) (lost : Bool) : State :=
  let s := s.setPstate p .failed
  (s.req.reqs.filter (·.part == p)).foldl (fun s r => s.failRequest lost r) s

/-- A plain stack has failed while the node ran: part of the node reserve is lost (R49, R378). -/
def State.reserveDown (s : State) : Bool := (List.range 8).any fun k => (s.memCtl k).state == 2

/-- Requests that are answered FAILED or DEGRADED and whose answer has not left. -/
def State.badAnswers (s : State) : List Nat :=
  (s.req.reqs.filter fun r => match r.place with
    | .answered b => fieldAt b 2 1 == stFailed || fieldAt b 2 1 == stDegraded
    | _ => false).map (·.id)

/-- Action bits 1 to 3 of the record of a fault detected in `s` whose handling led to `t` (R587): a request answered FAILED or DEGRADED, a
partition in the failed state, a change of the storage state. -/
def State.actionBits (s t : State) : Nat :=
  2 * b2n (t.badAnswers.any fun i => !s.badAnswers.contains i) +
  4 * b2n (t.grist.parts.any fun p => t.pstate p.num == .failed && s.pstate p.num != .failed) + 8 * b2n (t.fls.state != s.fls.state)

/-- Report a fault and handle it: the record comes first and says what the handling leads to. -/
def State.reportThen (s : State) (r : Report) (f : State → State) : State := f (s.report { r with action := r.action + s.actionBits (f s) })

/-- A stack fails (R377, R378); `cause` is the bit of MEM_ERR that led to it. A partition with any extent on a mash stack fails with it, as
R377 has it at a load (DEDUCED, assumption 32). -/
def State.failStack (s : State) (k cause : Nat) : State :=
  let s := s.modMem k fun m =>
    { m with state := 2, trainPend := 0, cmds := m.cmds.map fun c => if c.finished.isNone then { c with finished := some 6 } else c,
             banks := m.banks.map fun e => (e.1, { e.2 with state := if e.2.state == 1 || e.2.state == 2 then 4 else e.2.state, cmd := none }) }
  s.reportThen { cls := 0x08, cause := cause, kind := 4, unit := k } fun s =>
    if s.grist.state != .running then s
    else if isMash k then
      (s.grist.parts.filter fun p => p.mem.any fun e => e.stack == k).foldl (fun s p => s.failPart p.num false) s
    else
      let s := { s with grist := { s.grist with admitting := false }, media := { s.media with reserveLost := true } }
      s.grist.parts.foldl (fun s p => s.failPart p.num true) s

/-- Storage fails (R434): every partition that owns a flash extent fails. -/
def State.failStorage (s : State) : State :=
  let s := { s with fls := { s.fls with state := .failed } }
  (s.grist.parts.filter Part.ownsFlash).foldl (fun s p => s.failPart p.num false) s

end Sys2Proof.Machine
end

