-- ==== Sys2Proof/Machine/CoreOps.lean ====
section
/-! DEFINITION. Sys2Proof/Machine/CoreOps.lean: what every instruction of a context shares: the context address map and its checks, ready and
waiting contexts, start-up, exceptions and fences of a core (R61, R62, R241–R249, R268–R278). -/
namespace Sys2Proof.Machine

/-! ### Registers -/

def Ctx.rx (c : Ctx) (r : Fin 32) : BitVec 64 := c.x.get 0 r.val
/-- Write an integer register; x0 stays 0. -/
def Ctx.wx (c : Ctx) (r : Fin 32) (v : BitVec 64) : Ctx := if r.val = 0 then c else { c with x := c.x.set 0 r.val v }
def Ctx.rf (c : Ctx) (r : Fin 32) : BitVec 64 := c.f.get 0 r.val
def Ctx.wf (c : Ctx) (r : Fin 32) (v : BitVec 64) : Ctx := { c with f := c.f.set 0 r.val v }

/-! ### Where things lie -/

/-- Tile and number of a core. -/
def tileOf (core : Nat) : Nat := core / 9
def coreNo (core : Nat) : Nat := core % 9

/-- The partition that owns a core's tile. -/
def State.corePart (s : State) (core : Nat) : Option Part := s.ownerOf (tileOf core)

/-- The core is enabled by its partition (R45). -/
def State.coreEnabled (s : State) (core : Nat) : Bool := (s.enables (tileOf core)).getLsbD (coreNo core)

/-- Programs assigned to a tile, and to a core, in ascending id order. -/
def Part.tileProgs (p : Part) (t : Nat) : List Program := p.programs.filter fun g => g.assigns.any (·.tile == t)
def Part.coreProgs (p : Part) (core : Nat) : List Program :=
  p.programs.filter fun g => g.assigns.any fun a => a.tile == tileOf core && a.coreMask.getLsbD (coreNo core)

/-- Where a program's code lies in a tile's SRAM (R61). -/
def Part.codeOff (p : Part) (t id : Nat) : Nat := (((p.tileProgs t).filter (·.id < id)).map (·.code.length)).sum

/-- Where a program's data lies in a core's SRAM (R61). -/
def Part.dataOff (p : Part) (core id : Nat) : Nat := (((p.coreProgs core).filter (·.id < id)).map fun g => g.data.length + g.zeroed).sum

/-- The program assigned to a context. -/
def Part.ctxProg (p : Part) (r : CtxRef) : Option Program :=
  p.programs.find? fun g => g.assigns.any fun a => a.tile == tileOf r.core && a.coreMask.getLsbD (coreNo r.core) && a.ctxMask.getLsbD r.ctx.val

/-- A context at its entry point (R62, R244, R249), its fault count and times kept. -/
def Part.entryCtx (p : Part) (r : CtxRef) (g : Program) (old : Ctx) (now : Nat) : Ctx :=
  let c : Ctx := { pc := BitVec.ofNat 64 (0x400000 + p.codeOff (tileOf r.core) g.id + g.entry), wait := .ready, prog := g.id, startAt := now,
                   faults := old.faults, faultAt := old.faultAt }
  ((c.wx 10 (BitVec.ofNat 64 (p.dataOff r.core g.id))).wx 11 (BitVec.ofNat 64 r.ctx.val)).wx 2 (BitVec.ofNat 64 (0x30000 + 0x1000 * (r.ctx.val + 1)))

/-! ### Ready contexts (R246) -/

/-- A context may issue. -/
def Ctx.isReady (c : Ctx) : Bool := c.wait == .ready

/-- The core turns to the next ready context after the current one, if there is one. -/
def State.pickNext (s : State) (core : Nat) : State :=
  let k := s.core core
  match (List.range 16).find? fun i => (k.ctxs.get Ctx.reset ((k.cur.val + 1 + i) % 16)).isReady with
  | some i => s.setCore core { k with cur := Fin.ofNat 16 (k.cur.val + 1 + i) }
  | none => s

/-- The contexts' diversion to their hooks while the core drains (R272). -/
def Ctx.divert (c : Ctx) (st : CoreState) : Ctx :=
  if st == .draining && c.isReady && !c.diverted && c.abfhook != 0 then
    { c with abfepc := c.pc, abcause := 1, pc := c.abfhook, hook := true, diverted := true }
  else c

/-- A context becomes ready; an idle core turns to it. -/
def State.wake (s : State) (r : CtxRef) : State :=
  let s := s.modCtx r fun c => ({ c with wait := .ready }).divert (s.core r.core).st
  let k := s.core r.core
  if (k.ctxs.get Ctx.reset k.cur.val).isReady then s else s.setCore r.core { k with cur := r.ctx }

/-- The context stops issuing and waits; the core turns to another (R246). -/
def State.block (s : State) (r : CtxRef) (w : CtxWait) : State := (s.modCtx r fun c => { c with wait := w }).pickNext r.core

/-! ### Retiring -/

/-- An instruction retires; its issue cycle is charged to the context's tag (R261, R510). A jump back to abfepc leaves the hook (R272). -/
def State.retireTo (s : State) (p : Part) (r : CtxRef) (pc : BitVec 64) : State :=
  let s := s.charge (s.ctx r).tenant p.num 1 1
  s.modCtx r fun c => { c with pc := pc, instret := c.instret + 1, grant := false, hook := c.hook && pc != c.abfepc }
def State.retire (s : State) (p : Part) (r : CtxRef) (n : Nat) : State := s.retireTo p r ((s.ctx r).pc + BitVec.ofNat 64 n)

/-- A result goes to a register, and the instruction retires. -/
def State.retireX (s : State) (p : Part) (r : CtxRef) (n : Nat) (rd : Fin 32) (v : BitVec 64) : State :=
  (s.modCtx r (·.wx rd v)).retire p r n

/-! ### Entries and slots a context holds -/

/-- Release every queue entry that a context holds (R254). -/
def State.releaseTaken (s : State) (p : Part) (r : CtxRef) : State :=
  let s := (s.ctx r).taken.foldl (fun s e => s.modQueue p.num e.queue (·.release e.slot)) s
  s.modCtx r fun c => { c with taken := [] }

/-- Free a context's vector slot (R249). -/
def State.freeSlotOf (s : State) (r : CtxRef) : State :=
  match (s.ctx r).slot with
  | none => s
  | some n =>
    let s := s.modCtx r fun c => { c with slot := none, vl := 0, vtype := BitVec.ofNat 64 (2 ^ 63), vstart := 0 }
    let k := s.core r.core
    s.setCore r.core { k with slots := k.slots.erase n.val }

/-- Bind a slot (R249). -/
def State.bindSlot (s : State) (r : CtxRef) (n : Fin 8) : State :=
  let s := s.modCtx r fun c => { c with slot := some n, vl := 0, vtype := BitVec.ofNat 64 (2 ^ 63), vstart := 0 }
  let k := s.core r.core
  s.setCore r.core { k with slots := k.slots.erase n.val }

/-- The lowest free vector slot of a core (assumption 20). -/
def State.freeVSlot (s : State) (core : Nat) : Option (Fin 8) :=
  (List.finRange 8).find? fun n => !((s.core core).ctxs.any fun e => e.2.slot == some n)

/-- Take a context out of what it waits in: the queues and the slot line. -/
def State.unwait (s : State) (p : Part) (r : CtxRef) : State :=
  let s := match (s.ctx r).wait with
    | .qtake q _ => s.modQueue p.num q fun v => { v with takers := v.takers.filter (· != r) }
    | .qput q _ _ => s.modQueue p.num q fun v => { v with posters := v.posters.filter (· != r) }
    | _ => s
  let k := s.core r.core
  s.setCore r.core { k with slotWait := k.slotWait.filter (· != r.ctx) }

/-! ### Exceptions (R268–R270) -/

/-- An exception of a context: its record, its request, its slot, reservation and entries, and its restart or its stop. -/
def State.trap (s : State) (p : Part) (r : CtxRef) (cause tval : Nat) : State :=
  let c := s.ctx r
  let s := s.reportThen { cls := 0x06, part := p.num, kind := 1, unit := r.core, loc := c.pc.toNat, tag := c.tenant.toNat,
                          detail := cause % 256 + 256 * r.ctx.val + (tval * 4096) % 2 ^ 64 }
    fun s => match c.held with | some q => s.faultRequest q | none => s
  let s := ((s.unwait p r).freeSlotOf r).releaseTaken p r
  let now := s.rack
  let recent := (now :: c.faultAt).filter (· + 1000000000 > now)
  let c' : Ctx := { s.ctx r with resv := none, faults := if c.faults == 255 then 255 else c.faults + 1, faultAt := recent }
  let s := if recent.length ≥ 8 then
      let s := s.modCtx r fun _ => { c' with wait := .stopped, loads := [], outst := 0 }
      let s := s.report { cls := 0x06, part := p.num, kind := 1, unit := r.core, loc := c.pc.toNat, tag := c.tenant.toNat,
                          detail := cause % 256 + 256 * r.ctx.val + (tval * 4096) % 2 ^ 64 }
      { s with tiles := s.tiles.modify TileRegs.reset (tileOf r.core) fun t => { t with cfault := bput t.cfault (coreNo r.core) true } }
    else match p.ctxProg r with
      | some g => s.modCtx r fun _ => (p.entryCtx r g c' s.time.up).divert (s.core r.core).st
      | none => s.modCtx r fun _ => { c' with wait := .unassigned }
  if (s.ctx r).isReady then s else s.pickNext r.core

/-! ### Accesses (R241, R242, R362) -/

/-- The location that a context address names, when the map and the partition allow the access (R241, R242). -/
def Part.mapAddr (p : Part) (core a n : Nat) (store : Bool) : Option Loc :=
  let t := tileOf core
  let inTile (t o : Nat) : Option Loc := if o + n ≤ 0x400000 && !(store && o < 0x100000) then some (.tile t o) else none
  if a < 0x40000 then (if a + n ≤ 0x40000 then some (.core core a) else none)
  else if 0x400000 ≤ a && a < 0x800000 then inTile t (a - 0x400000)
  else if 0x10000000 ≤ a && a < 0x10000000 + 96 * 0x400000 then
    let u := (a - 0x10000000) / 0x400000
    if p.owns u then inTile u ((a - 0x10000000) % 0x400000) else none
  else if 0x100000000000 ≤ a && a < 0x200000000000 then
    let o := a - 0x100000000000
    if o + n ≤ p.memBytes then (p.memLoc o).map fun (k, v) => .dram k v else none
  else if 0x200000000000 ≤ a && a < 0x200000000000 + 8 * 2 ^ 37 then
    let o := a - 0x200000000000
    let k := 8 + o / 2 ^ 37
    if p.inScan k (o % 2 ^ 37) n then some (.dram k (o % 2 ^ 37)) else none
  else none

/-- What comes of an access before it is performed. -/
inductive Acc where
  | ok (l : Loc)
  | fault (cause : Nat)
  deriving DecidableEq, Repr

/-- Check a scalar access of `n` bytes; `atomic` for AMO, LR and SC, which are never misaligned. -/
def Part.checkAcc (p : Part) (core a n : Nat) (store atomic : Bool) : Acc :=
  match p.mapAddr core a n store with
  | none => .fault (if store || atomic then 7 else 5)
  | some l =>
    let sram : Bool := match l with | .dram .. => false | _ => true
    if a % n == 0 || (sram && !atomic && a / 64 == (a + n - 1) / 64) then .ok l
    else .fault (if store || atomic then 6 else 4)

/-- The bank that would hold an access to a location (R362): a mash bank that runs a chunk. -/
def State.busyBank (s : State) : Loc → Option (Nat × Nat)
  | .dram k o => if isMash k && ((s.memCtl k).banks.get Bank.reset (mashBank o)).state == 1 then some (k, mashBank o) else none
  | _ => none

/-- Put an access into a busy bank's hold queue. -/
def State.holdAccess (s : State) (k bank off : Nat) (write : Option Bytes) (who : Option CtxRef) : State :=
  s.modMem k fun m => { m with holdCnt := if (m.banks.get Bank.reset bank).held.length < 32 then m.holdCnt + 1 else m.holdCnt,
                               banks := m.banks.modify Bank.reset bank fun b => { b with held := b.held ++ [⟨off, write, who, s.time.up⟩] } }

/-- The context's access must wait for a busy bank: it enters the hold queue and the context waits for it. -/
def State.holdFor (s : State) (r : CtxRef) (l : Loc) : Option State :=
  if (s.ctx r).grant then none
  else match s.busyBank l with
    | some (k, b) => (match l with
        | .dram _ o => some ((s.holdAccess k b o none (some r)).block r .memory)
        | _ => none)
    | none => none

/-- The access goes beyond what may be outstanding (R247). -/
def State.tooMany (s : State) (r : CtxRef) (l : Loc) : Bool :=
  match l with
  | .core .. => false
  | _ => (s.ctx r).loads.length + (s.ctx r).outst ≥ 8 ||
      ((s.core r.core).ctxs.map fun e => e.2.loads.length + e.2.outst).sum ≥ 64

/-- Charge the stack units that an access of a context touches (R510). -/
def State.chargeLoc (s : State) (p : Part) (r : CtxRef) (l : Loc) (n : Nat) : State :=
  match l with
  | .dram _ o => s.charge (s.ctx r).tenant p.num 2 (unitsOf o n).length
  | _ => s

/-- Report the uncorrectable unit that a read meets (R351). -/
def State.reportBadLoc (s : State) (p : Part) (l : Loc) : State :=
  match l with
  | .dram k o => s.reportUE k o p.num
  | _ => s

/-- A store of a context: performed at once, or held (R362). -/
def State.storeLoc (s : State) (p : Part) (r : CtxRef) (l : Loc) (b : Bytes) : State :=
  let s := s.chargeLoc p r l b.length
  match s.busyBank l, l with
  | some (k, n), .dram _ o =>
    if (s.ctx r).grant then s.locWrite l b (some r)
    else (s.holdAccess k n o (some b) (some r)).modCtx r fun c => { c with outst := c.outst + 1 }
  | _, _ => s.locWrite l b (some r)

/-- The result of an access outside core-local SRAM comes later (R247). -/
def State.pend (s : State) (r : CtxRef) (l : Loc) (v : PendRes) : State :=
  match l with
  | .core .. => s.modCtx r fun c => match v with | .int rd x => c.wx rd x | .float rd x => c.wf rd x | .vec => c
  | _ => s.modCtx r fun c => { c with loads := c.loads ++ [v] }

/-- The oldest result reaches its context (R246, R247). -/
def State.resultArrives (s : State) (r : CtxRef) : State :=
  match (s.ctx r).loads with
  | [] => s
  | v :: rest =>
    let s := s.modCtx r fun c =>
      let c := match v with | .int rd x => c.wx rd x | .float rd x => c.wf rd x | .vec => c
      { c with loads := rest }
    match (s.ctx r).wait with
    | .memory => s.wake r
    | _ => s

/-! ### Start-up and fences (R271–R278) -/

/-- Reload the data and zeroed bytes of every assigned program of a core (R61, R275). -/
def State.loadCoreData (s : State) (p : Part) (core : Nat) : State :=
  (p.coreProgs core).foldl (fun s g => { s with coreSram := s.coreSram.write (core * 2 ^ 18 + p.dataOff core g.id) (g.data ++ zeros g.zeroed) }) s

/-- Start every assigned context of a core at its entry point (R62, R275); a fresh start forgets the faults counted. -/
def State.startContexts (s : State) (p : Part) (core : Nat) : State :=
  let s := (List.finRange 16).foldl (fun s i =>
    let r : CtxRef := ⟨core, i⟩
    match p.ctxProg r with
    | some g => s.modCtx r fun _ => p.entryCtx r g Ctx.reset s.time.up
    | none => s.modCtx r fun _ => Ctx.reset) s
  let k := s.core core
  let first := (List.finRange 16).find? fun i => (k.ctxs.get Ctx.reset i.val).isReady
  s.setCore core { k with cur := first.getD 0, slots := [], slotWait := [], vbusy := none }

/-- TILE registers of a tile. -/
def State.tile (s : State) (t : Nat) : TileRegs := s.tiles.get TileRegs.reset t
def State.modTile (s : State) (t : Nat) (f : TileRegs → TileRegs) : State := { s with tiles := s.tiles.modify TileRegs.reset t f }

/-- The management bit or the data bit holds a core fenced (R277). -/
def State.coreHeld (s : State) (core : Nat) : Bool :=
  (s.tile (tileOf core)).core.getLsbD (coreNo core) || (s.tile (tileOf core)).data.getLsbD (coreNo core)

/-- A test of a unit has been accepted and has not ended: it holds the unit fenced (R597). -/
def State.underTest (s : State) (kind unit : Nat) : Bool :=
  (s.flt.queue ++ s.flt.running).any fun q => q.kind.toNat == kind && q.unit.toNat == unit

/-- The payload of a fence or unfence EVENT (R607): the unit by its rotation-order number (R600), and its management and data bits. -/
def fencePayload (unit : Nat) (mgmt data : Bool) : Bytes := toLE 2 unit ++ [BitVec.ofNat 8 (b2n mgmt + 2 * b2n data)]

/-- A FENCE record and the management view brought into line (R595): state 3 fenced, 1 running. -/
def State.fenceRecord (s : State) (kind unit : Nat) (fenced mgmt data : Bool) (part : Nat) : State :=
  let key := (if kind == 1 then 0 else if kind == 2 then 10000 else 20000) + unit
  let s := s.report { cls := 0x12, part := part, kind := kind, unit := unit, detail := b2n data + 2 * b2n mgmt + 4 * b2n fenced }
  { s with flt := { s.flt with mgmtView := if fenced then insNat s.flt.mgmtView key else s.flt.mgmtView.filter (· != key) } }

/-- The FENCE record of a core, and its capture event. -/
def State.coreFenceRecord (s : State) (core : Nat) (fenced : Bool) : State :=
  let t := s.tile (tileOf core)
  let part := ((s.corePart core).map (·.num)).getD 0xFF
  let s := s.fenceRecord 1 core fenced (t.core.getLsbD (coreNo core)) (t.data.getLsbD (coreNo core)) part
  s.caskEvent part (if fenced then 2 else 3) (fencePayload core (t.core.getLsbD (coreNo core)) (t.data.getLsbD (coreNo core)))

/-- Change a bit of a core's fence. A change of the effective state is recorded, and so are an unfence that the data bit holds back and a
data bit that clears under the management bit (R277, R595). -/
def State.coreBits (s : State) (core : Nat) (f : TileRegs → TileRegs) : State :=
  let c := coreNo core
  let before := s.tile (tileOf core)
  let s := s.modTile (tileOf core) f
  let after := s.tile (tileOf core)
  let was := before.core.getLsbD c || before.data.getLsbD c
  let now := after.core.getLsbD c || after.data.getLsbD c
  if was != now || (before.core.getLsbD c && !after.core.getLsbD c && after.data.getLsbD c)
      || (before.data.getLsbD c && !after.data.getLsbD c && after.core.getLsbD c)
  then s.coreFenceRecord core now else s

/-- Every context of a core stops where it is (R273). -/
def State.hardFence (s : State) (core : Nat) : State :=
  let k := s.core core
  if k.st == .disabled then s
  else
    let was : CoreState := k.st
    let s : State := match s.corePart core with
      | none => s
      | some p => (k.ctxs.map fun e => e.1).foldl (fun (s : State) (i : Nat) =>
          let r : CtxRef := ⟨core, Fin.ofNat 16 i⟩
          let s := match (s.ctx r).held with | some q => s.passRequest q | none => s
          let s := ((s.unwait p r).freeSlotOf r).releaseTaken p r
          s.modCtx r fun c => { c with resv := none, loads := [], outst := 0, hook := false, wait := match c.wait with
            | .unassigned => .unassigned | .stopped => .stopped | _ => .parked }) s
    let k := s.core core
    let s := s.setCore core { k with st := if was == .testing then .testing else .fenced, vbusy := none, slotWait := [] }
    s.modTile (tileOf core) fun t => { t with hard := bput t.hard (coreNo core) true }

/-- A context of a draining core that holds no request and waits in AB.QTAKE is parked (R272). -/
def Ctx.parks (c : Ctx) : Bool := c.held.isNone && (match c.wait with | .qtake .. => true | _ => false)

/-- The drain has come to its end (R273). -/
def State.drained (s : State) (core : Nat) : Bool :=
  let k := s.core core
  k.vbusy.isNone && k.ctxs.all fun e =>
    e.2.loads.isEmpty && e.2.outst == 0 &&
      (e.2.parks || match e.2.wait with | .unassigned | .parked | .stopped => true | _ => false)

/-- A drain starts (R272): ready contexts with hooks are diverted. -/
def State.startDrain (s : State) (core : Nat) : State :=
  let k := s.core core
  if k.st != .running then s
  else if (s.tile (tileOf core)).limitUs == 0 then s.hardFence core
  else
    let s := s.setCore core { k with st := .draining, drainAt := s.time.up,
                                     ctxs := k.ctxs.map fun e => (e.1, ({ e.2 with diverted := false }).divert .draining) }
    s

/-- The drain ends with everything parked: the core is soft-fenced (R273). -/
def State.softFence (s : State) (core : Nat) : State :=
  let k := s.core core
  if k.st == .draining && s.drained core then
    let s := s.setCore core { k with st := .fenced }
    s.modTile (tileOf core) fun t => { t with hard := bput t.hard (coreNo core) false }
  else s

/-- Contexts parked in a drain go on: those parked by AB.FDONE become ready, those in AB.QTAKE wait on (R275). -/
def State.resumeContexts (s : State) (core : Nat) : State :=
  let k := s.core core
  let s := s.setCore core { k with st := .running, ctxs := k.ctxs.map fun e =>
    (e.1, if e.2.wait == .parked then { e.2 with wait := .ready } else e.2) }
  let k := s.core core
  if (k.ctxs.get Ctx.reset k.cur.val).isReady then s else s.pickNext core

/-- A core with neither bit set and no test runs again (R275, R277). -/
def State.unfenceCore (s : State) (core : Nat) : State :=
  let k := s.core core
  if s.coreHeld core || s.underTest 1 core then s
  else match k.st with
    | .draining => s.resumeContexts core
    | .fenced =>
      match s.corePart core with
        | none => s
        | some p =>
          let hard := (s.tile (tileOf core)).hard.getLsbD (coreNo core)
          if hard then
            let s := (s.loadCoreData p core).startContexts p core
            s.setCore core { s.core core with st := .running }
          else s.resumeContexts core
    | _ => s

end Sys2Proof.Machine
end

