-- ==== Sys2Proof/Machine/ControlOps.lean ====
section
/-! DEFINITION. Sys2Proof/Machine/ControlOps.lean: the Abernel extension: sort instructions and the control group (R173–R184, R249, R251–R262). -/
namespace Sys2Proof.Machine

/-! ### Issuing an instruction -/

/-- A pc from which a context may fetch (R242): program code of the own tile. -/
def fetchOk (core : Nat) (pc : BitVec 64) : Bool :=
  let a := pc.toNat
  a % 2 == 0 && ((0x400000 ≤ a && a < 0x500000) ||
    (0x10000000 + tileOf core * 0x400000 ≤ a && a < 0x10000000 + tileOf core * 0x400000 + 0x100000))

/-- The current context of a core issues an instruction (R246): nothing happens where the core runs no program or no context is ready. -/
def State.issue (s : State) (core : Nat) (f : Part → CtxRef → State) : State :=
  let k := s.core core
  let r : CtxRef := ⟨core, k.cur⟩
  match s.corePart core with
  | none => s
  | some p =>
    if !(k.st == .running || k.st == .draining) || !(s.ctx r).isReady then s
    else if !fetchOk core (s.ctx r).pc then s.trap p r 1 (s.ctx r).pc.toNat
    else f p r

/-- A register's result has not arrived (R247). -/
def Ctx.pendsX (c : Ctx) (l : List (Fin 32)) : Bool := c.loads.any fun v => match v with | .int rd _ => rd != 0 && l.contains rd | _ => false
def Ctx.pendsF (c : Ctx) (l : List (Fin 32)) : Bool := c.loads.any fun v => match v with | .float rd _ => l.contains rd | _ => false

/-- An instruction that needs a result that has not arrived yields until it does (R246, R247). -/
def State.needing (s : State) (r : CtxRef) (xs fs : List (Fin 32)) (f : State → State) : State :=
  if (s.ctx r).pendsX xs || (s.ctx r).pendsF fs then s.block r .memory else f s

/-- An instruction of the vector unit: the context yields while another's occupies it or its own vector load is on its way (R248). -/
def State.vectorOp (s : State) (r : CtxRef) (f : State → State) : State :=
  let k := s.core r.core
  if k.vbusy.isSome && k.vbusy != some r.ctx then s.block r .vunit
  else if (s.ctx r).loads.contains .vec then s.block r .memory
  else f (s.setCore r.core { k with vbusy := some r.ctx })

/-! ### Vector registers -/

/-- Bytes of the slot bound to a context, from a register's byte on. -/
def State.vread (s : State) (r : CtxRef) (o n : Nat) : Bytes :=
  match (s.ctx r).slot with
  | some v => Memory.read ((s.core r.core).slots.get [] v.val) o n
  | none => zeros n

/-- Write bytes of the slot bound to a context. -/
def State.vwrite (s : State) (r : CtxRef) (o : Nat) (b : Bytes) : State :=
  match (s.ctx r).slot with
  | some v =>
    let k := s.core r.core
    s.setCore r.core { k with slots := k.slots.set [] v.val (Memory.write (k.slots.get [] v.val) o b) }
  | none => s

/-! ### Sort instructions (R177–R183) -/

/-- The 128 lanes of a key register, and of a payload group. -/
def State.keys (s : State) (r : CtxRef) (v : Fin 32) : List Nat := (List.range 128).map fun l => leNat (s.vread r (512 * v.val + 4 * l) 4)
def State.pays (s : State) (r : CtxRef) (v : Fin 32) : List Nat := (List.range 128).map fun l => leNat (s.vread r (512 * v.val + 8 * l) 8)
def State.setKeys (s : State) (r : CtxRef) (v : Fin 32) (l : List Nat) : State := s.vwrite r (512 * v.val) ((l.map (toLE 4)).flatten)
def State.setPays (s : State) (r : CtxRef) (v : Fin 32) (l : List Nat) : State := s.vwrite r (512 * v.val) ((l.map (toLE 8)).flatten)

/-- The entries of a pair. -/
def State.pair (s : State) (r : CtxRef) (vk vp : Fin 32) : List (Nat × Nat) := (s.keys r vk).zip (s.pays r vp)
def State.setPair (s : State) (r : CtxRef) (vk vp : Fin 32) (l : List (Nat × Nat)) : State :=
  (s.setKeys r vk (l.map (·.1))).setPays r vp (l.map (·.2))

/-- Which comes first, in score order or in id order (R174). -/
def comesFirst (m : Bool) (a b : Nat × Nat) : Bool := if m then idBefore a b else scoreBefore a b

/-- A padding entry (R176). -/
def padding : Nat × Nat := (0x007FFFFF, 2 ^ 64 - 1)

/-- Register numbers that a sort instruction names: key registers and even payload registers, none overlapping (R178). -/
def sortRegsOk (ks ps : List (Fin 32)) : Bool :=
  let all := ks.map (·.val) ++ ps.flatMap fun p => [p.val, p.val + 1]
  ps.all (·.val % 2 == 0) && all.eraseDups.length == all.length

/-- A sort instruction: illegal as R178 says, else it runs whole and retires. `w` is the word for the fault record. -/
def State.sortOp (s : State) (p : Part) (r : CtxRef) (w : Nat) (ks ps xs : List (Fin 32)) (ok : Bool) (f : State → State) : State :=
  let c := s.ctx r
  if c.slot.isNone || c.vstart != 0 || !ok || !sortRegsOk ks ps then s.trap p r 2 w
  else s.needing r xs [] fun s => s.vectorOp r fun s => (f s).retire p r 4

/-- AB.KEYF and AB.KEYR (R179). -/
def State.abKey (s : State) (p : Part) (r : CtxRef) (w : Nat) (back : Bool) (vd vs2 : Fin 32) : State :=
  s.sortOp p r w [vd, vs2] [] [] true fun s => s.setKeys r vd ((s.keys r vs2).map fun x => if back then scoreOf x else keyOf x)

/-- One bitonic step (R180). -/
def cxStep (i j : Nat) (m : Bool) (e : List (Nat × Nat)) : List (Nat × Nat) :=
  (List.range 128).map fun l =>
    let low := l % 2 ^ (j + 1) / 2 ^ j == 0
    let a := if low then l else l - 2 ^ j
    let x := nth e a (0, 0)
    let y := nth e (a + 2 ^ j) (0, 0)
    let up := a.testBit i
    let swap := if up then comesFirst m x y else comesFirst m y x
    if low == !swap then x else y

/-- AB.CX (R180). -/
def State.abCx (s : State) (p : Part) (r : CtxRef) (w : Nat) (vk vp : Fin 32) (i j : Fin 8) (m : Bool) : State :=
  s.sortOp p r w [vk] [vp] [] (i.val != 0 && j.val < i.val) fun s => s.setPair r vk vp (cxStep i.val j.val m (s.pair r vk vp))

/-- AB.CXP and AB.MX (R181). -/
def State.abCross (s : State) (p : Part) (r : CtxRef) (w : Nat) (mirror : Bool) (vka vpa vkb vpb : Fin 32) (d m : Bool) : State :=
  s.sortOp p r w [vka, vkb] [vpa, vpb] [] true fun s =>
    let a := s.pair r vka vpa
    let b := s.pair r vkb vpb
    let ix (l : Nat) : Nat := if mirror then 127 - l else l
    let swap (l : Nat) : Bool :=
      let x := nth a l (0, 0)
      let y := nth b (ix l) (0, 0)
      if d then comesFirst m x y else comesFirst m y x
    let a' := (List.range 128).map fun l => if swap l then nth b (ix l) (0, 0) else nth a l (0, 0)
    let b' := (List.range 128).map fun l => if swap (ix l) then nth a (ix l) (0, 0) else nth b l (0, 0)
    (s.setPair r vka vpa a').setPair r vkb vpb b'

/-- AB.DROP (R182). -/
def State.abDrop (s : State) (p : Part) (r : CtxRef) (w : Nat) (rd vk vp rs1 : Fin 32) : State :=
  s.sortOp p r w [vk] [vp] [rd, rs1] true fun s =>
    let e := s.pair r vk vp
    let prev (l : Nat) : Nat := if l == 0 then ((s.ctx r).rx rs1).toNat % 2 ^ 48 else payId (nth e (l - 1) (0, 0)).2
    let dup (l : Nat) : Bool := payId (nth e l (0, 0)).2 != 2 ^ 48 - 1 && payId (nth e l (0, 0)).2 == prev l
    let n := ((List.range 128).filter dup).length
    (s.setPair r vk vp ((List.range 128).map fun l => if dup l then padding else nth e l (0, 0))).modCtx r fun c => c.wx rd (BitVec.ofNat 64 n)

/-- AB.BND (R183). -/
def State.abBnd (s : State) (p : Part) (r : CtxRef) (w : Nat) (vk vp rs1 rs2 : Fin 32) : State :=
  s.sortOp p r w [vk] [vp] [rs1, rs2] true fun s =>
    let bnd : Nat × Nat := (((s.ctx r).rx rs1).toNat % 2 ^ 32, ((s.ctx r).rx rs2).toNat % 2 ^ 48)
    s.setPair r vk vp ((s.pair r vk vp).map fun e => if scoreBefore bnd e then e else padding)

/-! ### Records of a captured or replayed context (R607, R608, R611, R613) -/

/-- The source number of a context in the cask log (R606). -/
def CtxRef.source (r : CtxRef) : Nat := 16 * r.core + r.ctx.val

/-- A recorded operation of a context in a replay (R611, R613). It meets the context's next record: one of another kind, or one that `fits`
does not accept, is the divergence; where no record has been fed yet, or `run` finds that the recorded outcome cannot be had yet, the
context waits at the instruction. -/
def State.replayOp (s : State) (p : Part) (r : CtxRef) (typ : Nat) (fits : Bytes → Bool) (run : Bytes → State → Option State) : State :=
  match s.cask.todo.find? fun x => x.part == p.num && x.source == r.source with
  | none => s
  | some x => if x.typ == typ && fits x.body then (run x.body (s.consume x)).getD s else s.diverge (some x)

/-- A WAIT record: instruction, outcome, address and result. -/
def State.waitRec (s : State) (p : Part) (r : CtxRef) (ins outcome addr result : Nat) : State :=
  s.caskRec 0x05 p.num r.source (toLE 1 ins ++ toLE 1 outcome ++ zeros 6 ++ toLE 8 addr ++ toLE 8 result)

/-! ### Queues (R252–R256) -/

/-- A context takes an entry (R252, R255, R261); `rd` receives its address. -/
def State.giveEntry (s : State) (p : Part) (q : QueueDef) (e : QEntry) (r : CtxRef) (rd : Fin 32) : State :=
  let s := s.modQueue p.num q.id (·.take e.slot)
  let a := q.slotAddr e.slot
  let holds := q.kind == 0 || q.kind == 1
  let s := match holds, e.req with
    | true, some id => s.modReq id fun x => { x with place := .owned, owner := some r }
    | _, _ => s
  let s := s.modCtx r fun c =>
    { (c.wx rd (BitVec.ofNat 64 a)) with
      taken := c.taken ++ [⟨q.id, e.slot⟩], held := if holds then e.req else c.held, tenant := if holds || q.kind == 3 then e.tag else c.tenant }
  (s.waitRec p r 1 0 a 0).retire p r 4

/-- AB.QTAKE (R252, R272). -/
def State.abQtake (s : State) (p : Part) (r : CtxRef) (rd rs1 rs2 : Fin 32) : State :=
  s.needing r [rd, rs1, rs2] [] fun s =>
  let c := s.ctx r
  let id := (c.rx rs1).toNat
  let poll := (c.rx rs2).toNat
  match p.queueDef? id with
  | none => s.trap p r 24 0
  | some q =>
    if poll > 1 || !(q.kind == 0 || q.kind == 1 || q.kind == 3) || ((q.kind == 0 || q.kind == 1) && c.held.isSome) then s.trap p r 24 0
    else
      let draining := (s.core r.core).st == .draining
      let empty (s : State) : State := (s.waitRec p r 1 1 0 0).retireX p r 4 rd 0
      let waits (s : State) : State :=
        (s.modQueue p.num id fun v => { v with takers := v.takers ++ [r] }).block r (.qtake id rd)
      if s.replaying p.num then
        s.replayOp p r 5 (fun b => fieldAt b 0 1 == 1) fun b s =>
          if fieldAt b 1 1 == 1 then some (s.retireX p r 4 rd 0)
          else ((s.queue p.num id).entries.find? fun e => !e.taken && q.slotAddr e.slot == fieldAt b 8 8).map fun e => s.giveEntry p q e r rd
      else if draining then (if poll == 1 then empty s else waits s)
      else match (s.queue p.num id).oldest, (s.queue p.num id).takers with
        | some e, [] => s.giveEntry p q e r rd
        | _, _ => if poll == 1 then empty s else waits s

/-- An entry goes to the context that has waited longest for it (R252); contexts of a draining core take none (R272). -/
def State.qtakeWake (s : State) (p : Part) (id : Nat) : State :=
  match p.queueDef? id, (s.queue p.num id).oldest with
  | some q, some e =>
    match (s.queue p.num id).takers.find? fun r => (s.core r.core).st == .running with
    | none => s
    | some r =>
      match (s.ctx r).wait with
      | .qtake _ rd =>
        let s := s.modQueue p.num id fun v => { v with takers := v.takers.filter (· != r) }
        (s.giveEntry p q e r rd).wake r
      | _ => s
  | _, _ => s

/-- Answer bytes that a context posts for the request it holds (R168, R255). -/
def State.formRaw (s : State) (p : Part) (id : Nat) (b : Bytes) : State :=
  match s.req? id with
  | none => s
  | some r =>
    let s := s.modQueue r.part r.ansQ fun q => { q with reserved := q.reserved - 1 }
    let s := match p.queueDef? r.ansQ with
      | some q => s.post p q b 0x100 (some id) none
      | none => s
    let s := s.output r.part b
    if r.discard then
      let s := s.unqueue r.part r.ansQ id
      { s with req := { s.req with reqs := s.req.reqs.filter (·.id != id) } }
    else s.modReq id fun r => { r with place := .answered b, owner := none }

/-- Where AB.QPUT may copy from (R253). -/
def Part.putSource (p : Part) (core a n : Nat) : Option Loc :=
  if a % 64 != 0 || a ≥ 0x200000000000 then none else p.mapAddr core a n false

/-- Post the bytes a context points at and retire (R253). -/
def State.putEntry (s : State) (p : Part) (q : QueueDef) (r : CtxRef) (b : Bytes) (rd : Fin 32) : State :=
  (s.post p q b (s.ctx r).tenant none none).retireX p r 4 rd 0

/-- Read a run of bytes at a context address. -/
def State.ctxRead (s : State) (p : Part) (core a n : Nat) : Bytes :=
  if 0x100000000000 ≤ a && a < 0x200000000000 then s.pmRead p (a - 0x100000000000) n
  else match p.mapAddr core a n false with | some l => s.locRead l n | none => zeros n

/-- AB.QPUT (R253, R255). -/
def State.abQput (s : State) (p : Part) (r : CtxRef) (rd rs1 rs2 : Fin 32) : State :=
  s.needing r [rd, rs1, rs2] [] fun s =>
  let c := s.ctx r
  let id := (c.rx rs1).toNat
  let a := (c.rx rs2).toNat
  match p.queueDef? id with
  | none => s.trap p r 24 0
  | some q =>
    if q.kind < 2 || q.kind > 7 || (p.putSource r.core a q.bytes).isNone || (q.kind == 2 && c.held.isNone) then s.trap p r 24 0
    else if c.outst > 0 then s.block r .memory
    else
      let b := s.ctxRead p r.core a q.bytes
      if q.kind == 2 then
        match c.held with
        | none => s
        | some req =>
          match s.req? req with
          | none => (s.modCtx r fun c => { c with held := none, tenant := 0x100 }).retireX p r 4 rd 0
          | some rq =>
            if rq.ansQ != id then s.trap p r 24 0
            else
              let s := s.formRaw p req (b.take (max 96 (fieldAt b 4 4)))
              (s.modCtx r fun c => { c with held := none, tenant := 0x100 }).retireX p r 4 rd 0
      else if s.queueFull p.num q || !(s.queue p.num id).posters.isEmpty then
        (s.modQueue p.num id fun v => { v with posters := v.posters ++ [r] }).block r (.qput id a rd)
      else s.putEntry p q r b rd

/-- A queue has room: the context that has waited longest posts its entry (R253). -/
def State.qputWake (s : State) (p : Part) (id : Nat) : State :=
  match p.queueDef? id, (s.queue p.num id).posters with
  | some q, r :: rest =>
    if s.queueFull p.num q then s
    else match (s.ctx r).wait with
      | .qput _ a rd =>
        let s := s.modQueue p.num id fun v => { v with posters := rest }
        (s.putEntry p q r (s.ctxRead p r.core a q.bytes) rd).wake r
      | _ => s
  | _, _ => s

/-- AB.QREL (R254). -/
def State.abQrel (s : State) (p : Part) (r : CtxRef) (rs1 : Fin 32) : State :=
  s.needing r [rs1] [] fun s =>
  let a := ((s.ctx r).rx rs1).toNat
  match (s.ctx r).taken.find? fun e => (p.queueDef? e.queue).any fun q => q.slotAddr e.slot == a with
  | none => s.trap p r 24 0
  | some e =>
    let s := s.modQueue p.num e.queue (·.release e.slot)
    (s.modCtx r fun c => { c with taken := c.taken.filter (· != e) }).retire p r 4

/-! ### Yield, wait, stamps, random values, tags, slots, hooks (R249, R257–R262) -/

/-- AB.YIELD (R257). -/
def State.abYield (s : State) (p : Part) (r : CtxRef) : State := (s.retire p r 4).pickNext r.core

/-- A word that AB.WAITW may watch (R258). -/
def Part.watchLoc (p : Part) (core a : Nat) : Option Loc :=
  let t := tileOf core
  if a % 8 != 0 then none
  else match p.mapAddr core a 8 false with
    | some (.core n o) => some (.core n o)
    | some (.tile u o) => if u == t then some (.tile u o) else none
    | _ => none

/-- AB.WAITW (R258). -/
def State.abWaitw (s : State) (p : Part) (r : CtxRef) (rd rs1 rs2 : Fin 32) : State :=
  s.needing r [rd, rs1, rs2] [] fun s =>
  let c := s.ctx r
  let a := (c.rx rs1).toNat
  let v := c.rx rs2
  match p.watchLoc r.core a with
  | none => s.trap p r 5 a
  | some l =>
    let w := BitVec.ofNat 64 (leNat (s.locRead l 8))
    let finish (s : State) (w : BitVec 64) : State := (s.waitRec p r 2 0 a w.toNat).retireX p r 4 rd w
    if s.replaying p.num then
      s.replayOp p r 5 (fun b => fieldAt b 0 1 == 2 && fieldAt b 8 8 == a) fun b s =>
        if fieldAt b 1 1 == 1 then some (s.retireX p r 4 rd (BitVec.ofNat 64 (fieldAt b 16 8)))
        else if w.toNat == fieldAt b 16 8 then some (s.retireX p r 4 rd w)
        else none
    else if w != v then finish s w
    else s.block r (.waitw a v rd)

/-- The word that a waiting context watches has changed (R258). -/
def State.waitwWake (s : State) (p : Part) (r : CtxRef) : State :=
  match (s.ctx r).wait with
  | .waitw a v rd =>
    match p.watchLoc r.core a with
    | none => s
    | some l =>
      let w := BitVec.ofNat 64 (leNat (s.locRead l 8))
      if w == v then s else ((s.waitRec p r 2 0 a w.toNat).retireX p r 4 rd w).wake r
  | _ => s

/-- The cycle limit of a waiting AB.WAITW has passed with no change (R258). -/
def State.waitwLimit (s : State) (p : Part) (r : CtxRef) : State :=
  match (s.ctx r).wait with
  | .waitw a v rd =>
    match p.watchLoc r.core a with
    | none => s
    | some l =>
      let w := BitVec.ofNat 64 (leNat (s.locRead l 8))
      if w != v || (s.ctx r).abwaitlim == 0 then s else ((s.waitRec p r 2 1 a w.toNat).retireX p r 4 rd w).wake r
  | _ => s

/-- Where AB.STAMP may write (R259). -/
def Part.stampLoc (p : Part) (core a : Nat) : Option Loc :=
  if a % 16 != 0 || a ≥ 0x200000000000 then none else p.mapAddr core a 16 true

/-- AB.STAMP (R259): the context yields until the stamp has been written. -/
def State.abStamp (s : State) (p : Part) (r : CtxRef) (rs1 : Fin 32) : State :=
  s.needing r [rs1] [] fun s =>
  let a := ((s.ctx r).rx rs1).toNat
  match p.stampLoc r.core a with
  | none => s.trap p r 7 a
  | some _ => s.block r (.stamp a)

/-- The stamp that a context asked for is written whole to its address (R259, R611); before the first lock it waits (R21). -/
def State.stampArrives (s : State) (p : Part) (r : CtxRef) : State :=
  match (s.ctx r).wait with
  | .stamp a =>
    match p.stampLoc r.core a with
    | none => s
    | some l =>
      let put (s : State) (b : Bytes) : State :=
        (((s.chargeLoc p r l 16).locWrite l b (some r)).retire p r 4).wake r
      if s.replaying p.num then
        s.replayOp p r 3 (fun _ => true) fun b s => some (put s (b.take 12 ++ zeros 4))
      else if !s.canStamp then s
      else
        let (st, s) := s.takeStamp
        put (s.caskRec 0x03 p.num r.source (st.bytes ++ zeros 4)) (st.bytes ++ zeros 4)
  | _ => s

/-- The value of AB.RAND (R260). -/
def abRandom (seed a b : BitVec 64) : BitVec 64 :=
  let z := seed + a * 0x9E3779B97F4A7C15 + b
  let z := (z ^^^ (z >>> 30)) * 0xBF58476D1CE4E5B9
  let z := (z ^^^ (z >>> 27)) * 0x94D049BB133111EB
  z ^^^ (z >>> 31)

/-- AB.RAND (R260). -/
def State.abRand (s : State) (p : Part) (r : CtxRef) (rd rs1 rs2 : Fin 32) : State :=
  s.needing r [rd, rs1, rs2] [] fun s => s.retireX p r 4 rd (abRandom p.seed ((s.ctx r).rx rs1) ((s.ctx r).rx rs2))

/-- AB.TENANT (R261). -/
def State.abTenant (s : State) (p : Part) (r : CtxRef) (rs1 : Fin 32) : State :=
  s.needing r [rs1] [] fun s =>
  let v := ((s.ctx r).rx rs1).toNat
  if v == 0x100 || p.tenants.any (·.tenant == v) then (s.modCtx r fun c => { c with tenant := BitVec.ofNat 9 v }).retire p r 4
  else s.trap p r 25 0

/-- AB.VACQ (R249). -/
def State.abVacq (s : State) (p : Part) (r : CtxRef) (w : Nat) : State :=
  if (s.ctx r).slot.isSome then s.trap p r 2 w
  else match s.freeVSlot r.core with
    | some n => if (s.core r.core).slotWait.isEmpty then (s.bindSlot r n).retire p r 4 else wait s
    | none => wait s
where
  wait (s : State) : State :=
    let k := s.core r.core
    (s.setCore r.core { k with slotWait := k.slotWait ++ [r.ctx] }).block r .vacq

/-- A slot has come free: the context that has waited longest gets it (R249). -/
def State.vacqGrant (s : State) (p : Part) (core : Nat) : State :=
  match s.freeVSlot core, (s.core core).slotWait with
  | some n, i :: rest =>
    let r : CtxRef := ⟨core, i⟩
    let s := s.setCore core { s.core core with slotWait := rest }
    ((s.bindSlot r n).retire p r 4).wake r
  | _, _ => s

/-- AB.VREL (R249): once the context's vector instructions have completed. -/
def State.abVrel (s : State) (p : Part) (r : CtxRef) : State :=
  if (s.core r.core).vbusy == some r.ctx then s.block r .vrel
  else if (s.ctx r).loads.contains .vec then s.block r .memory
  else (s.freeSlotOf r).retire p r 4

/-- The vector unit finishes an instruction: contexts that wait for it become ready, and a waiting AB.VREL completes (R248, R249). -/
def State.vectorFree (s : State) (p : Part) (core : Nat) : State :=
  let s := s.setCore core { s.core core with vbusy := none }
  ((s.core core).ctxs.map fun e => e.1).foldl (fun (s : State) (i : Nat) =>
    let r : CtxRef := ⟨core, Fin.ofNat 16 i⟩
    match (s.ctx r).wait with
    | .vunit => s.wake r
    | .vrel => ((s.freeSlotOf r).retire p r 4).wake r
    | _ => s) s

/-- AB.FDONE (R262, R271). -/
def State.abFdone (s : State) (p : Part) (r : CtxRef) (w : Nat) : State :=
  if !(s.ctx r).hook then s.trap p r 2 w
  else
    let s := match (s.ctx r).held with | some q => s.passRequest q | none => s
    let s := s.retire p r 4
    let s := s.modCtx r fun c => { c with hook := false }
    match (s.core r.core).st with
    | .draining => s.block r .parked
    | _ => s.pickNext r.core

end Sys2Proof.Machine
end

