-- ==== Sys2Proof/Machine/RiscvOps.lean ====
section
/-! DEFINITION. Sys2Proof/Machine/RiscvOps.lean: the scalar part of a context's RV64IMAFDC profile with Zicsr and Zfbfmin: compressed
forms, fields, integer and floating-point results, CSRs, scalar loads, stores and atomics (R239, R240, R242–R245, R263, R267, R268).
Encodings and results are those of the RISC-V specification, which R239 names and does not repeat (PRESUMED, assumption 33). -/
namespace Sys2Proof.Machine
open Fmt (fp32 fp64 bf16)

/-! ### Compressed instructions -/

def encI (imm rs1 f3 rd op : Nat) : Nat := imm % 4096 * 2 ^ 20 + rs1 * 2 ^ 15 + f3 * 2 ^ 12 + rd * 2 ^ 7 + op
def encR (f7 rs2 rs1 f3 rd op : Nat) : Nat := f7 * 2 ^ 25 + rs2 * 2 ^ 20 + rs1 * 2 ^ 15 + f3 * 2 ^ 12 + rd * 2 ^ 7 + op
def encS (imm rs2 rs1 f3 op : Nat) : Nat := encR (imm / 32 % 128) rs2 rs1 f3 (imm % 32) op
def encB (imm rs2 rs1 f3 : Nat) : Nat :=
  encR (b2n (bitOf imm 12) * 64 + bitsOf imm 10 5) rs2 rs1 f3 (bitsOf imm 4 1 * 2 + b2n (bitOf imm 11)) 0x63
def encJ (imm rd : Nat) : Nat :=
  (b2n (bitOf imm 20) * 2 ^ 19 + bitsOf imm 10 1 * 2 ^ 9 + b2n (bitOf imm 11) * 2 ^ 8 + bitsOf imm 19 12) * 2 ^ 12 + rd * 2 ^ 7 + 0x6F

/-- Sign-extend the low `w` bits of a number into 32 bits. -/
def sx (w v : Nat) : Nat := unsignedOf 32 (signedOf w v)

/-- The 32-bit instruction that a 16-bit one stands for; none where it is reserved. -/
def expandC (h : Nat) : Option Nat :=
  let f3 := bitsOf h 15 13
  let b (i : Nat) : Nat := b2n (bitOf h i)
  let r1 := 8 + bitsOf h 9 7
  let r2 := 8 + bitsOf h 4 2
  let rd := bitsOf h 11 7
  let rs2 := bitsOf h 6 2
  let imm6 := sx 6 (b 12 * 32 + rs2)
  let lw := bitsOf h 12 10 * 8 + b 6 * 4 + b 5 * 64
  let ld := bitsOf h 12 10 * 8 + bitsOf h 6 5 * 64
  let sh := b 12 * 32 + rs2
  let bimm := sx 9 (b 12 * 256 + bitsOf h 11 10 * 8 + bitsOf h 6 5 * 64 + bitsOf h 4 3 * 2 + b 2 * 32)
  let ldsp := b 12 * 32 + bitsOf h 6 5 * 8 + bitsOf h 4 2 * 64
  match h % 4 with
  | 0 =>
    match f3 with
    | 0 =>
      let imm := bitsOf h 12 11 * 16 + bitsOf h 10 7 * 64 + b 6 * 4 + b 5 * 8
      if imm == 0 then none else some (encI imm 2 0 r2 0x13)
    | 1 => some (encI ld r1 3 r2 0x07)
    | 2 => some (encI lw r1 2 r2 0x03)
    | 3 => some (encI ld r1 3 r2 0x03)
    | 5 => some (encS ld r2 r1 3 0x27)
    | 6 => some (encS lw r2 r1 2 0x23)
    | 7 => some (encS ld r2 r1 3 0x23)
    | _ => none
  | 1 =>
    match f3 with
    | 0 => some (encI imm6 rd 0 rd 0x13)
    | 1 => if rd == 0 then none else some (encI imm6 rd 0 rd 0x1B)
    | 2 => some (encI imm6 0 0 rd 0x13)
    | 3 =>
      if rd == 2 then
        let imm := sx 10 (b 12 * 512 + b 6 * 16 + b 5 * 64 + bitsOf h 4 3 * 128 + b 2 * 32)
        if imm == 0 then none else some (encI imm 2 0 2 0x13)
      else if imm6 == 0 then none else some (imm6 % 2 ^ 20 * 2 ^ 12 + rd * 2 ^ 7 + 0x37)
    | 4 =>
      match bitsOf h 11 10 with
      | 0 => some (encI sh r1 5 r1 0x13)
      | 1 => some (encI (0x400 + sh) r1 5 r1 0x13)
      | 2 => some (encI imm6 r1 7 r1 0x13)
      | _ =>
        match b 12, bitsOf h 6 5 with
        | 0, 0 => some (encR 0x20 r2 r1 0 r1 0x33)
        | 0, 1 => some (encR 0 r2 r1 4 r1 0x33)
        | 0, 2 => some (encR 0 r2 r1 6 r1 0x33)
        | 0, _ => some (encR 0 r2 r1 7 r1 0x33)
        | _, 0 => some (encR 0x20 r2 r1 0 r1 0x3B)
        | _, 1 => some (encR 0 r2 r1 0 r1 0x3B)
        | _, _ => none
    | 5 =>
      some (encJ (sx 12 (b 12 * 2048 + b 11 * 16 + bitsOf h 10 9 * 256 + b 8 * 1024 + b 7 * 64 + b 6 * 128 + bitsOf h 5 3 * 2 + b 2 * 32)) 0)
    | 6 => some (encB bimm 0 r1 0)
    | _ => some (encB bimm 0 r1 1)
  | 2 =>
    match f3 with
    | 0 => some (encI sh rd 1 rd 0x13)
    | 1 => some (encI ldsp 2 3 rd 0x07)
    | 2 => if rd == 0 then none else some (encI (b 12 * 32 + bitsOf h 6 4 * 4 + bitsOf h 3 2 * 64) 2 2 rd 0x03)
    | 3 => if rd == 0 then none else some (encI ldsp 2 3 rd 0x03)
    | 4 =>
      if b 12 == 0 then
        if rs2 == 0 then (if rd == 0 then none else some (encI 0 rd 0 0 0x67)) else some (encR 0 rs2 0 0 rd 0x33)
      else if rs2 == 0 then (if rd == 0 then some 0x00100073 else some (encI 0 rd 0 1 0x67))
      else some (encR 0 rs2 rd 0 rd 0x33)
    | 5 => some (encS (bitsOf h 12 10 * 8 + bitsOf h 9 7 * 64) rs2 2 3 0x27)
    | 6 => some (encS (bitsOf h 12 9 * 4 + bitsOf h 8 7 * 64) rs2 2 2 0x23)
    | _ => some (encS (bitsOf h 12 10 * 8 + bitsOf h 9 7 * 64) rs2 2 3 0x23)
  | _ => none

/-! ### Fields of a 32-bit word -/

def fRd (w : Nat) : Fin 32 := Fin.ofNat 32 (w / 2 ^ 7)
def fRs1 (w : Nat) : Fin 32 := Fin.ofNat 32 (w / 2 ^ 15)
def fRs2 (w : Nat) : Fin 32 := Fin.ofNat 32 (w / 2 ^ 20)
def fRs3 (w : Nat) : Fin 32 := Fin.ofNat 32 (w / 2 ^ 27)
def fF3 (w : Nat) : Nat := w / 2 ^ 12 % 8
def fF7 (w : Nat) : Nat := w / 2 ^ 25 % 128
def immI (w : Nat) : BitVec 64 := BitVec.ofInt 64 (signedOf 12 (w / 2 ^ 20))
def immS (w : Nat) : BitVec 64 := BitVec.ofInt 64 (signedOf 12 (w / 2 ^ 25 % 128 * 32 + w / 2 ^ 7 % 32))
def immU (w : Nat) : BitVec 64 := BitVec.ofInt 64 (signedOf 32 (w / 2 ^ 12 * 2 ^ 12))
def immB (w : Nat) : BitVec 64 :=
  BitVec.ofInt 64 (signedOf 13 (b2n (bitOf w 31) * 4096 + b2n (bitOf w 7) * 2048 + bitsOf w 30 25 * 32 + bitsOf w 11 8 * 2))
def immJ (w : Nat) : BitVec 64 :=
  BitVec.ofInt 64 (signedOf 21 (b2n (bitOf w 31) * 2 ^ 20 + bitsOf w 19 12 * 4096 + b2n (bitOf w 20) * 2048 + bitsOf w 30 21 * 2))

/-- Sign-extend the low 32 bits. -/
def sext32 (v : BitVec 64) : BitVec 64 := (v.truncate 32 : BitVec 32).signExtend 64

/-! ### Integer computation -/

/-- The operation of OP and OP-IMM by funct3, with subtract or arithmetic shift where `alt`. -/
def aluOp (f3 : Nat) (alt : Bool) (a b : BitVec 64) : BitVec 64 :=
  match f3 with
  | 0 => if alt then a - b else a + b
  | 1 => a <<< (b.toNat % 64)
  | 2 => if a.slt b then 1 else 0
  | 3 => if a.ult b then 1 else 0
  | 4 => a ^^^ b
  | 5 => if alt then a.sshiftRight (b.toNat % 64) else a >>> (b.toNat % 64)
  | 6 => a ||| b
  | _ => a &&& b

/-- The 32-bit operation, sign-extended; none where the encoding is reserved. -/
def aluOpW (f3 : Nat) (alt : Bool) (a b : BitVec 64) : Option (BitVec 64) :=
  let x : BitVec 32 := a.truncate 32
  let y : BitVec 32 := b.truncate 32
  match f3 with
  | 0 => some ((if alt then x - y else x + y).signExtend 64)
  | 1 => if alt then none else some ((x <<< (y.toNat % 32)).signExtend 64)
  | 5 => some ((if alt then x.sshiftRight (y.toNat % 32) else x >>> (y.toNat % 32)).signExtend 64)
  | _ => none

/-- Signed quotient and remainder of `w`-bit numbers with RISC-V's results for zero and overflow. -/
def divRem (w : Nat) (sgn rem : Bool) (a b : Int) : Int :=
  if b == 0 then (if rem then a else -1)
  else if sgn && a == -(2 ^ (w - 1) : Nat) && b == -1 then (if rem then 0 else a)
  else if rem then a.tmod b else a.tdiv b

/-- Multiply and divide (M). -/
def mulDiv (f3 : Nat) (a b : BitVec 64) : BitVec 64 :=
  match f3 with
  | 0 => a * b
  | 1 => BitVec.ofInt 64 ((a.toInt * b.toInt) / 2 ^ 64)
  | 2 => BitVec.ofInt 64 ((a.toInt * (b.toNat : Int)) / 2 ^ 64)
  | 3 => BitVec.ofNat 64 (a.toNat * b.toNat / 2 ^ 64)
  | 4 => BitVec.ofInt 64 (divRem 64 true false a.toInt b.toInt)
  | 5 => BitVec.ofInt 64 (divRem 64 false false a.toNat b.toNat)
  | 6 => BitVec.ofInt 64 (divRem 64 true true a.toInt b.toInt)
  | _ => BitVec.ofInt 64 (divRem 64 false true a.toNat b.toNat)

/-- The 32-bit forms; none where reserved. -/
def mulDivW (f3 : Nat) (a b : BitVec 64) : Option (BitVec 64) :=
  let x : BitVec 32 := a.truncate 32
  let y : BitVec 32 := b.truncate 32
  let up (i : Int) : BitVec 64 := (BitVec.ofInt 32 i).signExtend 64
  match f3 with
  | 0 => some ((x * y).signExtend 64)
  | 4 => some (up (divRem 32 true false x.toInt y.toInt))
  | 5 => some (up (divRem 32 false false x.toNat y.toNat))
  | 6 => some (up (divRem 32 true true x.toInt y.toInt))
  | 7 => some (up (divRem 32 false true x.toNat y.toNat))
  | _ => none

/-- A branch is taken; none where funct3 is reserved. -/
def branchTaken (f3 : Nat) (a b : BitVec 64) : Option Bool :=
  match f3 with
  | 0 => some (a == b)
  | 1 => some (a != b)
  | 4 => some (a.slt b)
  | 5 => some (!a.slt b)
  | 6 => some (a.ult b)
  | 7 => some (!a.ult b)
  | _ => none

/-- The stored value of an AMO; none where funct5 is reserved. -/
def amoValue (f5 n : Nat) (old src : Nat) : Option Nat :=
  let w := 8 * n
  let so := signedOf w old
  let ss := signedOf w src
  match f5 with
  | 0 => some ((old + src) % 2 ^ w)
  | 1 => some src
  | 4 => some (old ^^^ src)
  | 8 => some (old ||| src)
  | 12 => some (old &&& src)
  | 16 => some (if so < ss then old else src)
  | 20 => some (if so > ss then old else src)
  | 24 => some (min old src)
  | 28 => some (max old src)
  | _ => none

/-! ### Floating point -/

/-- NaN boxing of a narrower format in an f register. -/
def boxF (f : Fmt) (v : Nat) : BitVec 64 := BitVec.ofNat 64 ((2 ^ 64 - 2 ^ f.width) + v % 2 ^ f.width)
def unboxF (f : Fmt) (v : BitVec 64) : Nat :=
  if v.toNat / 2 ^ f.width == 2 ^ (64 - f.width) - 1 then v.toNat % 2 ^ f.width else f.nanBits

/-- The rounding mode of a field, with 7 the dynamic one of fcsr; none where reserved. -/
def rmOf (c : Ctx) (rm : Nat) : Option RMode :=
  let m := if rm == 7 then bitsOf c.fcsr.toNat 7 5 else rm
  match m with | 0 => some .rne | 1 => some .rtz | 2 => some .rdn | 3 => some .rup | 4 => some .rmm | _ => none

def Ctx.addFlags (c : Ctx) (f : FFlags) : Ctx := { c with fcsr := c.fcsr ||| BitVec.ofNat 8 f.bits }

/-- A number as an integer of a range: NaN and values beyond saturate with the invalid flag. -/
def toIntF (rm : RMode) (x : FVal) (lo hi : Int) : Int × FFlags :=
  match x with
  | .nan _ => (hi, .invalid)
  | .inf n => (if n then lo else hi, .invalid)
  | .fin n m e =>
    let (i, nx) := fintV rm n m e
    if i < lo then (lo, .invalid) else if i > hi then (hi, .invalid) else (i, { nx := nx })

def minMaxF (f : Fmt) (isMax : Bool) (a b : Nat) : Nat × FFlags :=
  let x := fdecode f a
  let y := fdecode f b
  let fl : FFlags := if isSnan x || isSnan y then .invalid else .none
  let neg (v : Nat) : Bool := v.testBit (f.width - 1)
  if x.isNan && y.isNan then (f.nanBits, fl)
  else if x.isNan then (b, fl) else if y.isNan then (a, fl)
  else if feqV x y then (if isMax then (if neg a then b else a) else (if neg a then a else b), fl)
  else (if fltV x y != isMax then a else b, fl)

def classF (f : Fmt) (a : Nat) : Nat :=
  let neg := a.testBit (f.width - 1)
  match fdecode f a with
  | .nan s => if s then 2 ^ 8 else 2 ^ 9
  | .inf _ => if neg then 1 else 2 ^ 7
  | .fin _ m _ =>
    if m == 0 then (if neg then 2 ^ 3 else 2 ^ 4)
    else if m < 2 ^ f.mw then (if neg then 2 ^ 2 else 2 ^ 5)
    else (if neg then 2 ^ 1 else 2 ^ 6)

/-- What an OP-FP instruction yields: an f register or an x register's value with flags; `slow` for divide and square root. -/
inductive FRes where
  | f (v : BitVec 64) (fl : FFlags) (slow : Bool)
  | x (v : BitVec 64) (fl : FFlags)
  | illegal
  deriving DecidableEq, Repr

/-- OP-FP of format S or D. -/
def opFp (f : Fmt) (c : Ctx) (w : Nat) : FRes :=
  let a := unboxF f (c.rf (fRs1 w))
  let b := unboxF f (c.rf (fRs2 w))
  let x := fdecode f a
  let y := fdecode f b
  let rs2 := (fRs2 w).val
  let f3 := fF3 w
  let n := f.width
  let round (g : RMode → FRes) : FRes := match rmOf c f3 with | some rm => g rm | none => .illegal
  let boxed (v : Nat × FFlags) : FRes := .f (boxF f v.1) v.2 false
  match fF7 w / 4 with
  | 0 => round fun rm => boxed (faddV f rm x y)
  | 1 => round fun rm => boxed (faddV f rm x y.negate)
  | 2 => round fun rm => boxed (fmulV f rm x y)
  | 3 => round fun rm => let v := fdivV f rm x y; .f (boxF f v.1) v.2 true
  | 11 => if rs2 != 0 then .illegal else round fun rm => let v := fsqrtV f rm x; .f (boxF f v.1) v.2 true
  | 4 =>
    let sg := 2 ^ (n - 1)
    let m := a % sg
    let s (v : Nat) : Nat := v / sg % 2
    match f3 with
    | 0 => .f (boxF f (m + s b * sg)) .none false
    | 1 => .f (boxF f (m + (1 - s b) * sg)) .none false
    | 2 => .f (boxF f (m + (s a + s b) % 2 * sg)) .none false
    | _ => .illegal
  | 5 => if f3 > 1 then .illegal else boxed (minMaxF f (f3 == 1) a b)
  | 20 =>
    let fl : FFlags := if (f3 == 2 && (isSnan x || isSnan y)) || (f3 != 2 && (x.isNan || y.isNan)) then .invalid else .none
    match f3 with
    | 0 => .x (if fltV x y || feqV x y then 1 else 0) fl
    | 1 => .x (if fltV x y then 1 else 0) fl
    | 2 => .x (if feqV x y then 1 else 0) fl
    | _ => .illegal
  | 24 => round fun rm =>
    match rs2 with
    | 0 => let v := toIntF rm x (-(2 ^ 31)) (2 ^ 31 - 1); .x (BitVec.ofInt 64 v.1) v.2
    | 1 => let v := toIntF rm x 0 (2 ^ 32 - 1); .x (sext32 (BitVec.ofInt 64 v.1)) v.2
    | 2 => let v := toIntF rm x (-(2 ^ 63)) (2 ^ 63 - 1); .x (BitVec.ofInt 64 v.1) v.2
    | 3 => let v := toIntF rm x 0 (2 ^ 64 - 1); .x (BitVec.ofInt 64 v.1) v.2
    | _ => .illegal
  | 26 => round fun rm =>
    let v := c.rx (fRs1 w)
    match rs2 with
    | 0 => boxed (froundInt f rm (v.truncate 32 : BitVec 32).toInt 0 false)
    | 1 => boxed (froundInt f rm ((v.truncate 32 : BitVec 32).toNat : Int) 0 false)
    | 2 => boxed (froundInt f rm v.toInt 0 false)
    | 3 => boxed (froundInt f rm (v.toNat : Int) 0 false)
    | _ => .illegal
  | 28 =>
    if rs2 != 0 then .illegal
    else match f3 with
      | 0 => .x (if n == 32 then sext32 (c.rf (fRs1 w)) else c.rf (fRs1 w)) .none
      | 1 => .x (BitVec.ofNat 64 (classF f a)) .none
      | _ => .illegal
  | 30 => if rs2 != 0 || f3 != 0 then .illegal else .f (boxF f (c.rx (fRs1 w)).toNat) .none false
  | _ => .illegal

/-- Conversions between formats, and Zfbfmin's moves. -/
def convFp (c : Ctx) (w : Nat) : FRes :=
  let src := c.rf (fRs1 w)
  let rs2 := (fRs2 w).val
  let conv (a b : Fmt) : FRes :=
    match rmOf c (fF3 w) with
    | some rm => let v := fencode b rm (fdecode a (unboxF a src)); .f (boxF b v.1) v.2 false
    | none => .illegal
  match fF7 w with
  | 0x20 => if rs2 == 1 then conv fp64 fp32 else if rs2 == 6 then conv bf16 fp32 else .illegal
  | 0x21 => if rs2 == 0 then conv fp32 fp64 else .illegal
  | 0x22 => if rs2 == 8 then conv fp32 bf16 else .illegal
  | 0x72 => if rs2 == 0 && fF3 w == 0 then .x ((src.truncate 16 : BitVec 16).signExtend 64) .none else .illegal
  | 0x7A => if rs2 == 0 && fF3 w == 0 then .f (boxF bf16 (c.rx (fRs1 w)).toNat) .none false else .illegal
  | _ => .illegal

/-- OP-FP. -/
def opFpAny (c : Ctx) (w : Nat) : FRes :=
  match fF7 w with
  | 0x20 | 0x21 | 0x22 | 0x72 | 0x7A => convFp c w
  | f7 => match f7 % 4 with | 0 => opFp fp32 c w | 1 => opFp fp64 c w | _ => .illegal

/-- The fused multiply-adds by opcode. -/
def fmaOp (op : Nat) (c : Ctx) (w : Nat) : FRes :=
  let go (f : Fmt) : FRes :=
    match rmOf c (fF3 w) with
    | none => .illegal
    | some rm =>
      let x := fdecode f (unboxF f (c.rf (fRs1 w)))
      let y := fdecode f (unboxF f (c.rf (fRs2 w)))
      let z := fdecode f (unboxF f (c.rf (fRs3 w)))
      let x := if op == 0x4B || op == 0x4F then x.negate else x
      let z := if op == 0x47 || op == 0x4F then z.negate else z
      let v := ffmaV f rm x y z
      .f (boxF f v.1) v.2 false
  match fF7 w % 4 with | 0 => go fp32 | 1 => go fp64 | _ => .illegal

/-! ### CSRs (R240, R243–R245) -/

/-- fT cycles in a time, at the divider of the tile (R40, R244). -/
def State.cyclesIn (s : State) (p : Part) (ns : Nat) : Nat :=
  let d := nth s.grist.clock.partDiv p.num 0
  ns * 48 / (10 * max 1 (if d == 0 then s.grist.clock.tileDiv else d))

/-- The value of a CSR that a program may read; none where it may not. -/
def State.csrRead (s : State) (p : Part) (r : CtxRef) (n : Nat) : Option (BitVec 64) :=
  let c := s.ctx r
  let v (x : BitVec 64) : Option (BitVec 64) := if c.slot.isSome then some x else none
  match n with
  | 0x001 => some (BitVec.ofNat 64 (c.fcsr.toNat % 32))
  | 0x002 => some (BitVec.ofNat 64 (c.fcsr.toNat / 32))
  | 0x003 => some (c.fcsr.zeroExtend 64)
  | 0x008 => v (c.vstart.zeroExtend 64)
  | 0x009 => v (if c.vxsat then 1 else 0)
  | 0x00A => v (c.vxrm.zeroExtend 64)
  | 0x00F => v (BitVec.ofNat 64 (b2n c.vxsat + 2 * c.vxrm.toNat))
  | 0xC00 => some (BitVec.ofNat 64 (s.cyclesIn p (s.time.up - c.startAt)))
  | 0xC01 => some s.time.rack
  | 0xC02 => some c.instret
  | 0xC20 => v c.vl
  | 0xC21 => v c.vtype
  | 0xC22 => v 512
  | 0x800 => some c.abfhook
  | 0x801 => some c.abfepc
  | 0x802 => some c.abwaitlim
  | 0xCC0 => some (BitVec.ofNat 64 (r.ctx.val + 16 * coreNo r.core + 256 * tileOf r.core + 65536 * p.num))
  | 0xCC1 => some (c.tenant.zeroExtend 64)
  | 0xCC2 => some (c.abcause.zeroExtend 64)
  | 0xCC3 => some (if c.held.isSome then 1 else 0)
  | _ => none

/-- Write a CSR; bits shown as 0 ignore what is written. -/
def Ctx.csrWrite (c : Ctx) (n : Nat) (v : BitVec 64) : Ctx :=
  match n with
  | 0x001 => { c with fcsr := BitVec.ofNat 8 (c.fcsr.toNat / 32 * 32 + v.toNat % 32) }
  | 0x002 => { c with fcsr := BitVec.ofNat 8 (c.fcsr.toNat % 32 + v.toNat % 8 * 32) }
  | 0x003 => { c with fcsr := v.truncate 8 }
  | 0x008 => { c with vstart := BitVec.ofNat 16 (v.toNat % 4096) }
  | 0x009 => { c with vxsat := v.getLsbD 0 }
  | 0x00A => { c with vxrm := v.truncate 2 }
  | 0x00F => { c with vxsat := v.getLsbD 0, vxrm := BitVec.ofNat 2 (v.toNat / 2) }
  | 0x800 => { c with abfhook := v &&& 0xFFFFFFFFFFFFFFFE }
  | 0x801 => { c with abfepc := v &&& 0xFFFFFFFFFFFFFFFE }
  | 0x802 => { c with abwaitlim := v &&& 0xFFFFFFFF }
  | _ => c

/-- A CSR instruction: read, then write unless it is a set or clear of nothing. -/
def State.csrOp (s : State) (p : Part) (r : CtxRef) (w n : Nat) : State :=
  let c := s.ctx r
  let num := w / 2 ^ 20
  let f3 := fF3 w
  let rs1 := fRs1 w
  let src : BitVec 64 := if f3 ≥ 4 then BitVec.ofNat 64 rs1.val else c.rx rs1
  let writes := f3 % 4 == 1 || rs1.val != 0
  match s.csrRead p r num with
  | none => s.trap p r 2 w
  | some old =>
    if f3 % 4 == 0 || (writes && num / 1024 == 3) then s.trap p r 2 w
    else
      if num == 0xC01 && s.replaying p.num then
        s.replayOp p r 4 (fun _ => true) fun b s => some (s.retireX p r n (fRd w) (BitVec.ofNat 64 (fieldAt b 0 8)))
      else
        let s := if num == 0xC01 then s.caskRec 0x04 p.num r.source (toLE 8 old.toNat) else s
        let new := match f3 % 4 with | 1 => src | 2 => old ||| src | _ => old &&& ~~~ src
        let s := if writes then s.modCtx r fun c => c.csrWrite num new else s
        s.retireX p r n (fRd w) old

/-! ### Scalar loads, stores and atomics -/

/-- A scalar load: size, sign, and the f register's format where it goes to one. -/
def State.scalarLoad (s : State) (p : Part) (r : CtxRef) (len : Nat) (rd : Fin 32) (a n : Nat) (sgn : Bool) (fmt : Option Fmt) : State :=
  match p.checkAcc r.core a n false false with
  | .fault c => s.trap p r c a
  | .ok l =>
    if s.tooMany r l then s.block r .memory
    else match s.holdFor r l with
      | some s => s
      | none =>
        let s := s.chargeLoc p r l n
        if s.locBad l n then (s.reportBadLoc p l).trap p r 5 a
        else
          let v := leNat (s.locRead l n)
          let res : PendRes := match fmt with
            | some f => .float rd (boxF f v)
            | none => .int rd (if sgn then BitVec.ofInt 64 (signedOf (8 * n) v) else BitVec.ofNat 64 v)
          (s.pend r l res).retire p r len

/-- A scalar store. -/
def State.scalarStore (s : State) (p : Part) (r : CtxRef) (len a n : Nat) (v : BitVec 64) : State :=
  match p.checkAcc r.core a n true false with
  | .fault c => s.trap p r c a
  | .ok l => if s.tooMany r l then s.block r .memory else (s.storeLoc p r l (toLE n v.toNat)).retire p r len

/-- Partition memory or tile SRAM: where an AMO or SC is recorded (R608). -/
def recorded (a : Nat) : Bool := 0x400000 ≤ a && a < 0x200000000000

/-- LR, SC and the AMOs (R267). -/
def State.atomicOp (s : State) (p : Part) (r : CtxRef) (len w : Nat) : State :=
  let c := s.ctx r
  let f5 := fF7 w / 4
  let n := if fF3 w == 2 then 4 else 8
  let a := (c.rx (fRs1 w)).toNat
  let src := (c.rx (fRs2 w)).toNat % 2 ^ (8 * n)
  let ext (v : Nat) : BitVec 64 := BitVec.ofInt 64 (signedOf (8 * n) v)
  if !(fF3 w == 2 || fF3 w == 3) || (f5 == 2 && (fRs2 w).val != 0) then s.trap p r 2 w
  else if f5 != 2 && f5 != 3 && (amoValue f5 n 0 0).isNone then s.trap p r 2 w
  else match p.checkAcc r.core a n (f5 != 2) true with
  | .fault k => s.trap p r (if f5 == 2 && k == 7 then 5 else if f5 == 2 && k == 6 then 4 else k) a
  | .ok l =>
    if s.tooMany r l then s.block r .memory
    else match f5 with
    | 2 =>
      match l.resvKey with
      | none => s.trap p r 5 a
      | some k =>
        let v := leNat (s.locRead l n)
        ((s.modCtx r fun c => { c with resv := some k }).pend r l (.int (fRd w) (ext v))).retire p r len
    | 3 =>
      match l.resvKey with
      | none => s.trap p r 7 a
      | some k =>
        let finish (s : State) (ok : Bool) : State :=
          let s := if ok then s.locWrite l (toLE n src) (some r) else s
          let s := if recorded a then s.waitRec p r 4 (if ok then 0 else 2) a (if ok then 0 else 1) else s
          ((s.modCtx r fun c => { c with resv := none }).pend r l (.int (fRd w) (if ok then 0 else 1))).retire p r len
        if s.replaying p.num && recorded a then
          s.replayOp p r 5 (fun b => fieldAt b 0 1 == 4 && fieldAt b 8 8 == a) fun b s => some (finish s (fieldAt b 1 1 == 0))
        else finish s (c.resv == some k)
    | _ =>
      match s.holdFor r l with
      | some s => s
      | none =>
        let s := s.chargeLoc p r l n
        if s.locBad l n then (s.reportBadLoc p l).trap p r 7 a
        else
          let old := leNat (s.locRead l n)
          let finish (s : State) (seen : Nat) : State :=
            let s := s.locWrite l (toLE n ((amoValue f5 n old src).getD 0)) (some r)
            let s := if recorded a then s.waitRec p r 3 0 a old else s
            (s.pend r l (.int (fRd w) (ext seen))).retire p r len
          if s.replaying p.num && recorded a then
            let first := s.cask.todo.find? fun x => x.part == p.num && x.typ == 5 && fieldAt x.body 0 1 == 3 && fieldAt x.body 8 8 == a
            s.replayOp p r 5 (fun b => fieldAt b 0 1 == 3 && fieldAt b 8 8 == a) fun b s =>
              if first.any fun x => x.source == r.source then some (finish s (fieldAt b 16 8)) else none
          else finish s old

end Sys2Proof.Machine
end

