-- ==== Sys2Proof/Machine/VectorAlu.lean ====
section
/-! DEFINITION. Sys2Proof/Machine/VectorAlu.lean: what a vector arithmetic word computes from the registers it reads: integer, fixed-point
and floating-point elements, reductions, masks and permutations (R239 names V 1.0 and Zvfbfmin and does not repeat them: PRESUMED,
assumption 33). Putting the result into a slot is Vector.lean's. -/
namespace Sys2Proof.Machine
open Fmt (fp32 fp64 bf16)

/-! ### Groups and elements -/

/-- The exponent of a vlmul field. -/
def lmulLog (vt : Nat) : Int := signedOf 3 vt
def sewOf (vt : Nat) : Nat := 8 * 2 ^ bitsOf vt 5 3

/-- VLMAX: LMUL × 4,096 / SEW. -/
def vlmaxOf (vt : Nat) : Nat := ((4096 * 8 / sewOf vt) * 2 ^ (lmulLog vt + 3).toNat) / 64

/-- Registers that a group takes. -/
def groupRegs (l : Int) : Nat := if l ≤ 0 then 1 else 2 ^ l.toNat

/-- A group of vector registers: its first register, its elements' bits, and the exponent of its length in registers. -/
structure VGroup where
  v : Nat
  bits : Nat
  l : Int
  deriving DecidableEq, Repr

def VGroup.regs (g : VGroup) : Nat := groupRegs g.l
/-- A mask register. -/
def maskReg (v : Nat) : VGroup := ⟨v, 1, 0⟩
def VGroup.ok (g : VGroup) : Bool := -3 ≤ g.l && g.l ≤ 3 && g.v % g.regs == 0 && g.bits ≤ 64 && g.bits != 2 && g.bits != 4
def VGroup.meets (a b : VGroup) : Bool := a.v < b.v + b.regs && b.v < a.v + a.regs
/-- A destination may overlap a source of the same width, the lowest part of a wider source, or as its highest part a narrower source. -/
def VGroup.destOk (d s : VGroup) : Bool :=
  !d.meets s || d.bits == s.bits || (d.bits < s.bits && d.v == s.v) || (d.bits > s.bits && 0 ≤ s.l && d.v + d.regs == s.v + s.regs)
/-- No register is read with two element widths. -/
def VGroup.srcOk (a b : VGroup) : Bool := !a.meets b || a.bits == b.bits
/-- Elements that a group has room for, its tail included. -/
def VGroup.room (g : VGroup) : Nat := g.regs * 4096 / g.bits

/-- Cut bytes into `k` numbers of `n` bytes. -/
def cutLE (n : Nat) : Nat → Bytes → List Nat
  | 0, _ => []
  | k + 1, b => leNat (b.take n) :: cutLE n k (b.drop n)

/-- What a vector arithmetic word reads. -/
structure VEnv where
  w : Nat
  vtype : Nat
  vl : Nat
  vstart : Nat
  vxrm : Nat
  rm : Option RMode
  x : BitVec 64
  f : BitVec 64
  read : Nat → Nat → Bytes

namespace VEnv

def sew (e : VEnv) : Nat := sewOf e.vtype
def l (e : VEnv) : Int := lmulLog e.vtype
def vd (e : VEnv) : Nat := (fRd e.w).val
def vs1 (e : VEnv) : Nat := (fRs1 e.w).val
def vs2 (e : VEnv) : Nat := (fRs2 e.w).val
def f6 (e : VEnv) : Nat := e.w / 2 ^ 26 % 64
def vm (e : VEnv) : Bool := bitOf e.w 25
def vlmax (e : VEnv) : Nat := vlmaxOf e.vtype
/-- The group at a register whose elements have `bits` bits: LMUL scaled by their width. -/
def grp (e : VEnv) (v bits : Nat) : VGroup := ⟨v, bits, e.l + (Nat.log2 bits : Int) - (Nat.log2 e.sew : Int)⟩
/-- All elements of a group. -/
def els (e : VEnv) (g : VGroup) : Array Nat := (cutLE (g.bits / 8) g.room (e.read (g.v * 512) (g.regs * 512))).toArray
/-- The bytes of a mask register, and one bit of them. -/
def maskBytes (e : VEnv) (v : Nat) : Array Nat := (cutLE 1 512 (e.read (v * 512) 512)).toArray
/-- Element 0 of a register. -/
def first (e : VEnv) (v bits : Nat) : Nat := leNat (e.read (v * 512) (bits / 8))
/-- The immediate, sign-extended into an element, and the scalar in an element. -/
def simm (e : VEnv) : Nat := unsignedOf e.sew (signedOf 5 e.vs1)
def scalar (e : VEnv) : Nat := e.x.toNat % 2 ^ e.sew

end VEnv

/-- Bit `i` of a mask. -/
def maskBit (m : Array Nat) (i : Nat) : Bool := (m.getD (i / 8) 0).testBit (i % 8)

/-- The value of one element, with the flags it raises and whether it saturated. -/
structure VEl where
  v : Nat
  fl : FFlags := .none
  sat : Bool := false
  deriving DecidableEq, Repr

/-- What a vector arithmetic word yields: an illegal word; elements `from` to `to` of a group (none: masked off), from `to` on its tail;
bits of a mask register, with the rest of it tail; an integer or floating-point register; bytes of whole registers; or nothing. -/
inductive VOut where
  | bad
  | group (d : VGroup) (start stop : Nat) (els : List (Option VEl))
  | mask (v : Nat) (start : Nat) (els : List (Option Bool))
  | x (v : BitVec 64)
  | f (v : BitVec 64)
  | whole (v start : Nat) (b : Bytes)
  | nothing

/-- The registers of a word are allowed: aligned groups, no register read with two widths, and a destination that overlaps no source where it
may not; `masked` where v0 is its mask. -/
def VGroup.legal (d : VGroup) (srcs : List VGroup) (masked : Bool) : Bool :=
  let all := if masked then maskReg 0 :: srcs else srcs
  d.ok && srcs.all (·.ok) && srcs.all d.destOk && (all.all fun a => all.all fun b => a.srcOk b) && !(masked && d.bits != 1 && d.v == 0)

/-- Run an operation over elements vstart to vl - 1 of a group, those masked off left out. -/
def VEnv.each (e : VEnv) (d : VGroup) (masked : Bool) (op : Nat → VEl) : VOut :=
  if e.vstart ≥ e.vl then .nothing
  else
    let m := e.maskBytes 0
    .group d e.vstart e.vl ((List.range (e.vl - e.vstart)).map fun k =>
      let i := e.vstart + k
      if !masked || maskBit m i then some (op i) else none)

/-- The same with a mask register as destination. -/
def VEnv.eachBit (e : VEnv) (masked : Bool) (op : Nat → Bool × FFlags) : VOut × FFlags :=
  if e.vstart ≥ e.vl then (.nothing, .none)
  else
    let m := e.maskBytes 0
    let r := (List.range (e.vl - e.vstart)).map fun k =>
      let i := e.vstart + k
      if !masked || maskBit m i then some (op i) else none
    (.mask e.vd e.vstart (r.map fun o => o.map (·.1)), r.foldl (fun a o => match o with | some v => a.or v.2 | none => a) .none)

/-- The second operand's elements: a group at vs1, or one number. -/
inductive VSrc where
  | reg (bits : Nat)
  | num (v : Nat)

def VSrc.groups (y : VSrc) (e : VEnv) : List VGroup := match y with | .reg b => [e.grp e.vs1 b] | .num _ => []
def VSrc.at (y : VSrc) (e : VEnv) : Nat → Nat :=
  match y with
  | .reg b => let a := e.els (e.grp e.vs1 b); fun i => a.getD i 0
  | .num v => fun _ => v

/-- An element-wise operation of vs2 (`xb` bits) and the second operand on a destination of `db` bits; `old` where vd is a source too. -/
def VEnv.elementwise (e : VEnv) (db xb : Nat) (y : VSrc) (old masked : Bool) (op : Nat → Nat → Nat → Nat → VEl) : VOut :=
  let d := e.grp e.vd db
  let xg := e.grp e.vs2 xb
  if !d.legal (xg :: (y.groups e ++ if old then [d] else [])) masked then .bad
  else
    let xa := e.els xg
    let ya := y.at e
    let da := if old then e.els d else #[]
    e.each d masked fun i => op i (xa.getD i 0) (ya i) (da.getD i 0)

/-! ### Integer and fixed-point elements -/

def VEl.ofInt (w : Nat) (i : Int) : VEl := { v := unsignedOf w i }
/-- Clip an exact value into `w` bits. -/
def VEl.clip (w : Nat) (sgn : Bool) (i : Int) : VEl :=
  let lo : Int := if sgn then -(2 ^ (w - 1) : Nat) else 0
  let hi : Int := if sgn then (2 ^ (w - 1) : Nat) - 1 else (2 ^ w : Nat) - 1
  if i < lo then { v := unsignedOf w lo, sat := true } else if i > hi then { v := unsignedOf w hi, sat := true } else .ofInt w i

/-- Shift an exact value right by `d`, rounded as vxrm says. -/
def roundOff (vxrm : Nat) (v : Int) (d : Nat) : Int :=
  if d == 0 then v
  else
    let q := v / (2 ^ d : Nat)
    let r := (v % (2 ^ d : Nat)).toNat
    let up : Bool := match vxrm with
      | 0 => r ≥ 2 ^ (d - 1)
      | 1 => r > 2 ^ (d - 1) || (r == 2 ^ (d - 1) && q % 2 == 1)
      | 2 => false
      | _ => q % 2 == 0 && r != 0
    if up then q + 1 else q

/-- The operations of OPIVV, OPIVX and OPIVI whose operands and result have one width. -/
def viOp (f6 w vxrm x y : Nat) : Option VEl :=
  let sx := signedOf w x
  let sy := signedOf w y
  let sh := y % w
  let int (i : Int) : Option VEl := some (.ofInt w i)
  match f6 with
  | 0 => int (x + y)
  | 2 => int ((x : Int) - y)
  | 3 => int ((y : Int) - x)
  | 4 => int (min x y : Nat)
  | 5 => int (min sx sy)
  | 6 => int (max x y : Nat)
  | 7 => int (max sx sy)
  | 9 => int (x &&& y : Nat)
  | 10 => int (x ||| y : Nat)
  | 11 => int (x ^^^ y : Nat)
  | 32 => some (.clip w false (x + y))
  | 33 => some (.clip w true (sx + sy))
  | 34 => some (.clip w false ((x : Int) - y))
  | 35 => some (.clip w true (sx - sy))
  | 37 => int (x * 2 ^ sh : Nat)
  | 39 => some (.clip w true (roundOff vxrm (sx * sy) (w - 1)))
  | 40 => int (x / 2 ^ sh : Nat)
  | 41 => int (sx / (2 ^ sh : Nat))
  | 42 => int (roundOff vxrm x sh)
  | 43 => int (roundOff vxrm sx sh)
  | _ => none

/-- The narrowing shifts and clips: vs2 has twice the width. -/
def vnOp (f6 w vxrm x y : Nat) : Option VEl :=
  let sx := signedOf (2 * w) x
  let sh := y % (2 * w)
  match f6 with
  | 44 => some (.ofInt w (x / 2 ^ sh : Nat))
  | 45 => some (.ofInt w (sx / (2 ^ sh : Nat)))
  | 46 => some (.clip w false (roundOff vxrm x sh))
  | 47 => some (.clip w true (roundOff vxrm sx sh))
  | _ => none

/-- The integer compares. -/
def vcOp (f6 w x y : Nat) : Option Bool :=
  match f6 with
  | 24 => some (x == y)
  | 25 => some (x != y)
  | 26 => some (x < y)
  | 27 => some (signedOf w x < signedOf w y)
  | 28 => some (x ≤ y)
  | 29 => some (signedOf w x ≤ signedOf w y)
  | 30 => some (x > y)
  | 31 => some (signedOf w x > signedOf w y)
  | _ => none

/-- The operations of OPMVV and OPMVX whose operands and result have one width; `d` is vd's element. -/
def vmOp (f6 w vxrm x y d : Nat) : Option VEl :=
  let sx := signedOf w x
  let sy := signedOf w y
  let int (i : Int) : Option VEl := some (.ofInt w i)
  match f6 with
  | 8 => int (roundOff vxrm (x + y) 1)
  | 9 => int (roundOff vxrm (sx + sy) 1)
  | 10 => int (roundOff vxrm ((x : Int) - y) 1)
  | 11 => int (roundOff vxrm (sx - sy) 1)
  | 32 => int (divRem w false false x y)
  | 33 => int (divRem w true false sx sy)
  | 34 => int (divRem w false true x y)
  | 35 => int (divRem w true true sx sy)
  | 36 => int (x * y / 2 ^ w : Nat)
  | 37 => int (x * y : Nat)
  | 38 => int (sx * y / (2 ^ w : Nat))
  | 39 => int (sx * sy / (2 ^ w : Nat))
  | 41 => int (y * d + x : Nat)
  | 43 => int ((x : Int) - y * d)
  | 45 => int (y * x + d : Nat)
  | 47 => int ((d : Int) - y * x)
  | _ => none

/-- The widening operations: the second operand has width `w`, vs2 too but for the .w forms (52 to 55), the result twice that. -/
def vwOp (f6 w x y d : Nat) : Option VEl :=
  let sx := signedOf w x
  let sy := signedOf w y
  let int (i : Int) : Option VEl := some (.ofInt (2 * w) i)
  match f6 with
  | 48 => int (x + y)
  | 49 => int (sx + sy)
  | 50 => int ((x : Int) - y)
  | 51 => int (sx - sy)
  | 52 => int (x + y)
  | 53 => int (x + sy)
  | 54 => int ((x : Int) - y)
  | 55 => int (x - sy)
  | 56 => int (x * y)
  | 58 => int (sx * y)
  | 59 => int (sx * sy)
  | 60 => int (x * y + d)
  | 61 => int (sx * sy + d)
  | 62 => int (sx * y + d)
  | 63 => int (x * sy + d)
  | _ => none

/-- The integer reductions on exact operands: sum, and, or, xor, minu, min, maxu, max. -/
def vredOp (f6 w a x : Nat) : Nat :=
  match f6 with
  | 0 => (a + x) % 2 ^ w
  | 1 => a &&& x
  | 2 => a ||| x
  | 3 => a ^^^ x
  | 4 => min a x
  | 5 => if signedOf w x < signedOf w a then x else a
  | 6 => max a x
  | _ => if signedOf w x > signedOf w a then x else a

/-! ### Floating-point elements -/

/-- The format of an element width; none where the profile has none (R239: FP32 and FP64 elements). -/
def vfmt (w : Nat) : Option Fmt := if w == 32 then some fp32 else if w == 64 then some fp64 else none

def VEl.ofF (r : Nat × FFlags) : VEl := { v := r.1, fl := r.2 }

/-- A fused multiply-add by the low three bits of its funct6: vd is a factor below 4 and the addend from there on. -/
def vfmaOp (f : Fmt) (rm : RMode) (k : Nat) (x y d : FVal) : VEl :=
  let (a, b) := if k < 4 then (d, x) else (x, d)
  let neg (c : Bool) (v : FVal) : FVal := if c then v.negate else v
  .ofF (ffmaV f rm (neg (k % 2 == 1) y) a (neg (k % 4 == 1 || k % 4 == 2) b))

/-- The operations of OPFVV and OPFVF whose operands and result have one format. -/
def vfOp (f6 : Nat) (f : Fmt) (rm : RMode) (x y d : Nat) : Option VEl :=
  let a := fdecode f x
  let b := fdecode f y
  let sg := 2 ^ (f.width - 1)
  let s (v : Nat) : Nat := v / sg % 2
  match f6 with
  | 0 => some (.ofF (faddV f rm a b))
  | 2 => some (.ofF (faddV f rm a b.negate))
  | 4 => some (.ofF (minMaxF f false x y))
  | 6 => some (.ofF (minMaxF f true x y))
  | 8 => some { v := x % sg + s y * sg }
  | 9 => some { v := x % sg + (1 - s y) * sg }
  | 10 => some { v := x % sg + (s x + s y) % 2 * sg }
  | 32 => some (.ofF (fdivV f rm a b))
  | 33 => some (.ofF (fdivV f rm b a))
  | 36 => some (.ofF (fmulV f rm a b))
  | 39 => some (.ofF (faddV f rm b a.negate))
  | 40 | 41 | 42 | 43 | 44 | 45 | 46 | 47 => some (vfmaOp f rm (f6 % 8) a b (fdecode f d))
  | _ => none

/-- The widening operations on FP32, the result FP64; vs2 is FP64 in the .w forms. -/
def vfwOp (f6 : Nat) (rm : RMode) (x y d : Nat) : Option VEl :=
  let a := fdecode (if f6 == 52 || f6 == 54 then fp64 else fp32) x
  let b := fdecode fp32 y
  match f6 with
  | 48 | 52 => some (.ofF (faddV fp64 rm a b))
  | 50 | 54 => some (.ofF (faddV fp64 rm a b.negate))
  | 56 => some (.ofF (fmulV fp64 rm a b))
  | 60 | 61 | 62 | 63 => some (vfmaOp fp64 rm (f6 % 8) a b (fdecode fp64 d))
  | _ => none

/-- The floating-point compares: equal and not equal are quiet. -/
def vfcOp (f6 : Nat) (f : Fmt) (x y : Nat) : Option (Bool × FFlags) :=
  let a := fdecode f x
  let b := fdecode f y
  let quiet : FFlags := if isSnan a || isSnan b then .invalid else .none
  let loud : FFlags := if a.isNan || b.isNan then .invalid else .none
  match f6 with
  | 24 => some (feqV a b, quiet)
  | 25 => some (fltV a b || feqV a b, loud)
  | 27 => some (fltV a b, loud)
  | 28 => some (!feqV a b, quiet)
  | 29 => some (fltV b a, loud)
  | 31 => some (fltV b a || feqV a b, loud)
  | _ => none

/-- The seven significand bits of the reciprocal estimate, by the operand's. -/
def recipTable : List Nat :=
  [127, 125, 123, 121, 119, 117, 116, 114, 112, 110, 109, 107, 105, 104, 102, 100, 99, 97, 96, 94, 93, 91, 90, 88, 87, 85, 84, 83, 81, 80, 79, 77]
  ++ [76, 75, 74, 72, 71, 70, 69, 68, 66, 65, 64, 63, 62, 61, 60, 59, 58, 57, 56, 55, 54, 53, 52, 51, 50, 49, 48, 47, 46, 45, 44, 43]
  ++ [42, 41, 40, 40, 39, 38, 37, 36, 35, 35, 34, 33, 32, 31, 31, 30, 29, 28, 28, 27, 26, 25, 25, 24, 23, 23, 22, 21, 21, 20, 19, 19]
  ++ [18, 17, 17, 16, 15, 15, 14, 14, 13, 12, 12, 11, 11, 10, 9, 9, 8, 8, 7, 7, 6, 5, 5, 4, 4, 3, 3, 2, 2, 1, 1, 0]

/-- The same of the reciprocal square root estimate, by the exponent's low bit and six significand bits. -/
def rsqrtTable : List Nat :=
  [52, 51, 50, 48, 47, 46, 44, 43, 42, 41, 40, 39, 38, 36, 35, 34, 33, 32, 31, 30, 30, 29, 28, 27, 26, 25, 24, 23, 23, 22, 21, 20]
  ++ [19, 19, 18, 17, 16, 16, 15, 14, 14, 13, 12, 12, 11, 10, 10, 9, 9, 8, 7, 7, 6, 6, 5, 4, 4, 3, 3, 2, 2, 1, 1, 0]
  ++ [127, 125, 123, 121, 119, 118, 116, 114, 113, 111, 109, 108, 106, 105, 103, 102, 100, 99, 97, 96, 95, 93, 92, 91, 90, 88, 87, 86, 85, 84, 83, 82]
  ++ [80, 79, 78, 77, 76, 75, 74, 73, 72, 71, 70, 70, 69, 68, 67, 66, 65, 64, 63, 63, 62, 61, 60, 59, 59, 58, 57, 56, 56, 55, 54, 53]

/-- The exponent and fraction of a finite nonzero pattern as a normalised number. -/
def normParts (f : Fmt) (x : Nat) : Int × Nat :=
  let ex := x / 2 ^ f.mw % 2 ^ f.ew
  let fr := x % 2 ^ f.mw
  if ex != 0 then (ex, fr)
  else
    let lz := f.mw - 1 - fr.log2
    (-(lz : Int), fr * 2 ^ (lz + 1) % 2 ^ f.mw)

/-- vfrsqrt7: the seven-bit estimate of 1/√x. -/
def vfrsqrt7 (f : Fmt) (x : Nat) : VEl :=
  match fdecode f x with
  | .nan s => { v := f.nanBits, fl := { nv := s } }
  | .inf n => if n then { v := f.nanBits, fl := .invalid } else { v := 0 }
  | .fin n m _ =>
    if m == 0 then { v := (if n then f.signBit else 0) + f.infBits, fl := { dz := true } }
    else if n then { v := f.nanBits, fl := .invalid }
    else
      let (ex, fr) := normParts f x
      let t := nth rsqrtTable ((ex % 2).toNat * 64 + fr / 2 ^ (f.mw - 6)) 0
      { v := ((3 * f.bias - 1 - ex) / 2).toNat * 2 ^ f.mw + t * 2 ^ (f.mw - 7) }

/-- vfrec7: the seven-bit estimate of 1/x. -/
def vfrec7 (f : Fmt) (rm : RMode) (x : Nat) : VEl :=
  let sg := if x.testBit (f.width - 1) then f.signBit else 0
  match fdecode f x with
  | .nan s => { v := f.nanBits, fl := { nv := s } }
  | .inf _ => { v := sg }
  | .fin n m _ =>
    if m == 0 then { v := sg + f.infBits, fl := { dz := true } }
    else
      let (ex, fr) := normParts f x
      if ex < -1 then
        let big := !(rm == .rtz || (rm == .rdn && !n) || (rm == .rup && n))
        { v := sg + (if big then f.infBits else f.top), fl := { of := true, nx := true } }
      else
        let t := nth recipTable (fr / 2 ^ (f.mw - 7)) 0 * 2 ^ (f.mw - 7)
        let oe := 2 * f.bias - 1 - ex
        if oe > 0 then { v := sg + oe.toNat * 2 ^ f.mw + t }
        else if oe == 0 then { v := sg + (t + 2 ^ f.mw) / 2 }
        else { v := sg + (t + 2 ^ f.mw) / 4 }

/-- Round to odd: truncate, and set the lowest bit of an inexact result. -/
def froundOdd (f : Fmt) (x : FVal) : VEl :=
  let r := fencode f .rtz x
  { v := if r.2.nx then r.1 ||| 1 else r.1, fl := r.2 }

/-- The number of a rounding mode in frm. -/
def rmNum : RMode → Nat
  | .rne => 0
  | .rtz => 1
  | .rdn => 2
  | .rup => 3
  | .rmm => 4

/-- A conversion to an integer of `w` bits. -/
def vToInt (w : Nat) (sgn : Bool) (rm : RMode) (x : FVal) : VEl :=
  let r := if sgn then toIntF rm x (-(2 ^ (w - 1) : Nat)) ((2 ^ (w - 1) : Nat) - 1) else toIntF rm x 0 ((2 ^ w : Nat) - 1)
  { v := unsignedOf w r.1, fl := r.2 }

/-- A conversion from an integer of `w` bits. -/
def vFromInt (f : Fmt) (w : Nat) (sgn : Bool) (rm : RMode) (x : Nat) : VEl :=
  .ofF (froundInt f rm (if sgn then signedOf w x else (x : Int)) 0 false)

/-! ### The words -/

/-- A unary operation of vs2. -/
def VEnv.unary (e : VEnv) (db xb : Nat) (op : Nat → VEl) : VOut :=
  e.elementwise db xb (.num 0) false (!e.vm) fun _ x _ _ => op x

/-- A reduction into element 0 of vd: vs2's active elements, from vs1's element 0 of `db` bits on. -/
def VEnv.reduce (e : VEnv) (db : Nat) (op : Nat → List Nat → VEl) : VOut :=
  let xg := e.grp e.vs2 e.sew
  let all := [xg, ⟨e.vs1, db, 0⟩] ++ if e.vm then [] else [maskReg 0]
  if e.vstart != 0 || db > 64 || !xg.ok || !(all.all fun a => all.all fun b => a.srcOk b) then .bad
  else if e.vl == 0 then .nothing
  else
    let m := e.maskBytes 0
    let xa := e.els xg
    let act := (List.range e.vl).filterMap fun i => if e.vm || maskBit m i then some (xa.getD i 0) else none
    .group ⟨e.vd, db, 0⟩ 0 1 [some (op (e.first e.vs1 db) act)]

/-- A slide up by `o`: elements below it keep their values. -/
def VEnv.slideUp (e : VEnv) (o : Nat) : VOut :=
  let d := e.grp e.vd e.sew
  let xg := e.grp e.vs2 e.sew
  if !d.legal [xg] (!e.vm) || d.meets xg then .bad
  else if e.vstart ≥ e.vl then .nothing
  else
    let m := e.maskBytes 0
    let xa := e.els xg
    let s := max e.vstart (min o e.vl)
    .group d s e.vl ((List.range (e.vl - s)).map fun k =>
      let i := s + k
      if e.vm || maskBit m i then some { v := xa.getD (i - o) 0 } else none)

/-- Each element from an index of vs2's group, zero beyond VLMAX. -/
def VEnv.gather (e : VEnv) (y : VSrc) (apart : Bool) (at_ : Nat → Nat → Nat) : VOut :=
  let d := e.grp e.vd e.sew
  let xg := e.grp e.vs2 e.sew
  if !d.legal (xg :: y.groups e) (!e.vm) || (apart && (d.meets xg || (y.groups e).any d.meets)) then .bad
  else
    let xa := e.els xg
    let ya := y.at e
    e.each d (!e.vm) fun i => let j := at_ i (ya i); { v := if j < e.vlmax then xa.getD j 0 else 0 }

/-- OPIVV, OPIVX and OPIVI. -/
def VEnv.opi (e : VEnv) : VOut × FFlags :=
  let f3 := fF3 e.w
  let imm := f3 == 3
  let vv := f3 == 0
  let w := e.sew
  let ys (v : Nat) : VSrc := if vv then .reg w else .num v
  let sy := ys (if imm then e.simm else e.scalar)
  let uy := ys (if imm then e.vs1 else e.scalar)
  let far := if imm then e.vs1 else e.x.toNat
  let op (y : VSrc) : VOut := e.elementwise w w y false (!e.vm) fun _ x y _ => (viOp e.f6 w e.vxrm x y).getD { v := 0 }
  /- With v0 as carry, borrow or choice instead of a mask. -/
  let carried (f : Bool → Nat → Nat → VEl) : VOut :=
    if e.vd == 0 || !(VGroup.srcOk (maskReg 0) (e.grp e.vs2 w) && (sy.groups e).all (VGroup.srcOk (maskReg 0))) then .bad
    else
      let m := e.maskBytes 0
      e.elementwise w w sy false false fun i x y _ => f (maskBit m i) x y
  let bits (masked : Bool) (extra : List VGroup) (f : Nat → Nat → Nat → Bool) : VOut × FFlags :=
    let xg := e.grp e.vs2 w
    if !(maskReg e.vd).legal (xg :: (sy.groups e ++ extra)) masked then (.bad, .none)
    else
      let xa := e.els xg
      let ya := sy.at e
      e.eachBit masked fun i => (f i (xa.getD i 0) (ya i), .none)
  let carryOut (f : Nat → Nat → Nat → Bool) : VOut × FFlags :=
    let m := e.maskBytes 0
    bits false (if e.vm then [] else [maskReg 0]) fun i x y => f (if e.vm then 0 else b2n (maskBit m i)) x y
  let one (o : VOut) : VOut × FFlags := (o, .none)
  match e.f6 with
  | 0 | 9 | 10 | 11 | 32 | 33 => one (op sy)
  | 3 => if vv then one .bad else one (op sy)
  | 2 | 4 | 5 | 6 | 7 | 34 | 35 => if imm then one .bad else one (op sy)
  | 37 | 40 | 41 | 42 | 43 => one (op uy)
  | 12 => one (if vv then e.gather (.reg w) true fun _ y => y else e.gather (.num far) true fun _ y => y)
  | 14 => one (if vv then e.gather (.reg 16) true fun _ y => y else e.slideUp far)
  | 15 => if vv then one .bad else one (e.gather (.num far) false fun i y => i + y)
  | 16 => if e.vm then one .bad else one (carried fun c x y => .ofInt w (x + y + b2n c))
  | 18 => if e.vm || imm then one .bad else one (carried fun c x y => .ofInt w ((x : Int) - y - b2n c))
  | 17 => carryOut fun c x y => x + y + c ≥ 2 ^ w
  | 19 => if imm then one .bad else carryOut fun c x y => x < y + c
  | 23 =>
    if !e.vm then one (carried fun c x y => { v := if c then y else x })
    else if e.vs2 != 0 then one .bad
    else
      let d := e.grp e.vd w
      one (if !d.legal (sy.groups e) false then .bad else let ya := sy.at e; e.each d false fun i => { v := ya i })
  | 24 | 25 | 28 | 29 => bits (!e.vm) [] fun _ x y => (vcOp e.f6 w x y).getD false
  | 26 | 27 => if imm then one .bad else bits (!e.vm) [] fun _ x y => (vcOp e.f6 w x y).getD false
  | 30 | 31 => if vv then one .bad else bits (!e.vm) [] fun _ x y => (vcOp e.f6 w x y).getD false
  | 39 =>
    if !imm then one (op sy)
    else
      let n := e.vs1 + 1
      if !e.vm || !(n == 1 || n == 2 || n == 4 || n == 8) || e.vd % n != 0 || e.vs2 % n != 0 then one .bad
      else
        let o := e.vstart * (w / 8)
        one (if o ≥ n * 512 then .nothing else .whole e.vd o (e.read (e.vs2 * 512 + o) (n * 512 - o)))
  | 44 | 45 | 46 | 47 =>
    one (if w > 32 then .bad else e.elementwise w (2 * w) uy false (!e.vm) fun _ x y _ => (vnOp e.f6 w e.vxrm x y).getD { v := 0 })
  | 48 | 49 =>
    one (if !vv || w > 32 then .bad else e.reduce (2 * w) fun a xs =>
      { v := xs.foldl (fun a x => unsignedOf (2 * w) (a + (if e.f6 == 49 then signedOf w x else (x : Int)))) a })
  | _ => one .bad

/-- OPMVV and OPMVX. -/
def VEnv.opm (e : VEnv) : VOut :=
  let vv := fF3 e.w == 2
  let w := e.sew
  let y : VSrc := if vv then .reg w else .num e.scalar
  let masked := !e.vm
  let op (old : Bool) : VOut := e.elementwise w w y old masked fun _ x y d => (vmOp e.f6 w e.vxrm x y d).getD { v := 0 }
  let wide (old : Bool) : VOut :=
    if w > 32 then .bad
    else e.elementwise (2 * w) (if 52 ≤ e.f6 && e.f6 ≤ 55 then 2 * w else w) y old masked fun _ x y d =>
      (vwOp e.f6 w x y d).getD { v := 0 }
  let m0 := e.maskBytes 0
  let on (i : Nat) : Bool := e.vm || maskBit m0 i
  let src := e.maskBytes e.vs2
  let d := e.grp e.vd w
  match e.f6 with
  | 0 | 1 | 2 | 3 | 4 | 5 | 6 | 7 => if vv then e.reduce w fun a xs => { v := xs.foldl (vredOp e.f6 w) a } else .bad
  | 8 | 9 | 10 | 11 | 32 | 33 | 34 | 35 | 36 | 37 | 38 | 39 => op false
  | 41 | 43 | 45 | 47 => op true
  | 48 | 49 | 50 | 51 | 52 | 53 | 54 | 55 | 56 | 58 | 59 => wide false
  | 60 | 61 | 63 => wide true
  | 62 => if vv then .bad else wide true
  | 14 =>
    let xg := e.grp e.vs2 w
    if vv || !d.legal [xg] masked || d.meets xg then .bad
    else let xa := e.els xg; e.each d masked fun i => { v := if i == 0 then e.scalar else xa.getD (i - 1) 0 }
  | 15 =>
    let xg := e.grp e.vs2 w
    if vv || !d.legal [xg] masked then .bad
    else let xa := e.els xg; e.each d masked fun i => { v := if i + 1 == e.vl then e.scalar else xa.getD (i + 1) 0 }
  | 16 =>
    if !vv then
      if !e.vm || e.vs2 != 0 then .bad
      else if e.vstart ≥ e.vl then .nothing else .group ⟨e.vd, w, 0⟩ 0 1 [some { v := e.scalar }]
    else match e.vs1 with
    | 0 => if e.vm then .x (BitVec.ofInt 64 (signedOf w (e.first e.vs2 w))) else .bad
    | 16 => if e.vstart != 0 then .bad else .x (BitVec.ofNat 64 ((List.range e.vl).filter fun i => on i && maskBit src i).length)
    | 17 =>
      if e.vstart != 0 then .bad
      else match (List.range e.vl).find? fun i => on i && maskBit src i with
        | some i => .x (BitVec.ofNat 64 i)
        | none => .x (BitVec.ofInt 64 (-1))
    | _ => .bad
  | 18 =>
    let ext (n : Nat) : VOut :=
      if w / n < 8 then .bad
      else e.unary w (w / n) fun x => if e.vs1 % 2 == 1 then .ofInt w (signedOf (w / n) x) else { v := x }
    if !vv then .bad
    else match e.vs1 with
    | 2 | 3 => ext 8
    | 4 | 5 => ext 4
    | 6 | 7 => ext 2
    | _ => .bad
  | 20 =>
    let hit := (List.range e.vl).find? fun i => on i && maskBit src i
    let set (f : Nat → Nat → Bool) (all : Bool) : VOut :=
      if e.vstart != 0 || e.vd == e.vs2 || (masked && e.vd == 0) then .bad
      else (e.eachBit masked fun i => (match hit with | some j => f i j | none => all, FFlags.none)).1
    if !vv then .bad
    else match e.vs1 with
    | 1 => set (fun i j => i < j) true
    | 2 => set (fun i j => i == j) false
    | 3 => set (fun i j => i ≤ j) true
    | 16 =>
      if e.vstart != 0 || !d.legal [] masked || d.meets (maskReg e.vs2) then .bad
      else
        let sums := ((List.range e.vl).foldl (fun (a : List Nat × Nat) i => (a.2 :: a.1, a.2 + b2n (on i && maskBit src i))) ([], 0)).1.reverse.toArray
        e.each d masked fun i => { v := sums.getD i 0 % 2 ^ w }
    | 17 => if e.vs2 != 0 || !d.legal [] masked then .bad else e.each d masked fun i => { v := i % 2 ^ w }
    | _ => .bad
  | 23 =>
    let xg := e.grp e.vs2 w
    let sel := maskReg e.vs1
    if !vv || !e.vm || e.vstart != 0 || !d.legal [xg] false || !xg.srcOk sel || d.meets xg || d.meets sel then .bad
    else if e.vl == 0 then .nothing
    else
      let xa := e.els xg
      let m := e.maskBytes e.vs1
      let l := ((List.range e.vl).filter (maskBit m)).map fun i => some { v := xa.getD i 0 }
      .group d 0 l.length l
  | 24 | 25 | 26 | 27 | 28 | 29 | 30 | 31 =>
    let b := e.maskBytes e.vs1
    let f (x y : Bool) : Bool := match e.f6 with
      | 24 => x && !y
      | 25 => x && y
      | 26 => x || y
      | 27 => x != y
      | 28 => x || !y
      | 29 => !(x && y)
      | 30 => !(x || y)
      | _ => x == y
    if !vv || !e.vm then .bad else (e.eachBit false fun i => (f (maskBit src i) (maskBit b i), FFlags.none)).1
  | _ => .bad

/-- OPFVV and OPFVF, whose words are all illegal under a reserved frm. -/
def VEnv.opf (e : VEnv) (rm : RMode) : VOut × FFlags :=
  let vv := fF3 e.w == 1
  let w := e.sew
  let masked := !e.vm
  let one (o : VOut) : VOut × FFlags := (o, .none)
  /- Conversions, by vs1. -/
  let cvt : VOut :=
    let same (g : Fmt → Nat → VEl) : VOut := match vfmt w with | some f => e.unary w w (g f) | none => .bad
    let wider (g : Nat → VEl) : VOut := if w == 32 then e.unary 64 32 g else .bad
    let from2 (g : Fmt → Nat → VEl) : VOut := match vfmt (2 * w) with | some f => e.unary w (2 * w) (g f) | none => .bad
    let to2 (g : Fmt → Nat → VEl) : VOut := match vfmt (2 * w) with | some f => e.unary (2 * w) w (g f) | none => .bad
    match e.vs1 with
    | 0 => same fun f x => vToInt w false rm (fdecode f x)
    | 1 => same fun f x => vToInt w true rm (fdecode f x)
    | 2 => same fun f x => vFromInt f w false rm x
    | 3 => same fun f x => vFromInt f w true rm x
    | 6 => same fun f x => vToInt w false .rtz (fdecode f x)
    | 7 => same fun f x => vToInt w true .rtz (fdecode f x)
    | 8 => wider fun x => vToInt 64 false rm (fdecode fp32 x)
    | 9 => wider fun x => vToInt 64 true rm (fdecode fp32 x)
    | 10 => to2 fun f x => vFromInt f w false rm x
    | 11 => to2 fun f x => vFromInt f w true rm x
    | 12 => wider fun x => .ofF (fencode fp64 rm (fdecode fp32 x))
    | 13 => if w == 16 then e.unary 32 16 fun x => .ofF (fencode fp32 rm (fdecode bf16 x)) else .bad
    | 14 => wider fun x => vToInt 64 false .rtz (fdecode fp32 x)
    | 15 => wider fun x => vToInt 64 true .rtz (fdecode fp32 x)
    | 16 => from2 fun f x => vToInt w false rm (fdecode f x)
    | 17 => from2 fun f x => vToInt w true rm (fdecode f x)
    | 18 => if w == 32 then e.unary 32 64 fun x => vFromInt fp32 64 false rm x else .bad
    | 19 => if w == 32 then e.unary 32 64 fun x => vFromInt fp32 64 true rm x else .bad
    | 20 => if w == 32 then e.unary 32 64 fun x => .ofF (fencode fp32 rm (fdecode fp64 x)) else .bad
    | 21 => if w == 32 then e.unary 32 64 fun x => froundOdd fp32 (fdecode fp64 x) else .bad
    | 22 => from2 fun f x => vToInt w false .rtz (fdecode f x)
    | 23 => from2 fun f x => vToInt w true .rtz (fdecode f x)
    | 29 => if w == 16 then e.unary 16 32 fun x => .ofF (fencode bf16 rm (fdecode fp32 x)) else .bad
    | _ => .bad
  if e.f6 == 18 then one (if vv then cvt else .bad)
  else match vfmt w with
  | none => one .bad
  | some f =>
    let num := unboxF f e.f
    let y : VSrc := if vv then .reg w else .num num
    let op (old : Bool) : VOut := e.elementwise w w y old masked fun _ x y d => (vfOp e.f6 f rm x y d).getD { v := 0 }
    let wide (old : Bool) : VOut :=
      if w != 32 then .bad
      else e.elementwise 64 (if e.f6 == 52 || e.f6 == 54 then 64 else 32) y old masked fun _ x y d => (vfwOp e.f6 rm x y d).getD { v := 0 }
    let red (db : Nat) (g : Nat × FFlags → Nat → Nat × FFlags) : VOut := e.reduce db fun a xs => .ofF (xs.foldl g (a, .none))
    /- The association of an unordered sum is open: a free value, but with no active element. -/
    let usum (db : Nat) : VOut := e.reduce db fun a xs =>
      if xs.isEmpty then { v := a }
      else
        let r := Config.unorderedSum e.w ([e.vtype, e.vl, rmNum rm, a] ++ xs)
        { v := r.1.toNat % 2 ^ db, fl := ⟨r.2.getLsbD 4, r.2.getLsbD 3, r.2.getLsbD 2, r.2.getLsbD 1, r.2.getLsbD 0⟩ }
    let osum (f x : Fmt) (db : Nat) : VOut := red db fun a v => let r := faddV f rm (fdecode f a.1) (fdecode x v); (r.1, a.2.or r.2)
    let cmp : VOut × FFlags :=
      let xg := e.grp e.vs2 w
      if !(maskReg e.vd).legal (xg :: y.groups e) masked then (.bad, .none)
      else
        let xa := e.els xg
        let ya := y.at e
        e.eachBit masked fun i => (vfcOp e.f6 f (xa.getD i 0) (ya i)).getD (false, .none)
    let d := e.grp e.vd w
    match e.f6 with
    | 0 | 2 | 4 | 6 | 8 | 9 | 10 | 32 | 36 => one (op false)
    | 33 | 39 => one (if vv then .bad else op false)
    | 40 | 41 | 42 | 43 | 44 | 45 | 46 | 47 => one (op true)
    | 48 | 50 | 52 | 54 | 56 => one (wide false)
    | 60 | 61 | 62 | 63 => one (wide true)
    | 1 => one (if vv then usum w else .bad)
    | 3 => one (if vv then osum f f w else .bad)
    | 5 | 7 => one (if vv then red w fun a v => let r := minMaxF f (e.f6 == 7) a.1 v; (r.1, a.2.or r.2) else .bad)
    | 49 => one (if vv && w == 32 then usum 64 else .bad)
    | 51 => one (if vv && w == 32 then osum fp64 fp32 64 else .bad)
    | 14 =>
      let xg := e.grp e.vs2 w
      if vv || !d.legal [xg] masked || d.meets xg then one .bad
      else let xa := e.els xg; one (e.each d masked fun i => { v := if i == 0 then num else xa.getD (i - 1) 0 })
    | 15 =>
      let xg := e.grp e.vs2 w
      if vv || !d.legal [xg] masked then one .bad
      else let xa := e.els xg; one (e.each d masked fun i => { v := if i + 1 == e.vl then num else xa.getD (i + 1) 0 })
    | 16 =>
      if !e.vm then one .bad
      else if vv then one (if e.vs1 == 0 then .f (boxF f (e.first e.vs2 w)) else .bad)
      else one (if e.vs2 != 0 then .bad else if e.vstart ≥ e.vl then .nothing else .group ⟨e.vd, w, 0⟩ 0 1 [some { v := num }])
    | 19 =>
      one (if !vv then .bad
        else match e.vs1 with
        | 0 => e.unary w w fun x => .ofF (fsqrtV f rm (fdecode f x))
        | 4 => e.unary w w (vfrsqrt7 f)
        | 5 => e.unary w w (vfrec7 f rm)
        | 16 => e.unary w w fun x => { v := classF f x }
        | _ => .bad)
    | 23 =>
      if vv then one .bad
      else if e.vm then one (if e.vs2 != 0 || !d.legal [] false then .bad else e.each d false fun _ => { v := num })
      else
        let xg := e.grp e.vs2 w
        if e.vd == 0 || !d.legal [xg] true then one .bad
        else
          let m := e.maskBytes 0
          let xa := e.els xg
          one (e.each d false fun i => { v := if maskBit m i then num else xa.getD i 0 })
    | 24 | 25 | 27 | 28 => cmp
    | 29 | 31 => if vv then one .bad else cmp
    | _ => one .bad

/-- What a vector arithmetic word yields, with the flags of a compare (a group's elements carry their own). -/
def VEnv.run (e : VEnv) : VOut × FFlags :=
  match fF3 e.w with
  | 0 | 3 | 4 => e.opi
  | 2 | 6 => (e.opm, .none)
  | 1 | 5 => match e.rm with | some rm => e.opf rm | none => (.bad, .none)
  | _ => (.bad, .none)

end Sys2Proof.Machine
end

