-- ==== Sys2Proof/Machine/Vector.lean ====
section
/-! DEFINITION. Sys2Proof/Machine/Vector.lean: the V extension in a context: configuration, memory accesses, and arithmetic put into the
registers of its vector slot (R239, R244, R248, R249; encodings and effects those of V 1.0: PRESUMED, assumption 33). -/
namespace Sys2Proof.Machine

/-! ### Vector configuration and memory -/

/-- vtype's value is supported: SEW to 64, LMUL at least SEW / 64. -/
def vtypeOk (vt : Nat) : Bool :=
  vt < 256 && bitsOf vt 5 3 ≤ 3 && vt % 8 != 4 && (bitsOf vt 5 3 : Int) ≤ lmulLog vt + 3

/-- vsetvli, vsetivli and vsetvl. Where the requested length lies between VLMAX and twice VLMAX, vl is open within the V extension's bounds:
a free value. -/
def State.vset (s : State) (p : Part) (r : CtxRef) (w : Nat) : State :=
  let c := s.ctx r
  let rd := fRd w
  let rs1 := fRs1 w
  let imm := bitOf w 31 && bitOf w 30
  let vt := if !bitOf w 31 then bitsOf w 30 20 else if imm then bitsOf w 29 20 else (c.rx (fRs2 w)).toNat
  if c.slot.isNone || (bitOf w 31 && !imm && bitsOf w 30 25 != 0) then s.trap p r 2 w
  else if !vtypeOk vt then
    (s.modCtx r fun c => { c with vtype := BitVec.ofNat 64 (2 ^ 63), vl := 0, vstart := 0 }).retireX p r 4 rd 0
  else
    let vm := vlmaxOf vt
    let keep := !imm && rs1.val == 0 && rd.val == 0
    let avl := if imm then rs1.val else if rs1.val != 0 then (c.rx rs1).toNat else vm
    let lo := ceilDiv avl 2
    let (fr, s) := if !keep && vm < avl && avl < 2 * vm then s.takeFree else (0, s)
    let vl := if keep then min c.vl.toNat vm else if avl ≤ vm then avl else if avl ≥ 2 * vm then vm else lo + fr.toNat % (vm - lo + 1)
    (s.modCtx r fun c => { c with vtype := BitVec.ofNat 64 vt, vl := BitVec.ofNat 64 vl, vstart := 0 }).retireX p r 4 rd (BitVec.ofNat 64 vl)

/-- A vector access: element bytes, register group sizes, count of elements, fields, and each element's address. -/
structure VAcc where
  eb : Nat
  group : Nat
  evl : Nat
  fields : Nat
  masked : Bool
  fof : Bool
  addr : Nat → Nat → Nat

/-- The vector access that a word spells; none where it is illegal. -/
def State.vacc (s : State) (r : CtxRef) (w : Nat) (store : Bool) : Option VAcc :=
  let c := s.ctx r
  let vt := c.vtype.toNat
  let nf := bitsOf w 31 29 + 1
  let mop := bitsOf w 27 26
  let vm := bitOf w 25
  let sub := (fRs2 w).val
  let eb := match fF3 w with | 0 => 1 | 5 => 2 | 6 => 4 | _ => 8
  let base := (c.rx (fRs1 w)).toNat
  let vd := (fRd w).val
  let vill := vt ≥ 2 ^ 63
  let l := lmulLog vt
  let emul (b : Nat) : Int := (Nat.log2 b : Int) - (bitsOf vt 5 3 : Int) + l
  let okGroup (e : Int) (g : Nat) : Bool := -3 ≤ e && e ≤ 3 && nf * g ≤ 8 && vd % g == 0 && vd + nf * g ≤ 32 && !(vd == 0 && !vm && !store)
  if c.slot.isNone || bitOf w 28 then none
  else match mop with
  | 0 =>
    match sub with
    | 0 | 16 =>
      let g := groupRegs (emul eb)
      if vill || (sub == 16 && store) || !okGroup (emul eb) g then none
      else some ⟨eb, g, c.vl.toNat, nf, !vm, sub == 16, fun i f => base + (i * nf + f) * eb⟩
    | 8 =>
      if !vm || !(nf == 1 || nf == 2 || nf == 4 || nf == 8) || vd % nf != 0 || (store && eb != 1) then none
      else some ⟨eb, nf, nf * 512 / eb, 1, false, false, fun i _ => base + i * eb⟩
    | 11 => if vill || eb != 1 || !vm || nf != 1 then none else some ⟨1, 1, ceilDiv c.vl.toNat 8, 1, false, false, fun i _ => base + i⟩
    | _ => none
  | 2 =>
    let g := groupRegs (emul eb)
    let st := (c.rx (fRs2 w)).toInt
    if vill || !okGroup (emul eb) g then none
    else some ⟨eb, g, c.vl.toNat, nf, !vm, false, fun i f => unsignedOf 64 ((base : Int) + i * st + f * eb)⟩
  | _ =>
    let db := 2 ^ bitsOf vt 5 3
    let g := groupRegs l
    let ig := groupRegs (emul eb)
    if vill || !okGroup l g || emul eb < -3 || emul eb > 3 || sub % ig != 0 then none
    else some ⟨db, g, c.vl.toNat, nf, !vm, false, fun i f => (base + leNat (s.vread r (sub * 512 + i * eb) eb) + f * db) % 2 ^ 64⟩

/-- Check an element's access. -/
def Part.vcheck (p : Part) (core a n : Nat) (store : Bool) : Acc :=
  match p.mapAddr core a n store with
  | none => .fault (if store then 7 else 5)
  | some l => if a % n == 0 then .ok l else .fault (if store then 6 else 4)

/-- The elements that a vector access performs, from vstart on, mask applied. -/
def State.vElems (s : State) (r : CtxRef) (v : VAcc) : List (Nat × Nat) :=
  let c := s.ctx r
  let on (i : Nat) : Bool := !v.masked || bitOf (leNat (s.vread r (i / 8) 1)) (i % 8)
  ((List.range v.evl).filter fun i => c.vstart.toNat ≤ i && on i).flatMap fun i => (List.range v.fields).map fun f => (i, f)

/-- Perform the elements of a vector access in order; the element where it stopped, with its cause and address. -/
def State.vRun (s : State) (p : Part) (r : CtxRef) (vd : Nat) (v : VAcc) (store : Bool) : List (Nat × Nat) → State × Option (Nat × Nat × Nat)
  | [] => (s, none)
  | (i, f) :: rest =>
    let a := v.addr i f
    let o := (vd + f * v.group) * 512 + i * v.eb
    match p.vcheck r.core a v.eb store with
    | .fault k => (s, some (i, k, a))
    | .ok l =>
      let s := s.chargeLoc p r l v.eb
      if store then State.vRun (s.locWrite l (s.vread r o v.eb) (some r)) p r vd v store rest
      else if s.locBad l v.eb then (s.reportBadLoc p l, some (i, 5, a))
      else State.vRun (s.vwrite r o (s.locRead l v.eb)) p r vd v store rest

/-- Whether an agnostic element or bit that holds `old` becomes ones: open (assumption 33). -/
def VEnv.ones (e : VEnv) (i old : Nat) : Bool := Config.agnosticOnes e.w [e.vtype, e.vl, e.vstart] i old

/-- An element of `bits` bits that vta or vma lets go: kept, or all ones. -/
def VEnv.spare (e : VEnv) (agnostic : Bool) (bits i old : Nat) : Nat := if agnostic && e.ones i old then 2 ^ bits - 1 else old

/-- What a vector word reads in a context. -/
def State.venv (s : State) (r : CtxRef) (w : Nat) : VEnv :=
  let c := s.ctx r
  { w := w, vtype := c.vtype.toNat, vl := c.vl.toNat, vstart := c.vstart.toNat, vxrm := c.vxrm.toNat, rm := rmOf c 7
    x := c.rx (fRs1 w), f := c.rf (fRs1 w), read := s.vread r }

/-- The elements that a load of elements leaves out: masked off and tail, as vma and vta say (a mask load's tail is always agnostic). -/
def State.vLoosen (s : State) (r : CtxRef) (w : Nat) (v : VAcc) : State :=
  let e := s.venv r w
  let unit := bitsOf w 27 26 == 0
  let vta := bitOf e.vtype 6 || (unit && e.vs2 == 11)
  let vma := bitOf e.vtype 7
  if (unit && e.vs2 == 8) || e.vstart ≥ v.evl || !(vta || vma) then s
  else
    let m := e.maskBytes 0
    (List.range v.fields).foldl (fun (s : State) f =>
      let o := (e.vd + f * v.group) * 512
      let old := cutLE v.eb (v.group * 512 / v.eb) (s.vread r o (v.group * 512))
      s.vwrite r o ((old.zipIdx.map fun (x, i) =>
        toLE v.eb (if i ≥ v.evl then e.spare vta (8 * v.eb) i x
          else if e.vstart ≤ i && v.masked && !maskBit m i then e.spare vma (8 * v.eb) i x else x)).flatten)) s

/-- A vector load or store. -/
def State.vectorMem (s : State) (p : Part) (r : CtxRef) (w : Nat) (store : Bool) : State :=
  match s.vacc r w store with
  | none => s.trap p r 2 w
  | some v =>
    let es := s.vElems r v
    let locs := es.filterMap fun e => p.mapAddr r.core (v.addr e.1 e.2) v.eb store
    match locs.find? fun l => (s.busyBank l).isSome with
    | some l => if (s.ctx r).grant then run s v es locs else (match s.holdFor r l with | some s => s | none => s)
    | none => run s v es locs
where
  run (s : State) (v : VAcc) (es : List (Nat × Nat)) (locs : List Loc) : State :=
    s.vectorOp r fun s =>
      let far := locs.any fun l => match l with | .core .. => false | _ => true
      let after (s : State) : State :=
        let s := s.modCtx r fun c => { c with vstart := 0, loads := if far && !store then c.loads ++ [.vec] else c.loads }
        let s := s.retire p r 4
        if far && !store then s.block r .memory else s
      match s.vRun p r (fRd w).val v store es with
      | (t, none) => after (if store then t else t.vLoosen r w v)
      | (s, some (i, k, a)) =>
        if v.fof && i > 0 then after (s.modCtx r fun c => { c with vl := BitVec.ofNat 64 i })
        else (s.modCtx r fun c => { c with vstart := BitVec.ofNat 16 i }).trap p r k a

/-- The elements of a group after a word: those before the first kept, those masked off and the tail as vma and vta say. -/
def VEnv.merged (e : VEnv) (d : VGroup) (start stop : Nat) (els : List (Option VEl)) : Bytes :=
  let new := els.toArray
  let vta := bitOf e.vtype 6
  let vma := bitOf e.vtype 7
  ((e.els d).toList.zipIdx.map fun (old, i) =>
    toLE (d.bits / 8) (if i ≥ stop then e.spare vta d.bits i old
      else if i < start then old
      else match new.getD (i - start) none with | some v => v.v | none => e.spare vma d.bits i old)).flatten

/-- The bytes of a mask register after a word: bits from vl on are open, those masked off as vma says. -/
def VEnv.mergedMask (e : VEnv) (v start : Nat) (els : List (Option Bool)) : Bytes :=
  let old := e.maskBytes v
  let new := els.toArray
  let vma := bitOf e.vtype 7
  let bit (i : Nat) : Bool :=
    let o := maskBit old i
    if i < start then o
    else if i ≥ start + els.length then e.ones i (b2n o)
    else match new.getD (i - start) none with | some b => b | none => o || (vma && e.ones i 0)
  (List.range 512).map fun k => BitVec.ofNat 8 ((List.range 8).foldl (fun a j => a + b2n (bit (8 * k + j)) * 2 ^ j) 0)

/-- Put what a word yields into the context. -/
def State.vput (s : State) (r : CtxRef) (e : VEnv) (o : VOut) : State :=
  match o with
  | .group d start stop els => s.vwrite r (d.v * 512) (e.merged d start stop els)
  | .mask v start els => s.vwrite r (v * 512) (e.mergedMask v start els)
  | .whole v start b => s.vwrite r (v * 512 + start) b
  | .x v => s.modCtx r fun c => c.wx (fRd e.w) v
  | .f v => s.modCtx r fun c => c.wf (fRd e.w) v
  | .bad | .nothing => s

/-- The flags that a word raises, and whether an element saturated. -/
def vflags (o : VOut) (fl : FFlags) : FFlags × Bool :=
  match o with
  | .group _ _ _ els => els.foldl (fun a x => match x with | some v => (a.1.or v.fl, a.2 || v.sat) | none => a) (fl, false)
  | _ => (fl, false)

/-- A vector arithmetic word: illegal without a slot or a legal vtype, or where V 1.0 reserves it. -/
def State.vectorArith (s : State) (p : Part) (r : CtxRef) (w : Nat) : State :=
  let e := s.venv r w
  match (if (s.ctx r).slot.isNone || e.vtype ≥ 2 ^ 63 then (.bad, .none) else e.run) with
  | (.bad, _) => s.trap p r 2 w
  | (o, fl) => s.vectorOp r fun s =>
    let (fl, sat) := vflags o fl
    let s := (s.vput r e o).modCtx r fun c => { c.addFlags fl with vstart := 0, vxsat := c.vxsat || sat }
    s.retire p r 4

end Sys2Proof.Machine
end

