-- ==== Sys2Proof/Machine/Riscv.lean ====
section
/-! DEFINITION. Sys2Proof/Machine/Riscv.lean: one instruction of a context, from its word (R239, R246, R247, R251, R263; assumption 33). -/
namespace Sys2Proof.Machine
open Fmt (fp32 fp64 bf16)

/-! ### One instruction -/

/-- A load instruction: integer, floating-point or vector. -/
def State.loadWord (s : State) (p : Part) (r : CtxRef) (w len : Nat) : State :=
  let a := ((s.ctx r).rx (fRs1 w) + immI w).toNat
  let rd := fRd w
  if w % 128 == 0x03 then
    match fF3 w with
    | 0 => s.scalarLoad p r len rd a 1 true none
    | 1 => s.scalarLoad p r len rd a 2 true none
    | 2 => s.scalarLoad p r len rd a 4 true none
    | 3 => s.scalarLoad p r len rd a 8 true none
    | 4 => s.scalarLoad p r len rd a 1 false none
    | 5 => s.scalarLoad p r len rd a 2 false none
    | 6 => s.scalarLoad p r len rd a 4 false none
    | _ => s.trap p r 2 w
  else match fF3 w with
    | 1 => s.scalarLoad p r len rd a 2 false (some bf16)
    | 2 => s.scalarLoad p r len rd a 4 false (some fp32)
    | 3 => s.scalarLoad p r len rd a 8 false (some fp64)
    | 4 => s.trap p r 2 w
    | _ => s.vectorMem p r w false

/-- A store instruction. -/
def State.storeWord (s : State) (p : Part) (r : CtxRef) (w len : Nat) : State :=
  let c := s.ctx r
  let a := (c.rx (fRs1 w) + immS w).toNat
  if w % 128 == 0x23 then
    match fF3 w with
    | 0 => s.scalarStore p r len a 1 (c.rx (fRs2 w))
    | 1 => s.scalarStore p r len a 2 (c.rx (fRs2 w))
    | 2 => s.scalarStore p r len a 4 (c.rx (fRs2 w))
    | 3 => s.scalarStore p r len a 8 (c.rx (fRs2 w))
    | _ => s.trap p r 2 w
  else match fF3 w with
    | 1 => s.scalarStore p r len a 2 (c.rf (fRs2 w))
    | 2 => s.scalarStore p r len a 4 (c.rf (fRs2 w))
    | 3 => s.scalarStore p r len a 8 (c.rf (fRs2 w))
    | 4 => s.trap p r 2 w
    | _ => s.vectorMem p r w true

/-- FENCE (R263): stores held at a busy bank hold it while they are among its predecessors. -/
def State.fenceOp (s : State) (p : Part) (r : CtxRef) (w : Nat) : State :=
  if (s.ctx r).outst > 0 && (bitOf w 24 || bitOf w 26) then s.block r .memory else s.retire p r 4

/-- Divides of the integer unit yield until they finish (R247). -/
def State.slowX (s : State) (p : Part) (r : CtxRef) (n : Nat) (rd : Fin 32) (v : BitVec 64) : State := (s.retireX p r n rd v).block r .unit_

/-- Deliver an OP-FP result. -/
def State.fpResult (s : State) (p : Part) (r : CtxRef) (w len : Nat) (x : FRes) : State :=
  match x with
  | .illegal => s.trap p r 2 w
  | .f v fl slow =>
    let s := (s.modCtx r fun c => (c.wf (fRd w) v).addFlags fl).retire p r len
    if slow then s.block r .unit_ else s
  | .x v fl => (s.modCtx r fun c => c.addFlags fl).retireX p r len (fRd w) v

/-- The register numbers whose results an instruction needs: integer and floating-point. -/
def needsOf (w : Nat) : List (Fin 32) × List (Fin 32) :=
  let rd := fRd w
  let a := fRs1 w
  let b := fRs2 w
  match w % 128 with
  | 0x37 | 0x17 | 0x6F => ([rd], [])
  | 0x67 | 0x03 | 0x13 | 0x1B => ([rd, a], [])
  | 0x63 | 0x23 => ([a, b], [])
  | 0x33 | 0x3B | 0x2F => ([rd, a, b], [])
  | 0x73 => (if fF3 w ≥ 4 then [rd] else [rd, a], [])
  | 0x07 => ([a, b], [rd])
  | 0x27 => ([a, b], [b])
  | 0x43 | 0x47 | 0x4B | 0x4F => ([], [rd, a, b, fRs3 w])
  | 0x53 => ([rd, a], [rd, a, b])
  | 0x57 => ([rd, a, b], [rd, a])
  | _ => ([], [])

/-- The control group by funct7 at funct3 3 (R251). -/
def State.controlGroup (s : State) (p : Part) (r : CtxRef) (w : Nat) : State :=
  let rd := fRd w
  let a := fRs1 w
  let b := fRs2 w
  let none3 := rd.val == 0 && a.val == 0 && b.val == 0
  let only1 := rd.val == 0 && b.val == 0
  match fF7 w with
  | 0 => if none3 then s.abYield p r else s.trap p r 2 w
  | 1 => s.abWaitw p r rd a b
  | 2 => if only1 then s.abStamp p r a else s.trap p r 2 w
  | 3 => s.abRand p r rd a b
  | 4 => if only1 then s.abTenant p r a else s.trap p r 2 w
  | 5 => if none3 then s.abVacq p r w else s.trap p r 2 w
  | 6 => if none3 then s.abVrel p r else s.trap p r 2 w
  | 7 => if none3 then s.abFdone p r w else s.trap p r 2 w
  | _ => s.trap p r 2 w

/-- The custom opcodes (R177, R251). -/
def State.customWord (s : State) (p : Part) (r : CtxRef) (w : Nat) : State :=
  let rd := fRd w
  let a := fRs1 w
  let b := fRs2 w
  let vp := Fin.ofNat 32 (w / 2 ^ 25)
  if w % 128 == 0x7B then
    match fF3 w with
    | 0 => if fF7 w != 0 then s.trap p r 2 w else s.abQtake p r rd a b
    | 1 => if fF7 w > 1 then s.trap p r 2 w else s.abQput p r rd a b
    | 2 => if fF7 w != 0 || b.val != 0 || rd.val != 0 then s.trap p r 2 w else s.abQrel p r a
    | 3 => s.controlGroup p r w
    | _ => s.trap p r 2 w
  else match fF3 w with
    | 0 => if fF7 w > 1 || a.val != 0 then s.trap p r 2 w else s.abKey p r w (fF7 w == 1) rd b
    | 1 => if b.val != 0 then s.trap p r 2 w else s.abCx p r w rd a (Fin.ofNat 8 (w / 2 ^ 29)) (Fin.ofNat 8 (w / 2 ^ 26)) (bitOf w 25)
    | 2 => s.abCross p r w false rd a b vp (bitOf w 31) (bitOf w 30)
    | 3 => if bitsOf w 31 30 != 0 then s.trap p r 2 w else s.abDrop p r w rd b vp a
    | 4 => if bitsOf w 31 30 != 0 then s.trap p r 2 w else s.abBnd p r w rd vp a b
    | 5 => s.abCross p r w true rd a b vp (bitOf w 31) (bitOf w 30)
    | _ => s.trap p r 2 w

/-- Execute a 32-bit instruction of a context; `len` is its length in the program. -/
def State.execWord (s : State) (p : Part) (r : CtxRef) (w len : Nat) : State :=
  s.needing r (needsOf w).1 (needsOf w).2 fun s =>
  let c := s.ctx r
  let rd := fRd w
  let a := c.rx (fRs1 w)
  let b := c.rx (fRs2 w)
  let f3 := fF3 w
  let f7 := fF7 w
  let next := c.pc + BitVec.ofNat 64 len
  let bad : State := s.trap p r 2 w
  match w % 128 with
  | 0x37 => s.retireX p r len rd (immU w)
  | 0x17 => s.retireX p r len rd (c.pc + immU w)
  | 0x6F => (s.modCtx r (·.wx rd next)).retireTo p r (c.pc + immJ w)
  | 0x67 => if f3 != 0 then bad else (s.modCtx r (·.wx rd next)).retireTo p r ((a + immI w) &&& 0xFFFFFFFFFFFFFFFE)
  | 0x63 =>
    match branchTaken f3 a b with
    | some t => s.retireTo p r (if t then c.pc + immB w else next)
    | none => bad
  | 0x03 | 0x07 => s.loadWord p r w len
  | 0x23 | 0x27 => s.storeWord p r w len
  | 0x13 =>
    let hi := f7 / 2
    if (f3 == 1 && hi != 0) || (f3 == 5 && hi != 0 && hi != 16) then bad
    else s.retireX p r len rd (aluOp f3 (f3 == 5 && hi == 16) a (if f3 == 1 || f3 == 5 then BitVec.ofNat 64 (bitsOf w 25 20) else immI w))
  | 0x1B =>
    if (f3 == 1 && f7 != 0) || (f3 == 5 && f7 != 0 && f7 != 0x20) then bad
    else match aluOpW f3 (f3 == 5 && f7 == 0x20) a (if f3 == 0 then immI w else BitVec.ofNat 64 (fRs2 w).val) with
      | some v => s.retireX p r len rd v
      | none => bad
  | 0x33 =>
    if f7 == 1 then (if f3 ≥ 4 then s.slowX p r len rd (mulDiv f3 a b) else s.retireX p r len rd (mulDiv f3 a b))
    else if f7 == 0 || (f7 == 0x20 && (f3 == 0 || f3 == 5)) then s.retireX p r len rd (aluOp f3 (f7 == 0x20) a b)
    else bad
  | 0x3B =>
    if f7 == 1 then (match mulDivW f3 a b with
      | some v => if f3 ≥ 4 then s.slowX p r len rd v else s.retireX p r len rd v
      | none => bad)
    else if f7 == 0 || f7 == 0x20 then (match aluOpW f3 (f7 == 0x20) a b with
      | some v => s.retireX p r len rd v
      | none => bad)
    else bad
  | 0x0F => if f3 == 0 then s.fenceOp p r w else if f3 == 1 then s.retire p r len else bad
  | 0x73 =>
    if f3 == 0 then (if w == 0x00000073 then s.trap p r 8 0 else if w == 0x00100073 then s.trap p r 3 c.pc.toNat else bad)
    else s.csrOp p r w len
  | 0x2F => s.atomicOp p r len w
  | 0x43 | 0x47 | 0x4B | 0x4F => s.fpResult p r w len (fmaOp (w % 128) c w)
  | 0x53 => s.fpResult p r w len (opFpAny c w)
  | 0x57 => if f3 == 7 then s.vset p r w else s.vectorArith p r w
  | 0x5B | 0x7B => s.customWord p r w
  | _ => bad

/-- Execute the instruction that a context fetched: 16 bits where the low bits are not 3. -/
def State.runWord (s : State) (core : Nat) (word : BitVec 32) : State :=
  s.issue core fun p r =>
    let w := word.toNat
    if w % 4 == 3 then s.execWord p r w 4
    else match expandC (w % 65536) with
      | some v => s.execWord p r v 2
      | none => s.trap p r 2 (w % 65536)

end Sys2Proof.Machine
end

