-- ==== Sys2Proof/Machine/CoreWork.lean ====
section
/-! DEFINITION. Sys2Proof/Machine/CoreWork.lean: what the commands do of the general cores: instructions of the current context, the events that wake
contexts, and fences (R177–R184, R239–R278). -/
namespace Sys2Proof.Machine

/-! ### Fences of a core (R271–R278) -/

/-- Set or clear a TILE_FENCE.CORE bit. -/
def State.setCoreBit (s : State) (core : Nat) (b : Bool) : State := s.coreBits core fun t => { t with core := bput t.core (coreNo core) b }

/-- A management request to fence a core (R272, R278). -/
def State.fenceCore (s : State) (core : Nat) : State := (s.setCoreBit core true).startDrain core

/-- A management request to unfence a core (R275, R277, R595). -/
def State.unfenceReq (s : State) (core : Nat) : State :=
  if (s.tile (tileOf core)).core.getLsbD (coreNo core) then (s.setCoreBit core false).unfenceCore core else s

/-- TILE_FENCE.FORCE (R273, R278): acts where the CORE bit is 1. -/
def State.forceCore (s : State) (core : Nat) : State :=
  if (s.tile (tileOf core)).core.getLsbD (coreNo core) then s.hardFence core else s

/-- The drain limit of a core has passed (R273). -/
def State.drainLimit (s : State) (core : Nat) : State :=
  let k := s.core core
  if k.st == .draining then ((s.advanceTo (k.drainAt + (s.tile (tileOf core)).limitUs.toNat * 1000)).hardFence core).kick else s

end Sys2Proof.Machine
end

