-- ==== Sys2Proof/Machine/MemOps.lean ====
section
/-! DEFINITION. Sys2Proof/Machine/MemOps.lean: the mash banks' sequences, scan commands and stack events (R348–R380). -/
namespace Sys2Proof.Machine

/-! ### Bank sequences (R357–R361) -/

def State.bank (s : State) (k n : Nat) : Bank := (s.memCtl k).banks.get Bank.reset n
def State.modBank (s : State) (k n : Nat) (f : Bank → Bank) : State :=
  s.modMem k fun m => { m with banks := m.banks.modify Bank.reset n f }

/-- START is accepted in states 0, 3 and 4: the bank-written fields are cleared and chunk 0 runs (R358). -/
def Bank.startOp (b : Bank) : Bank :=
  if b.state == 0 || b.state == 3 || b.state == 4 then
    { b with state := 1, chunk := 0, dead := 0, errors := 0, errSlots := [], dcount := 0, dsum := 0, cands := [], aborting := false }
  else b

/-- CONTINUE is accepted in state 2 (R358). -/
def Bank.continueOp (b : Bank) : Bank := if b.state == 2 then { b with state := 1 } else b

/-- ABORT is accepted in states 1, 2 and 3; a running chunk ends first (R358). -/
def Bank.abortOp (b : Bank) : Bank :=
  if b.state == 1 then { b with aborting := true } else if b.state == 2 || b.state == 3 then { b with state := 4 } else b

/-- Put an entry into a list in scan order (R359). -/
def scanInsert (e : Nat × Nat) : List (Nat × Nat) → List (Nat × Nat)
  | [] => [e]
  | x :: r => if e.2 > x.2 || (e.2 == x.2 && e.1 < x.1) then e :: x :: r else x :: scanInsert e r

/-- Offer an entry: the list keeps the first `c`, and what leaves it is counted (R359). -/
def offer (c : Nat) (e : Nat × Nat) (l : List (Nat × Nat)) : List (Nat × Nat) × Option Nat :=
  let l' := scanInsert e l
  (l'.take c, (l'.drop c).head?.map (·.2))

/-- The scan sum of a 6-byte code against a lookup table (R359). -/
def scanSum (layout : Nat) (lut : Bytes) (code : Bytes) : Nat :=
  if layout == 0 then ((List.range 12).map fun i => (nth lut (16 * i + subcode 0 code i) 0).toNat).sum
  else ((List.range 6).map fun i => (nth lut (256 * i + subcode 1 code i) 0).toNat).sum

/-- The units that a code of a bank's range lies in. -/
def codeUnits (n start i : Nat) : List Nat := unitsOf (n * 100663296 + start + 6 * i) 6

/-- Score one code of a running chunk (R359). -/
def State.scoreCode (s : State) (k n : Nat) (bad : List Nat) (told : Option (List Nat)) (b : Bank) (i : Nat) : Bank :=
  if bitOf (nth b.deadMap (i / 8) 0).toNat (i % 8) then { b with dead := b.dead + 1 }
  else if (match told with | some l => l.contains (b.first.toNat + i) | none => (codeUnits n b.start.toNat i).any bad.contains) then
    { b with errors := b.errors + 1, errSlots := b.errSlots ++ [b.first.toNat + i] }
  else
    let code := s.locRead (.dram k (n * 100663296 + b.start.toNat + 6 * i)) 6
    let sum := scanSum b.layout.toNat b.lut code
    let (l, out) := offer b.c.toNat (b.first.toNat + i, sum) b.cands
    match out with
    | none => { b with cands := l }
    | some v => { b with cands := l, dcount := b.dcount + 1, dsum := b.dsum + BitVec.ofNat 32 v }

/-- The codes of chunk `j` of a range. -/
def chunkCodes (count j : Nat) : List Nat := (List.range 512).filterMap fun i => if 512 * j + i < count then some (512 * j + i) else none

/-- The error slots that a replay holds for the command that a bank's sequence serves (R611). -/
def State.toldSlots (s : State) (k n : Nat) : Option (List Nat) :=
  match (s.bank k n).cmd with
  | some id => (((s.memCtl k).cmds.find? (·.id == id)).bind fun c => s.replayMedia c.part 4 (fieldAt c.desc 0x30 8))
  | none => none

/-- The running chunk of a bank ends: its codes are scored; units met as uncorrectable are counted and reported (R351, R359, R370). -/
def State.scoreChunk (s : State) (k n : Nat) : State :=
  let b := s.bank k n
  let bad := (s.memCtl k).bad
  let is := chunkCodes b.count.toNat b.chunk.toNat
  let b' := is.foldl (s.scoreCode k n bad (s.toldSlots k n)) b
  let b' := { b' with chunk := b.chunk + 1 }
  let b' := { b' with state := if b.aborting then 4 else if 512 * (b.chunk.toNat + 1) ≥ b.count.toNat then 3 else 2, aborting := false }
  let hit := ((is.flatMap fun i => (codeUnits n b.start.toNat i).filter bad.contains)).eraseDups
  let part := match b.cmd with
    | some id => (((s.memCtl k).cmds.find? (·.id == id)).map (·.part)).getD 0xFF
    | none => 0xFF
  let s := hit.foldl (fun s u => (s.reportUE k (u * 64) part).modMem k fun m => { m with err := bput m.err 3 true }) s
  s.modBank k n fun _ => b'

/-- Serve the accesses held for a bank, in arrival order (R361 step 3, R362), noting the longest hold. -/
def State.serveHeld (s : State) (k n : Nat) : State :=
  let hs := (s.bank k n).held
  let s := s.modBank k n fun b => { b with held := [] }
  hs.foldl (fun s h =>
    let ns := s.time.up - h.since
    let s := s.modMem k fun m => { m with holdMax := if min ns 65535 > m.holdMax.toNat then BitVec.ofNat 16 (min ns 65535) else m.holdMax }
    match h.write, h.who with
    | some b, some r =>
      let s := (s.locWrite (.dram k h.off) b (some r)).modCtx r fun c => { c with outst := c.outst - 1 }
      (match (s.ctx r).wait with | .memory => s.wake r | _ => s)
    | some b, none => s.locWrite (.dram k h.off) b
    | none, some r =>
      (match (s.ctx r).wait with | .memory => (s.modCtx r fun c => { c with grant := true }).wake r | _ => s)
    | none, none => s) s

/-! ### Scan commands (R364–R371) -/

/-- Commands a controller holds (R365). -/
def scanCmdMax : Nat := 4096

/-- The controller that a descriptor goes to: that of range 0's stack; a descriptor that names no mash stack goes to the mash stack of the
same number modulo 8 (assumption 31). -/
def scanTarget (d : Bytes) : Nat :=
  let k := scanAddrStack (fieldAt d 8 8)
  if isMash k then k else 8 + k % 8

/-- The ranges of a descriptor. -/
def scanRanges (d : Bytes) : List ScanRange :=
  let r0 : ScanRange := { stack := scanAddrStack (fieldAt d 8 8), off := scanAddrOff (fieldAt d 8 8), count := fieldAt d 0x10 2, first := fieldAt d 0x12 2 }
  let r1 : ScanRange := { stack := scanAddrStack (fieldAt d 0x18 8), off := scanAddrOff (fieldAt d 0x18 8), count := fieldAt d 0x14 2, first := fieldAt d 0x16 2 }
  if fieldAt d 4 1 == 2 then [r0, r1] else [r0]

/-- A range keeps to R348. -/
def rangeOk (p : Part) (r : ScanRange) : Bool :=
  isMash r.stack && r.off % 64 == 0 && r.count ≤ 8192 && r.first + r.count ≤ 65536 &&
    (r.count == 0 || mashBank r.off == mashBank (r.off + 6 * r.count - 1)) && p.inScan r.stack r.off (6 * r.count)

/-- Bytes of a lookup table. -/
def lutBytes (layout : Nat) : Nat := if layout == 0 then 192 else 1536

/-- A scan descriptor is one that the controller serves (R366). -/
def scanOk (p : Part) (d : Bytes) : Bool :=
  let rs := scanRanges d
  let n := fieldAt d 4 1
  let lay := fieldAt d 1 1
  let c := fieldAt d 2 2
  let top := (rs.map fun r => r.first + r.count).foldl max 0
  let dead := fieldAt d 0x28 8
  fieldAt d 0 1 == 1 && lay ≤ 1 && 1 ≤ c && c ≤ 256 && (n == 1 || n == 2) && allZero (slice d 5 3) &&
    (n == 2 || (fieldAt d 0x14 2 == 0 && fieldAt d 0x16 2 == 0 && fieldAt d 0x18 8 == 0)) && fieldAt d 0x38 4 != 0 &&
    scanAddrOk (fieldAt d 8 8) && (n == 1 || scanAddrOk (fieldAt d 0x18 8)) && rs.all (rangeOk p) &&
    rs.all (fun r => r.stack == scanAddrStack (fieldAt d 8 8)) &&
    (match rs with
      | [a, b] => a.first + a.count ≤ b.first || b.first + b.count ≤ a.first
      | _ => true) &&
    p.regionOk (fieldAt d 0x20 8) (lutBytes lay) && (dead == 0 || p.regionOk dead (ceilDiv top 8)) &&
    fieldAt d 0x30 8 % 64 == 0 && p.regionOk (fieldAt d 0x30 8) (32 + 4 * c)

/-- Write a command page and START a bank for a range (R357, R364). -/
def State.startRange (s : State) (p : Part) (k : Nat) (c : ScanCmd) (r : ScanRange) : State :=
  let n := mashBank r.off
  let (lut, dead) : Bytes × Bytes :=
    match c.std with
    | some _ =>
      (c.lut, (List.range (ceilDiv r.count 8)).map fun j =>
        BitVec.ofNat 8 ((List.range 8).map fun i => if c.dead.contains (r.first + 8 * j + i) then 2 ^ i else 0).sum)
    | none =>
      let da := fieldAt c.desc 0x28 8
      (s.dRead p (fieldAt c.desc 0x20 8) (lutBytes c.layout),
       if da == 0 then []
       else
         let m := leNat (s.dRead p da (ceilDiv (r.first + r.count) 8))
         toLE (ceilDiv r.count 8) (m / 2 ^ r.first))
  s.modBank k n fun b =>
    ({ b with layout := BitVec.ofNat 8 c.layout, c := BitVec.ofNat 16 c.c, start := BitVec.ofNat 32 (mashByte r.off), count := BitVec.ofNat 16 r.count,
              first := BitVec.ofNat 16 r.first, lut := lut, deadMap := dead, cmd := some c.id, state := 0 }).startOp

/-- Change a command of a controller. -/
def State.modScan (s : State) (k id : Nat) (f : ScanCmd → ScanCmd) : State :=
  s.modMem k fun m => { m with cmds := m.cmds.map fun c => if c.id == id then f c else c }

/-- Start every waiting range whose bank is free, in the order of the commands (R365); nothing while PAUSE is 1 (R380). -/
def State.startRanges (s : State) (k : Nat) : State :=
  if (s.memCtl k).pause then s
  else
    (s.memCtl k).cmds.foldl (fun s c =>
      if c.finished.isSome then s
      else
        match s.part? c.part with
        | none => s
        | some p =>
          (List.zipIdx c.ranges).foldl (fun s (r, i) =>
            let b := s.bank k (mashBank r.off)
            if r.started || b.cmd.isSome || b.state == 1 || b.state == 2 then s
            else
              (s.startRange p k c r).modScan k c.id fun c => { c with ranges := c.ranges.set i { r with started := true } }) s) s

/-- A bank that is done gives its list to its command (R365, R369). -/
def State.bankDone (s : State) (k n : Nat) : State :=
  let b := s.bank k n
  match b.cmd with
  | none => s
  | some id =>
    if b.state != 3 then s
    else
      let s := s.modBank k n fun b => { b with cmd := none }
      let take (r : ScanRange) : ScanRange :=
        if r.started && r.result.isNone && mashBank r.off == n then
          { r with errSlots := b.errSlots, result := some (b.cands, b.dead.toNat, b.errors.toNat, b.dcount.toNat, b.dsum.toNat) }
        else r
      (s.modScan k id fun c => { c with ranges := c.ranges.map take }).startRanges k

/-- A chunk boundary (R361): the chunk's codes are scored, the postponed refresh is issued, held accesses are served, and the bank goes on. -/
def State.chunkEnd (s : State) (k n : Nat) : State :=
  if (s.bank k n).state != 1 then s
  else
    let s := s.scoreChunk k n
    let s := if (s.bank k n).refresh then
        (s.modBank k n fun b => { b with refresh := false }).modMem k fun m => { m with outstanding := m.outstanding.modify 0 (n / 16) (· - 1) }
      else s
    let s := s.serveHeld k n
    let s := s.bankDone k n
    if (s.bank k n).state == 2 && !(s.memCtl k).pause then s.modBank k n Bank.continueOp else s

/-- Merge the lists of a command's ranges (R369): the first c, the dead and error slots, and what was discarded. -/
def mergeRanges (c : Nat) (rs : List ScanRange) : List (Nat × Nat) × Nat × Nat × Nat × Nat :=
  let ls := rs.filterMap (·.result)
  let all := (ls.map (·.1)).flatten.foldl (fun l e => scanInsert e l) []
  let drop := all.drop c
  (all.take c, (ls.map (·.2.1)).sum, (ls.map (·.2.2.1)).sum, (ls.map (·.2.2.2.1)).sum + drop.length,
   (ls.map (·.2.2.2.2)).sum + (drop.map (·.2)).sum)

/-- The result block of a command, its ready word first (R368). -/
def scanResult (ready status : Nat) (m : List (Nat × Nat) × Nat × Nat × Nat × Nat) : Bytes :=
  toLE 4 ready ++ zeros 4 ++ toLE 1 status ++ [0] ++ toLE 2 m.1.length ++ toLE 2 m.2.1 ++ toLE 2 m.2.2.1 ++ toLE 4 m.2.2.2.1 ++ toLE 4 m.2.2.2.2 ++
    zeros 8 ++ (m.1.map fun e => toLE 2 e.1 ++ toLE 2 e.2).flatten

/-- Write a result block: the rest first, then the ready word (R368). -/
def State.writeResult (s : State) (p : Part) (a : Nat) (b : Bytes) : State := (s.dWrite p (a + 8) (b.drop 8)).dWrite p a (b.take 8)

/-- Report a bad work descriptor (R367, R588). -/
def State.reportDesc (s : State) (cause part kind unit addr queue : Nat) (tag : BitVec 9) : State :=
  s.report { cls := 0x02, cause := cause, part := part, kind := kind, unit := unit, loc := addr, tag := tag.toNat, detail := queue }

/-- The next free command number of a controller. -/
def MemCtl.nextId (m : MemCtl) : Nat := (m.cmds.map (·.id)).foldl max 0 + 1

/-- A standard walk's scan goes to its controller (R161): the ranges of its leaf version. -/
def State.stdScan (s : State) (p : Part) (q : QueueDef) (tag : BitVec 9) (w : StdWork) : State :=
  match w with
  | .rescore .. => s
  | .scan req round leaf =>
    match s.query? req with
    | none => s
    | some qu =>
      match s.desc? p qu.index, (nth qu.rounds round { leaves := [] }).leaves[leaf]? with
      | some x, some l =>
        let lf := s.parseLeafAt p l.header
        let k := scanAddrStack lf.bodyCodes
        let r0 : ScanRange := { stack := k, off := scanAddrOff lf.bodyCodes, count := lf.body, first := 0 }
        let r1 : ScanRange := { stack := k, off := scanAddrOff lf.deltaCodes, count := l.visible, first := x.bodyCap }
        let c : ScanCmd := { id := (s.memCtl k).nextId, part := p.num, queue := q.id, desc := [], tag := tag, layout := x.layout, c := qu.cands,
                             ranges := [r0, r1], std := some w, lut := l.lut, dead := l.deadSlots,
                             finished := if (s.memCtl k).state == 2 then some 4 else none }
        (s.modMem k fun m => { m with cmds := m.cmds ++ [c] }).startRanges k
      | _, _ => s

/-- A descriptor from a queue goes to its controller (R365–R367). -/
def State.takeScan (s : State) (p : Part) (q : QueueDef) (e : QEntry) (d : Bytes) : State :=
  let k := scanTarget d
  let a := q.slotAddr e.slot
  if crc32c (d.take 0x3C) != fieldAt d 0x3C 4 then
    (s.modMem k fun m => { m with badCnt := m.badCnt + 1 }).reportDesc 4 p.num 4 k a q.id e.tag
  else if !scanOk p d || (s.memCtl k).state == 2 then
    let s := (s.modMem k fun m => { m with badCnt := m.badCnt + 1 }).reportDesc 4 p.num 4 k a q.id e.tag
    let ra := fieldAt d 0x30 8
    if p.regionOk ra 32 && ra % 64 == 0 then
      ((s.dWrite p (ra + 0x18) (zeros 8)).dWrite p (ra + 8) [4, 0]).dWrite p ra (toLE 4 (fieldAt d 0x38 4) ++ zeros 4)
    else s
  else
    let c : ScanCmd := { id := (s.memCtl k).nextId, part := p.num, queue := q.id, desc := d, tag := e.tag, layout := fieldAt d 1 1, c := fieldAt d 2 2,
                         ranges := scanRanges d }
    (s.modMem k fun m => { m with cmds := m.cmds ++ [c] }).startRanges k

/-- Queues of a kind that hold work, in ascending order of partition and queue. -/
def State.workQueues (s : State) (kind : Nat) : List (Part × QueueDef) :=
  (s.grist.parts.flatMap fun p => (p.queues.filter (·.kind == kind)).map fun q => (p, q)).filter fun e => (s.queue e.1.num e.2.id).oldest.isSome

/-- The stack that the head command of a kind-4 queue names. -/
def State.headStack (s : State) (p : Part) (q : QueueDef) : Option Nat :=
  match (s.queue p.num q.id).oldest with
  | none => none
  | some e =>
    match e.std with
    | some (.scan req round leaf) =>
      (match s.query? req with
        | some qu => ((nth qu.rounds round { leaves := [] }).leaves[leaf]?).map fun l => scanAddrStack (s.parseLeafAt p l.header).bodyCodes
        | none => none)
    | _ => some (scanTarget (s.slotRead p q e.slot))

/-- The mash dispatcher takes the next command (R365). -/
def State.dispatchScan (s : State) : State :=
  let open_ (e : Part × QueueDef) : Bool := match s.headStack e.1 e.2 with
    | some k => ((s.memCtl k).cmds.filter (·.finished.isNone)).length < scanCmdMax
    | none => true
  match (s.workQueues 4).find? open_ with
  | none => s
  | some (p, q) =>
    match s.unitTake p q with
    | none => s
    | some (e, d, s) =>
      let s := match e.std with
        | some w => s.stdScan p q e.tag w
        | none => s.takeScan p q e d
      s.postAll p.num

/-- A command whose ranges are done completes (R368–R372). -/
def State.scanComplete (s : State) (k id : Nat) : State :=
  match (s.memCtl k).cmds.find? (·.id == id) with
  | none => s
  | some c =>
    match s.part? c.part with
    | none => s.modMem k fun m => { m with cmds := m.cmds.filter (·.id != id) }
    | some p =>
      let failed := c.finished == some 6
      if !failed && !(c.finished.isNone && c.ranges.all (·.result.isSome)) then s
      else
        let m := mergeRanges c.c c.ranges
        let st := if failed then 6 else if m.2.2.1 != 0 then 8 else 0
        let s := s.modMem k fun x => { x with scanCnt := x.scanCnt + 1 }
        let s := if failed then s else s.charge c.tag p.num 3 1
        let s := s.caskMedia p.num 4 (fieldAt c.desc 0x30 8) (if st == 8 then c.ranges.flatMap (·.errSlots) else [])
        match c.std with
        | some _ => s.modScan k id fun c => { c with finished := some st }
        | none =>
          let ra := fieldAt c.desc 0x30 8
          let s := s.modMem k fun x => { x with cmds := x.cmds.filter (·.id != id) }
          let (f, s) : Bytes × State :=
            if failed then
              let (a, s) := s.takeFree
              let (b, s) := s.takeFree
              let (c, s) := s.takeFree
              (toLE 8 a.toNat ++ toLE 8 b.toNat ++ toLE 8 c.toNat, s)
            else ([], s)
          let b := scanResult (fieldAt c.desc 0x38 4) st m
          let b := if failed then b.take 9 ++ f.take 23 else b
          let top := (c.ranges.map fun r => r.first + r.count).foldl max 0
          let da := fieldAt c.desc 0x28 8
          let s := s.charge c.tag p.num 2
            (dUnits ra b.length + dUnits (fieldAt c.desc 0x20 8) (lutBytes c.layout) + (if da == 0 then 0 else dUnits da (ceilDiv top 8)))
          s.writeResult p ra b

/-- A standard walk's scan result reaches its owner (R162). -/
def State.scanReturn (s : State) (k id : Nat) : State :=
  match (s.memCtl k).cmds.find? (·.id == id) with
  | none => s
  | some c =>
    match c.std, c.finished with
    | some (.scan req round leaf), some st =>
      let s := s.modMem k fun x => { x with cmds := x.cmds.filter (·.id != id) }
      if st == 6 || st == 4 then
        (match s.query? req with
          | some _ => (s.plainAnswer req stFailed).dropQuery req
          | none => s).kick
      else
        let m := mergeRanges c.c c.ranges
        (s.scanArrived req round leaf { cands := m.1, dead := m.2.1, discarded := m.2.2.2.1, discardSum := m.2.2.2.2 }).kick
    | _, _ => s

/-- The commands of a partition end with its reset (R376): running banks are aborted and nothing is written. -/
def State.abortScans (s : State) (part : Nat) : State :=
  (List.range 8).foldl (fun s i =>
    let k := 8 + i
    let ids := ((s.memCtl k).cmds.filter (·.part == part)).map (·.id)
    let s := s.modMem k fun m =>
      { m with cmds := m.cmds.filter (·.part != part),
               banks := m.banks.map fun e => (e.1, if (e.2.cmd.map ids.contains).getD false then { e.2.abortOp with cmd := none } else e.2) }
    s.startRanges k) s

/-! ### Refresh, training and temperature (R345, R352–R355) -/

/-- A bank's refresh falls due (R352, R353): postponed while the bank runs a chunk or its command bus is occupied. -/
def State.refreshDue (s : State) (k n : Nat) (busBusy : Bool) : State :=
  let b := s.bank k n
  let pc := n / 16
  if (isMash k && b.state == 1) || busBusy then
    if b.refresh then s
    else
      let o := (s.memCtl k).outstanding.get 0 pc + 1
      (s.modBank k n fun b => { b with refresh := true }).modMem k fun m =>
        { m with outstanding := m.outstanding.set 0 pc o, ppmax := if min o 15 > m.ppmax.toNat then BitVec.ofNat 4 (min o 15) else m.ppmax }
  else if b.refresh then
    (s.modBank k n fun b => { b with refresh := false }).modMem k fun m => { m with outstanding := m.outstanding.modify 0 pc (· - 1) }
  else s

/-- A channel's refresh window (R354, R355): it begins when no bank of the channel runs a chunk, and may carry a retraining. -/
def State.refreshWindow (s : State) (k ch : Nat) (trained : Bool) : State :=
  let m := s.memCtl k
  let inCh (n : Nat) : Bool := n / 32 == ch
  if m.banks.any fun e => inCh e.1 && e.2.state == 1 then s
  else
    let s := s.modMem k fun m =>
      { m with banks := (m.banks.filter fun e => inCh e.1).foldl (fun b e => b.modify Bank.reset e.1 fun x => { x with refresh := false }) m.banks,
               outstanding := (m.outstanding.set 0 (2 * ch) 0).set 0 (2 * ch + 1) 0 }
    if m.trainPend.getLsbD ch then
      if trained then s.modMem k fun m => { m with trainPend := bput m.trainPend ch false, trainTemp := m.trainTemp.set 0 ch m.temp }
      else (s.modMem k fun m => { m with err := bput m.err 2 true }).failStack k 2
    else s

/-- A temperature reading (R345, R352, R355). -/
def State.stackTemp (s : State) (k : Nat) (t : BitVec 8) : State :=
  s.modMem k fun m =>
    let far (c : Nat) : Bool := let o := (m.trainTemp.get 0 c).toNat; o + 10 ≤ t.toNat || t.toNat + 10 ≤ o
    { m with temp := t, hot := if t.toNat ≥ 85 then true else if t.toNat < 82 then false else m.hot,
             trainPend := if m.state == 2 then m.trainPend else (List.range 32).foldl (fun v c => if far c then bput v c true else v) m.trainPend }

/-- MEM_TRAIN.REQ (R355, R380). -/
def State.trainReq (s : State) (k : Nat) : State := s.modMem k fun m => if m.state == 2 then m else { m with trainPend := .allOnes 32 }

/-- A command/address parity error (R345, R377); `again` when it is the reissued command's. -/
def State.parityError (s : State) (k : Nat) (again : Bool) : State :=
  let m := s.memCtl k
  let s := s.modMem k fun m => { m with err := bput m.err 1 true, reissued := !again }
  let s := s.report { cls := 0x08, cause := 1, kind := 4, unit := k }
  if again && m.reissued then s.failStack k 1 else s

/-- MSH_CTRL.PAUSE (R380). -/
def State.setMshPause (s : State) (k : Nat) (on : Bool) : State :=
  let s := s.modMem k fun m => { m with pause := on }
  if !isMash k || on then s
  else (s.modMem k fun m => { m with banks := m.banks.map fun e => (e.1, e.2.continueOp) }).startRanges k

end Sys2Proof.Machine
end

