-- ==== Sys2Proof/Machine/Scale.lean ====
section
/-! DEFINITION. Sys2Proof/Machine/Scale.lean: power-of-two scales and quantisation (R210, R211, R295, R296, R315, R316), and the addresses of gather and
matrix descriptors (R224, R288). -/
namespace Sys2Proof

/-- A value times 2^k, exact. -/
def FVal.scale (x : FVal) (k : Int) : FVal :=
  match x with
  | .fin n m e => .fin n m (e + k)
  | v => v

end Sys2Proof

namespace Sys2Proof.Machine
open Fmt (fp32 bf16 e4m3 e5m2)

/-- An FP32 pattern times 2^k, one rounding. -/
def scale32 (a : Nat) (k : Int) : Nat := (fencode fp32 .rne ((fdecode fp32 a).scale k)).1

/-- m·2^a ≤ q·2^b. -/
def leScaled (m : Nat) (a : Int) (q : Nat) (b : Int) : Bool :=
  if a ≤ b then decide (m ≤ q * 2 ^ (b - a).toNat) else decide (m * 2 ^ (a - b).toNat ≤ q)

/-- The larger of two magnitudes m·2^e. -/
def maxMag (x y : Nat × Int) : Nat × Int := if x.1 == 0 then y else if y.1 == 0 then x else if leScaled x.1 x.2 y.1 y.2 then y else x

/-- The largest finite magnitude of a group; a zero magnitude where it holds none. -/
def largest (vs : List FVal) : Nat × Int :=
  vs.foldl (fun m v => match v with | .fin _ k e => maxMag m (k, e) | _ => m) (0, 0)

/-- The exponents −128 … 127 in order. -/
def exponents : List Int := (List.range 256).map fun (i : Nat) => (i : Int) - 128

/-- The scale exponent of a largest magnitude (R315). -/
def scaleOf (q : Nat) (m : Nat × Int) : Int :=
  if m.1 == 0 then 0 else (exponents.find? fun e => leScaled m.1 m.2 q e).getD 127

/-- Quantise x under e (R315): clamp(RNE(x·2^−e), lo, q); a NaN gives 0. -/
def quantise (x : FVal) (e : Int) (lo q : Int) : Int :=
  match x with
  | .nan _ => 0
  | .inf n => if n then lo else q
  | .fin n m k => max lo (min q (fintV .rne n m (k - e)).1)

/-- Quantise an FP32 pattern. -/
def quant32 (x : Nat) (e : Int) (lo q : Int) : Int := quantise (fdecode fp32 x) e lo q

/-- The scale exponent of a group of FP32 patterns. -/
def scale32Of (q : Nat) (xs : List Nat) : Int := scaleOf q (largest (xs.map (fdecode fp32)))

/-- The two's-complement byte of an integer. -/
def intByte (i : Int) : Byte := BitVec.ofInt 8 i

/-- A signed byte. -/
def byteInt (b : Nat) : Int := signedOf 8 b

/-! ### Addresses of gather and matrix descriptors (R224) -/

/-- Read an address: bit 63 names the serving tile's SRAM. -/
def gAddr (tile a : Nat) : Option DAddr :=
  if a.testBit 63 then (if a == 2 ^ 63 + bitsOf a 21 0 then some (.tile tile (bitsOf a 21 0)) else none)
  else if a < 2 ^ 48 then some (.pm a) else none

/-- The region lies wholly in partition memory or in the serving tile's SRAM from 0x10_0000 on. -/
def Part.gOk (p : Part) (tile a n : Nat) : Bool :=
  match gAddr tile a with
  | some (.tile _ o) => 0x100000 ≤ o && o + n ≤ 0x400000
  | some (.pm o) => o + n ≤ p.memBytes
  | none => false

def State.gRead (s : State) (p : Part) (tile a n : Nat) : Bytes :=
  match gAddr tile a with
  | some (.tile t o) => s.locRead (.tile t o) n
  | some (.pm o) => s.pmRead p o n
  | none => zeros n

def State.gWrite (s : State) (p : Part) (tile a : Nat) (b : Bytes) : State :=
  match gAddr tile a with
  | some (.tile t o) => s.locWrite (.tile t o) b
  | some (.pm o) => s.pmWrite p o b
  | none => s

/-- A read of the region meets an uncorrectable unit. -/
def State.gBad (s : State) (p : Part) (tile a n : Nat) : Bool :=
  match gAddr tile a with
  | some (.pm o) => s.pmBad p o n
  | _ => false

/-- Stack units a region costs: none in tile SRAM. -/
def gUnits (tile a n : Nat) : Nat :=
  match gAddr tile a with
  | some (.pm o) => (unitsOf o n).length
  | _ => 0

/-- The engine that serves a queue (R222, R297): its home tile's, or for partition memory the lowest of the partition's tiles that passes. -/
def Part.engineOf (p : Part) (q : QueueDef) (ok : Nat → Bool) : Option Nat :=
  if q.home != 0xFF then some q.home else (p.tiles.map fun t => t.1).find? ok

end Sys2Proof.Machine
end

