-- ==== Sys2Proof/Machine/Gather.lean ====
section
/-! DEFINITION. Sys2Proof/Machine/Gather.lean: embedding tables and the gather engine: descriptors and versions, row lookup, windows, pooling and
completions (R202–R237). -/
namespace Sys2Proof.Machine
open Fmt (fp32 bf16)

/-! ### Tables (R202–R216) -/

/-- The fields of a table descriptor. -/
structure Tab where
  off : Nat
  id : Nat
  dims : Nat
  levels : Nat
  widths : Nat
  ext : Nat
  heatQ : Nat
  shift : Nat
  rows : Nat
  prev : Nat
  base : List Nat
  slots : List Nat
  h2 : Nat
  h1 : Nat
  h0 : Nat
  decay : Nat
  limit : Nat
  list : Nat
  listN : Nat
  flags : Nat
  deriving DecidableEq, Repr

def parseTab (off : Nat) (b : Bytes) : Tab :=
  { off := off, id := fieldAt b 4 2, dims := fieldAt b 6 2, levels := fieldAt b 8 1, widths := fieldAt b 9 1, ext := fieldAt b 0xA 2,
    heatQ := fieldAt b 0xC 2, shift := fieldAt b 0xE 1, rows := fieldAt b 0x10 8, prev := fieldAt b 0x18 8,
    base := [fieldAt b 0x20 8, fieldAt b 0x28 8, fieldAt b 0x30 8], slots := [fieldAt b 0x38 4, fieldAt b 0x3C 4, fieldAt b 0x40 4],
    h2 := fieldAt b 0xD5 1, h1 := fieldAt b 0xD6 1, h0 := fieldAt b 0xD7 1, decay := fieldAt b 0xD8 2, limit := fieldAt b 0xDC 2,
    list := fieldAt b 0xE0 8, listN := fieldAt b 0xE8 4, flags := fieldAt b 0xD4 1 }

/-- A partition with less memory than this holds no table (R202). -/
def Part.holdsTables (p : Part) : Bool := p.memBytes ≥ 0x100090000

/-- Where the directory entry of a table id lies. -/
def tableEntryAt (id : Nat) : Nat := 0x100010000 + 8 * id

/-- The entry of a table id: none where it is not live. -/
def State.tableHead (s : State) (p : Part) (id : Nat) : Option Nat :=
  if !p.holdsTables then none
  else
    let e := s.pmNum p (tableEntryAt id) 8
    if e % 4 == 1 then some (bitsOf e 47 6 * 64) else none

/-- The checks of R205. -/
def State.tableOk (s : State) (p : Part) (off id : Nat) : Bool :=
  let b := s.pmRead p off 512
  fieldAt b 0 4 == 0x4C424154 && fieldAt b 4 2 == id && crc32c (b.take 0xC0 ++ b.drop 0x100) == fieldAt b 0xFC 4

/-- Follow the versions of a table back from S (R120, R215). -/
def State.tableVersion (s : State) (p : Part) (id : Nat) (at_ : Stamp) : Nat → Nat → Reach Tab
  | 0, _ => .absent
  | fuel + 1, off =>
    if off == 0 then .absent
    else if !s.tableOk p off id then .bad off
    else
      let b := s.pmRead p off 512
      if (s.pubStamp p (stampAt b 0xC8) (fieldAt b 0xC0 8)).before at_ then .found (parseTab off b)
      else State.tableVersion s p id at_ fuel (fieldAt b 0x18 8)

/-- Row bytes at a width code 1 BF16, 2 INT8, 3 INT4 (R209). -/
def rowSize (w e : Nat) : Nat := alignUp (8 + (match w with | 1 => 2 * e | 2 => e | _ => e / 2)) 16

/-- Source rows in a page. -/
def srcPerPage (e : Nat) : Nat := 16384 / max 1 (rowSize 1 e)

/-- The values of a row, exact, before the FP32 conversion. -/
def rowVals (b : Bytes) (e : Nat) : List FVal :=
  let k := byteInt (fieldAt b 0 1)
  match fieldAt b 1 1 with
  | 1 => (List.range e).map fun i => (fdecode bf16 (fieldAt b (8 + 2 * i) 2)).scale k
  | 2 => (List.range e).map fun i => let v := byteInt (fieldAt b (8 + i) 1); .fin (decide (v < 0)) v.natAbs k
  | _ => (List.range e).map fun i =>
      let v := signedOf 4 (bitsOf (fieldAt b (8 + i / 2) 1) (if i % 2 == 0 then 3 else 7) (if i % 2 == 0 then 0 else 4))
      .fin (decide (v < 0)) v.natAbs k

/-- The FP32 values of a row (R210). -/
def rowF32 (b : Bytes) (e : Nat) : List Nat := (rowVals b e).map fun v => (fencode fp32 .rne v).1

/-- Derive a row's bytes at INT8 or INT4 from its source row (R211); none where the source holds a NaN or an infinity. -/
def deriveRow (src : Bytes) (e w : Nat) : Option Bytes :=
  let q : Nat := if w == 2 then 127 else 7
  let vs := rowVals src e
  if vs.any fun v => match v with | .fin .. => false | _ => true then none
  else
    let k := scaleOf q (largest vs)
    let a := vs.map fun v => quantise v k (-(q : Int)) q
    let body : Bytes :=
      if w == 2 then a.map intByte
      else (List.range (e / 2)).map fun i =>
        BitVec.ofNat 8 (unsignedOf 4 (nth a (2 * i) 0) + 16 * unsignedOf 4 (nth a (2 * i + 1) 0))
    let b := [intByte k, BitVec.ofNat 8 w] ++ slice src 2 5 ++ [0] ++ body
    some (b ++ zeros (rowSize w e - b.length))

/-- What the path of a row index leads to (R206, R207, R230). -/
inductive Path where
  | absent
  | bad
  | page (off : Nat)
  deriving DecidableEq, Repr

/-- An entry of the root or of a directory page. -/
def pathEntry (p : Part) (e : Nat) : Path :=
  match e % 4 with
  | 0 => .absent
  | 1 => if bitsOf e 47 12 * 4096 + 4096 ≤ p.memBytes then .page (bitsOf e 47 12 * 4096) else .bad
  | _ => .bad

/-- Walk the directory pages from level `j` down to the row map page. -/
def State.walkDir (s : State) (p : Part) (r : Nat) : Nat → Nat → Path
  | 0, off => .page off
  | j + 1, off =>
    match pathEntry p (s.pmNum p (off + 8 * bitsOf r (16 + 9 * j) (8 + 9 * j)) 8) with
    | .page o => State.walkDir s p r j o
    | x => x

/-- The row map page of a row index. -/
def State.rowPage (s : State) (p : Part) (t : Tab) (r : Nat) : Path :=
  match pathEntry p (s.pmNum p (t.off + 0x100 + 8 * bitsOf r (12 + 9 * t.levels) (8 + 9 * t.levels)) 8) with
  | .page o => s.walkDir p r t.levels o
  | x => x

/-- A row map entry (R208). -/
structure RowEnt where
  at_ : Nat
  loc : Nat
  slot : Nat
  heat : Nat
  page : Nat
  ix : Nat
  deriving DecidableEq, Repr

def State.rowEnt (s : State) (p : Part) (page r : Nat) : RowEnt :=
  let a := page + 16 * (r % 256)
  let m := s.pmNum p a 8
  let w := s.pmNum p (a + 8) 8
  { at_ := a, loc := m % 8, slot := bitsOf m 47 8, heat := bitsOf m 55 48, page := bitsOf w 39 0, ix := bitsOf w 48 40 }

/-- What a lookup finds (R212, R230). -/
inductive Look where
  | oor
  | absent
  | bad
  | mem (row : Bytes) (at_ : Nat)
  | flash (row : Bytes) (key : Nat)
  deriving DecidableEq, Repr

/-- A row passes the checks of R230. -/
def rowOk (b : Bytes) (w r : Nat) : Bool := fieldAt b 1 1 == w && fieldAt b 2 5 == r

/-- The source row of an entry: bytes and page key; none beyond the extent or the page. -/
def State.sourceRow (s : State) (p : Part) (t : Tab) (e : RowEnt) : Option (Bytes × Nat) :=
  match p.flashExt t.ext with
  | none => none
  | some x =>
    if e.page ≥ extPages x.sizeGB || e.ix ≥ srcPerPage t.dims || !s.storageUp then none
    else
      let k := pageKey p.num t.ext e.page
      some (s.flashRead k (e.ix * rowSize 1 t.dims) (rowSize 1 t.dims), k)

/-- Look a row up through a row map page. -/
def State.lookEnt (s : State) (p : Part) (t : Tab) (r page : Nat) : Look :=
  let e := s.rowEnt p page r
  if e.loc == 0 then .absent
  else if e.loc ≤ 3 then
    let a := nth t.base (e.loc - 1) 0 + e.slot * rowSize e.loc t.dims
    if e.slot ≥ nth t.slots (e.loc - 1) 0 || a + rowSize e.loc t.dims > p.memBytes then .bad
    else
      let b := s.pmRead p a (rowSize e.loc t.dims)
      if rowOk b e.loc r then .mem b a else .bad
  else if e.loc == 4 then
    match s.sourceRow p t e with
    | some (b, k) => if rowOk b 1 r then .flash b k else .bad
    | none => .bad
  else .bad

/-! ### The engine (R222–R237) -/

def State.gth (s : State) (t : Nat) : Gth := s.gather.get Gth.reset t
def State.modGth (s : State) (t : Nat) (f : Gth → Gth) : State := { s with gather := s.gather.modify Gth.reset t f }
def State.modGthCmd (s : State) (t : Nat) (f : GthCmd → GthCmd) : State := s.modGth t fun g => { g with cmd := g.cmd.map f }

/-- The engine may serve: enabled (R45) and neither fenced (R593) nor held by a test (R597). -/
def State.gatherOn (s : State) (t : Nat) : Bool :=
  (s.enables t).getLsbD 13 && !(s.tile t).gather && !(s.tile t).gdata && !s.underTest 3 t

/-- Look a row up with the path cache (R229); the stack units read for translation come back too. -/
def State.lookRow (s : State) (p : Part) (tile : Nat) (t : Tab) (r : Nat) : Look × Nat × State :=
  if r ≥ t.rows then (.oor, 0, s)
  else
    let key := r / 256
    match (s.gth tile).cache.find? fun e => e.1 == t.off && e.2.1 == key with
    | some e =>
      let s := s.modGth tile fun g => { g with cache := e :: g.cache.erase e }
      (s.lookEnt p t r e.2.2, 1, s)
    | none =>
      match s.rowPage p t r with
      | .absent => (.absent, t.levels + 1, s)
      | .bad => (.bad, t.levels + 1, s)
      | .page o =>
        let s := s.modGth tile fun g => { g with cache := ((t.off, key, o) :: g.cache).take 256 }
        (s.lookEnt p t r o, t.levels + 2, s)

/-- Is row `r` sampled by the command (R217). -/
def sampled (t : Tab) (st : Stamp) (r : Nat) : Bool :=
  t.heatQ != 0xFFFF && crc32c (toLE 2 t.id ++ toLE 5 r ++ st.bytes) % 2 ^ t.shift == 0

/-- A heat entry of up to four samples (R218). -/
def heatEntry (id : Nat) (rows : List Nat) : Bytes :=
  ((rows.map fun r => toLE 5 r ++ [0] ++ toLE 2 id ++ zeros 8) ++ List.replicate (4 - rows.length) (zeros 6 ++ toLE 2 0xFFFF ++ zeros 8)).flatten

/-- Write a heat entry, or discard it at the high-water mark. -/
def State.postHeat (s : State) (p : Part) (tile : Nat) (t : Tab) (rows : List Nat) : State :=
  match p.queueDef? t.heatQ with
  | some q =>
    if q.kind != 3 || s.aboveHigh p.num q || s.queueFull p.num q then s.modGth tile fun g => { g with sampleDrop := g.sampleDrop + 1 }
    else s.post p q (heatEntry t.id rows ++ zeros (q.bytes - 64)) 0x100 none none
  | none => s.modGth tile fun g => { g with sampleDrop := g.sampleDrop + 1 }

/-- Sample one unique row. -/
def State.sampleRow (s : State) (p : Part) (tile : Nat) (t : Tab) (st : Stamp) (r : Nat) : State :=
  match (s.gth tile).cmd with
  | none => s
  | some c =>
    if !sampled t st r then s
    else
      let l := c.samples ++ [r]
      if l.length == 4 then (s.modGthCmd tile fun c => { c with samples := [] }).postHeat p tile t l
      else s.modGthCmd tile fun c => { c with samples := l }

/-- The bag descriptor: first position and length. -/
def State.bagAt (s : State) (p : Part) (tile : Nat) (d : Bytes) (b : Nat) : Nat × Nat :=
  let e := s.gRead p tile (fieldAt d 0x18 8 + 8 * b) 8
  (fieldAt e 0 4, fieldAt e 4 4)

/-- The index at a position. -/
def State.indexAt (s : State) (p : Part) (tile : Nat) (d : Bytes) (i : Nat) : Nat := leNat (s.gRead p tile (fieldAt d 0x20 8 + 8 * i) 8)

/-- The weight at a position. -/
def State.weightAt (s : State) (p : Part) (tile : Nat) (d : Bytes) (i : Nat) : Nat := leNat (s.gRead p tile (fieldAt d 0x28 8 + 4 * i) 4)

/-- Every bag and index lies in an allowed place and in its range (R224). -/
def State.arraysOk (s : State) (p : Part) (tile : Nat) (d : Bytes) : Bool :=
  (List.range (fieldAt d 4 4)).all fun b =>
    let (f, n) := s.bagAt p tile d b
    n < 2 ^ 24 && p.gOk tile (fieldAt d 0x20 8 + 8 * f) (8 * n) && (!(fieldAt d 1 1).testBit 1 || p.gOk tile (fieldAt d 0x28 8 + 4 * f) (4 * n)) &&
      (List.range n).all fun i => s.indexAt p tile d (f + i) < 2 ^ 40

/-- Bytes of an output element. -/
def gOutBytes (d : Bytes) : Nat := if (fieldAt d 1 1).testBit 2 then 2 else 4

/-- The field rules of R223 and R224 that need no table. -/
def State.gatherOk (s : State) (p : Part) (tile : Nat) (d : Bytes) : Bool :=
  let n := fieldAt d 4 4
  crcOk (d.take 64) 0x3C && fieldAt d 0 1 == 1 && fieldAt d 1 1 < 8 && 1 ≤ n && n ≤ 65535 &&
  (match p.queueDef? (fieldAt d 0x14 2) with | some q => q.kind == 3 && q.bytes ≥ 32 | none => false) &&
  p.gOk tile (fieldAt d 0x18 8) (8 * n) && p.gOk tile (fieldAt d 0x20 8) 0 && p.gOk tile (fieldAt d 0x30 8) 0 &&
  ((fieldAt d 1 1).testBit 1 || fieldAt d 0x28 8 == 0) && p.gOk tile (fieldAt d 0x28 8) 0 &&
  fieldAt d 0x38 4 % 64 == 0 && 0x100000 ≤ fieldAt d 0x38 4 && fieldAt d 0x38 4 < 0x400000 && s.arraysOk p tile d

/-- Insert an occurrence of a row into a segment's rows, ascending. -/
def addOcc (r w : Nat) : List (Nat × Nat × Nat) → List (Nat × Nat × Nat)
  | [] => [(r, add32 f32zero w, 1)]
  | x :: l => if r < x.1 then (r, add32 f32zero w, 1) :: x :: l
    else if r == x.1 then (r, add32 x.2.1 w, x.2.2 + 1) :: l else x :: addOcc r w l

/-- The window being formed (R226). -/
structure WinAcc where
  uniq : List Nat := []
  nUniq : Nat := 0
  pairs : Nat := 0
  segs : List GthSeg := []
  closed : Bool := false
  bag : Nat
  pos : Nat
  deriving DecidableEq, Repr

/-- Gather the indices of one bag from a position on until it ends or the window closes. -/
def State.winBag (s : State) (p : Part) (tile : Nat) (d : Bytes) (first : Nat) : Nat → WinAcc → List (Nat × Nat × Nat) → WinAcc × List (Nat × Nat × Nat)
  | 0, a, rows => (a, rows)
  | n + 1, a, rows =>
    let r := s.indexAt p tile d (first + a.pos)
    let newPair := !rows.any (·.1 == r)
    let newRow := newPair && !a.uniq.contains r
    if (newRow && a.nUniq ≥ 4096) || (newPair && a.pairs ≥ 16384) then ({ a with closed := true }, rows)
    else
      let w := if (fieldAt d 1 1).testBit 1 then s.weightAt p tile d (first + a.pos) else int32f 1
      let a := { a with uniq := if newRow then insNat a.uniq r else a.uniq, nUniq := a.nUniq + b2n newRow, pairs := a.pairs + b2n newPair,
                        pos := a.pos + 1 }
      State.winBag s p tile d first n a (addOcc r w rows)

/-- Form a window of at most 64 bags. -/
def State.formWin (s : State) (p : Part) (tile : Nat) (d : Bytes) (bags : Nat) : Nat → WinAcc → WinAcc
  | 0, a => a
  | n + 1, a =>
    if a.closed || a.bag ≥ bags then a
    else
      let (f, len) := s.bagAt p tile d a.bag
      let (a, rows) := s.winBag p tile d f (len - a.pos) a []
      let done := !a.closed
      -- a bag whose next index closed the window before any of its indices joined has no segment here
      let seg : List GthSeg := if done || !rows.isEmpty then [⟨a.bag, done, rows⟩] else []
      State.formWin s p tile d bags n { a with segs := a.segs ++ seg, bag := if done then a.bag + 1 else a.bag, pos := if done then 0 else a.pos }

/-- The accumulator of a bag in the serving tile's SRAM (R233); a window's bags follow one another, so bag mod 64 is a place of its own. -/
def accAt (d : Bytes) (e bag : Nat) : Nat := fieldAt d 0x38 4 + (bag % 64) * e * 4

/-- Open the next window, unless the engine is paused (R236) or the command is over. -/
def State.openWindow (s : State) (tile : Nat) : State :=
  let g := s.gth tile
  match g.cmd with
  | none => s
  | some c =>
    match s.part? c.part with
    | none => s
    | some p =>
      if g.pause || c.windowOpen || c.status.isSome then s
      else
        let t := parseTab c.ver (s.pmRead p c.ver 512)
        let d := c.desc
        let n := fieldAt d 4 4
        if c.bag ≥ n then
          let s := if c.samples.isEmpty then s else (s.modGthCmd tile fun c => { c with samples := [] }).postHeat p tile t c.samples
          s.modGthCmd tile fun c => { c with status := some (if c.errs > 0 then 1 else 0) }
        else
          let a := s.formWin p tile d n 64 { bag := c.bag, pos := c.pos }
          -- a bag that starts here starts from +0.0
          let fresh := a.segs.filter fun x => x.bag > c.bag || c.pos == 0
          let s := fresh.foldl (fun (s : State) (x : GthSeg) => s.locWrite (.tile tile (accAt d t.dims x.bag)) (zeros (4 * t.dims))) s
          let st := stampAt d 8
          let s := s.modGthCmd tile fun c => { c with
            bag := a.bag, pos := a.pos, segs := a.segs, todo := a.uniq, windowOpen := true, windows := c.windows + 1,
            wsum := c.wsum.filter fun e => !fresh.any (·.bag == e.1) }
          a.uniq.foldl (fun (s : State) r => s.sampleRow p tile t st r) s

/-- Add a row's values into the accumulators of the bags that name it, in ascending bag order (R228, R231). -/
def State.poolRow (s : State) (tile : Nat) (d : Bytes) (e r : Nat) (v : List Nat) (segs : List GthSeg) : State :=
  segs.foldl (fun (s : State) (x : GthSeg) =>
    match x.rows.find? (·.1 == r) with
    | none => s
    | some y =>
      let a := accAt d e x.bag
      let old := (List.range e).map fun i => fieldAt (s.locRead (.tile tile a) (4 * e)) (4 * i) 4
      let new := List.zipWith (fun o u => add32 o (mul32 y.2.1 u)) old v
      s.locWrite (.tile tile a) ((new.map (toLE 4)).flatten)) s

/-- The output row of a bag whose last segment is complete (R231, R233). -/
def State.bagOut (s : State) (p : Part) (tile : Nat) (d : Bytes) (e : Nat) (tag : BitVec 9) (bag wsum : Nat) : State :=
  let a := accAt d e bag
  let acc := (List.range e).map fun i => fieldAt (s.locRead (.tile tile a) (4 * e)) (4 * i) 4
  let v := if (fieldAt d 1 1).testBit 0 then acc.map fun x => if fisZero fp32 wsum then f32zero else div32 x wsum else acc
  let z := gOutBytes d
  let b := (v.map fun x => if z == 2 then toLE 2 (f2bf x) else toLE 4 x).flatten
  let o := fieldAt d 0x30 8 + bag * e * z
  (s.gWrite p tile o b).charge tag p.num 2 (gUnits tile o b.length)

/-- The window's rows have all retired: weights are summed, finished bags written, the next window opens. -/
def State.closeWindow (s : State) (p : Part) (tile : Nat) (t : Tab) (c : GthCmd) : State :=
  let rows := (c.segs.flatMap fun x => x.rows.map fun y => y.1)
  let s := c.segs.foldl (fun (s : State) (x : GthSeg) =>
    let w := add32 (((s.gth tile).cmd.map fun c => SMap.get c.wsum 0 x.bag).getD 0) (sum32 (x.rows.map fun y => y.2.1))
    let s := s.modGthCmd tile fun c => { c with wsum := SMap.set c.wsum 0 x.bag w }
    if x.last then s.bagOut p tile c.desc t.dims c.tag x.bag w else s) s
  let s := s.modGthCmd tile fun c => { c with windowOpen := false, segs := [], todo := [], seen := rows.foldl insNat c.seen }
  s.openWindow tile

/-- The next row of the window retires (R228). -/
def State.gatherRetire (s : State) (tile : Nat) : State :=
  match (s.gth tile).cmd with
  | none => s
  | some c =>
    match s.part? c.part with
    | none => s
    | some p =>
      if !c.windowOpen || c.status.isSome then s
      else
        let t := parseTab c.ver (s.pmRead p c.ver 512)
        match c.todo with
        | [] => s.closeWindow p tile t c
        | r :: rest =>
          let told := s.replayMedia p.num 3 (fieldAt c.desc 0x30 8)
          let occ := (c.segs.flatMap fun x => (x.rows.filter (·.1 == r)).map fun y => y.2.2).sum
          let (l, units, s) := s.lookRow p tile t r
          let l : Look := if told.any fun x => x.contains (r % 65536) then .bad else l
          let re := c.seen.contains r
          let zero := List.replicate t.dims f32zero
          let (v, s) : List Nat × State := match l with
            | .oor => (zero, s.modGthCmd tile fun c => { c with absent := c.absent + occ, oor := c.oor + occ })
            | .absent => (zero, s.modGthCmd tile fun c => { c with absent := c.absent + occ })
            | .bad =>
              let s := s.modGth tile fun g => { g with err := bput g.err 1 true }
              (zero, (s.modGthCmd tile fun c => { c with errs := c.errs + 1, badRows := c.badRows ++ [r] }).report
                { cls := 7, cause := 1, part := p.num, kind := 3, unit := tile, loc := r, tag := c.tag.toNat, detail := t.id })
            | .mem b a =>
              let s := s.charge c.tag p.num 2 (unitsOf a b.length).length
              (rowF32 b t.dims, s.modGthCmd tile fun c => { c with reads := c.reads + 1, coal := c.coal + (occ - 1), rereads := c.rereads + b2n re })
            | .flash b k =>
              let s := (s.countRead k (s.defaultStep k)).charge c.tag p.num 4 1
              (rowF32 b t.dims, s.modGthCmd tile fun c =>
                { c with reads := c.reads + 1, coal := c.coal + (occ - 1), rereads := c.rereads + b2n re, flash := c.flash + 1 })
          let s := s.charge c.tag p.num 2 units
          let s := s.poolRow tile c.desc t.dims r v c.segs
          let s := s.modGthCmd tile fun c => { c with todo := rest }
          if rest.isEmpty then
            match (s.gth tile).cmd with
            | some c => s.closeWindow p tile t c
            | none => s
          else s

/-- The queues of a kind that an engine serves and that hold work, by ascending id (R222). -/
def State.engineQueues (s : State) (kind tile : Nat) (ok : Nat → Bool) : List (Part × QueueDef) :=
  (s.workQueues kind).filter fun e => e.1.owns tile && e.1.engineOf e.2 ok == some tile

/-- The lowest id among queues. -/
def lowestQueue (l : List (Part × QueueDef)) : Option (Part × QueueDef) :=
  l.foldl (fun b e => match b with | none => some e | some x => if e.2.id < x.2.id then some e else some x) none

/-- The engine takes its next command (R222–R225). -/
def State.gatherTake (s : State) (tile : Nat) : State :=
  let g := s.gth tile
  if g.cmd.isSome || g.pause || !s.gatherOn tile then s
  else match lowestQueue (s.engineQueues 6 tile fun t => (s.enables t).getLsbD 13) with
    | none => s
    | some (p, q) =>
      match s.unitTake p q with
      | none => s
      | some (e, d, s) =>
        let d := d.take 64
        let c : GthCmd := { part := p.num, desc := d, tag := e.tag }
        let refuse (s : State) (st : Nat) : State := s.modGth tile fun g => { g with cmd := some { c with status := some st } }
        let st := stampAt d 8
        if !s.gatherOk p tile d then
          (refuse s 4).reportDesc 4 p.num 3 tile (q.slotAddr e.slot) q.id e.tag
        else if st.time.toNat + 50000000 < s.rack then refuse s 5
        else match s.tableHead p (fieldAt d 2 2) with
          | none => refuse s 2
          | some off =>
            match s.tableVersion p (fieldAt d 2 2) st chainFuel off with
            | .bad a =>
              (refuse s 3).report { cls := 1, part := p.num, kind := 3, unit := tile, loc := a, tag := e.tag.toNat, detail := fieldAt d 2 2 }
            | .absent => refuse s 2
            | .found t =>
              if t.dims == 0 then refuse s 2
              else if !p.gOk tile (fieldAt d 0x30 8) (fieldAt d 4 4 * t.dims * gOutBytes d) || fieldAt d 0x38 4 + 256 * t.dims > 0x400000 then
                (refuse s 4).reportDesc 4 p.num 3 tile (q.slotAddr e.slot) q.id e.tag
              else
                let s := s.modGth tile fun g => { g with cmd := some { c with ver := t.off } }
                (s.charge e.tag p.num 2 (gUnits tile (fieldAt d 0x18 8) (8 * fieldAt d 4 4))).openWindow tile

/-- A completion record (R234). -/
def GthCmd.record (c : GthCmd) (status : Nat) : Bytes :=
  let s4 (n : Nat) : Bytes := toLE 4 (min n (2 ^ 32 - 1))
  let s2 (n : Nat) : Bytes := toLE 2 (min n 65535)
  toLE 1 status ++ [0] ++ slice c.desc 0x16 2 ++ slice c.desc 2 2 ++ s2 c.windows ++ s4 c.reads ++ s4 c.coal ++ s4 c.rereads ++ s4 c.flash ++
    s4 c.absent ++ s2 c.oor ++ s2 c.errs

/-- The completion is posted (R233, R234); while its queue is full it waits. -/
def State.gatherComplete (s : State) (tile : Nat) : State :=
  match (s.gth tile).cmd with
  | none => s
  | some c =>
    match c.status, s.part? c.part with
    | some st, some p =>
      let q := (p.queueDef? (fieldAt c.desc 0x14 2)).filter fun q => q.kind == 3 && q.bytes ≥ 32
      if q.any fun q => s.queueFull p.num q then s
      else
        let s := match q with
          | some q => s.post p q (c.record st ++ zeros (q.bytes - 32)) c.tag none none
          | none => s
        let s := s.caskMedia p.num 3 (fieldAt c.desc 0x30 8) c.badRows
        let bit : Option Nat := match st with | 3 | 4 => some 0 | 5 => some 2 | 6 => some 3 | _ => none
        s.modGth tile fun g =>
          { g with cmd := none, cmdCnt := g.cmdCnt + 1, readCnt := g.readCnt + BitVec.ofNat 32 c.reads, coalCnt := g.coalCnt + BitVec.ofNat 32 c.coal,
                   rereadCnt := g.rereadCnt + BitVec.ofNat 32 c.rereads, err := match bit with | some b => bput g.err b true | none => g.err }
    | _, _ => s

/-- A fence ends the running command FAILED (R237). -/
def State.gatherFail (s : State) (tile : Nat) : State :=
  s.modGthCmd tile fun c => if c.status.isSome then c else { c with status := some 6, windowOpen := false, todo := [], segs := [] }

end Sys2Proof.Machine
end

