-- ==== Sys2Proof/Machine/Matrix.lean ====
section
/-! DEFINITION. Sys2Proof/Machine/Matrix.lean: the matrix engine: descriptors, phases, the output stage, completions, and the fences of its arrays (R279–R302,
R308–R312). A group's phases run one MATRIX_PHASE_END each. -/
namespace Sys2Proof.Machine
open Fmt (fp32 bf16 e4m3 e5m2)

def State.mtx (s : State) (t : Nat) : Mtx := s.matrix.get Mtx.reset t
def State.modMtx (s : State) (t : Nat) (f : Mtx → Mtx) : State := { s with matrix := s.matrix.modify Mtx.reset t f }
def State.modMtxCmd (s : State) (t : Nat) (f : MtxCmd → MtxCmd) : State := s.modMtx t fun m => { m with cmd := m.cmd.map f }

/-! ### Descriptors (R287–R289) -/

/-- The fields of a matrix descriptor. -/
structure MDesc where
  op : Nat
  xf : Nat
  wf : Nat
  yf : Nat
  flags : Nat
  mode : Nat
  mask : Nat
  shift : Int
  t : Nat
  n : Nat
  k : Nat
  xs : Nat
  ws : Nat
  ys : Nat
  xa : Nat
  wa : Nat
  ya : Nat
  bias : Nat
  acc : Nat
  xe : Nat
  we : Nat
  ye : Nat
  accs : Nat
  queue : Nat
  deriving DecidableEq, Repr

def parseM (b : Bytes) : MDesc :=
  { op := fieldAt b 0 1, xf := fieldAt b 1 1, wf := fieldAt b 2 1, yf := fieldAt b 3 1, flags := fieldAt b 4 1, mode := fieldAt b 5 1, mask := fieldAt b 6 1,
    shift := byteInt (fieldAt b 7 1), t := fieldAt b 8 4, n := fieldAt b 0xC 4, k := fieldAt b 0x10 4, xs := fieldAt b 0x14 4, ws := fieldAt b 0x18 4,
    ys := fieldAt b 0x1C 4, xa := fieldAt b 0x20 8, wa := fieldAt b 0x28 8, ya := fieldAt b 0x30 8, bias := fieldAt b 0x38 8, acc := fieldAt b 0x40 8,
    xe := fieldAt b 0x48 8, we := fieldAt b 0x50 8, ye := fieldAt b 0x58 8, accs := fieldAt b 0x60 4, queue := fieldAt b 0x64 2 }

def MDesc.flag (d : MDesc) (i : Nat) : Bool := d.flags.testBit i

/-- Bytes of a row of `n` elements of an operand format (R281). -/
def opBytes (f n : Nat) : Nat := match f with | 1 => ceilDiv n 2 | 4 => 2 * n | _ => n

/-- Bytes of a row of `n` elements of a Y format. -/
def yBytes (f n : Nat) : Nat := match f with | 0 | 1 => 4 * n | 2 => 2 * n | 4 => ceilDiv n 2 | _ => n

/-- The pair of formats is one of R281. -/
def pairOk (x w : Nat) : Bool :=
  match x, w with
  | 0, 0 | 0, 1 | 1, 1 | 4, 4 => true
  | x, w => (x == 2 || x == 3) && (w == 2 || w == 3)

/-- Elements in a chunk. -/
def MDesc.kappa (d : MDesc) : Nat := if d.xf == 1 && d.wf == 1 then 128 else 64

/-- Integer operands. -/
def MDesc.isInt (d : MDesc) : Bool := d.xf ≤ 1

/-- An operand of `rows` rows with a stride: in one allowed place, aligned, rows no longer than the stride. -/
def Part.operandOk (p : Part) (tile a stride rows rowBytes : Nat) (tr : Bool) : Bool :=
  a != 0 && a % 16 == 0 && stride % 16 == 0 && rowBytes ≤ stride && p.gOk tile a ((rows - 1) * stride + rowBytes) && (!tr || a.testBit 63)

/-- An array of `n` bytes that a flag or mode needs, or whose address must be 0. -/
def Part.optOk (p : Part) (tile a n : Nat) (need : Bool) : Bool := if need then a != 0 && a % 16 == 0 && p.gOk tile a n else a == 0

/-- The checks of R289. -/
def matrixOk (p : Part) (tile : Nat) (b : Bytes) : Bool :=
  let d := parseM b
  crcOk (b.take 128) 0x7C && (d.op == 1 || d.op == 2) && d.xf ≤ 4 && d.wf ≤ 4 && d.yf ≤ 6 && d.flags < 128 && d.mode ≤ 2 && d.mask < 16 &&
    (d.mode == 0 || d.shift == 0) && allZero (slice b 0x68 20) && pairOk d.xf d.wf &&
    1 ≤ d.t && d.t ≤ 1048576 && 1 ≤ d.n && d.n ≤ 65536 && 1 ≤ d.k && d.k ≤ 65536 &&
    (d.yf != 0 || (!d.flag 2 && !d.flag 3 && !d.flag 5 && !d.flag 6 && d.mode == 0 && d.shift == 0)) &&
    (d.mode == 0 || d.yf ≥ 3) && (d.mode != 1 || d.n ≤ 128) && (d.mode != 2 || d.t ≤ 64) &&
    p.operandOk tile d.xa d.xs (if d.flag 0 then d.k else d.t) (opBytes d.xf (if d.flag 0 then d.t else d.k)) (d.flag 0) &&
    p.operandOk tile d.wa d.ws (if d.flag 1 then d.k else d.n) (opBytes d.wf (if d.flag 1 then d.n else d.k)) (d.flag 1) &&
    p.operandOk tile d.ya d.ys d.t (yBytes d.yf d.n) false &&
    p.optOk tile d.bias (4 * d.n) (d.flag 2) &&
    (if d.op == 2 then p.operandOk tile d.acc d.accs d.t (4 * d.n) false else d.acc == 0 && d.accs == 0) &&
    p.optOk tile d.xe d.t (d.flag 5) && p.optOk tile d.we d.n (d.flag 6) && p.optOk tile d.ye (if d.mode == 1 then d.t else d.n) (d.mode != 0) &&
    (match p.queueDef? d.queue with | some q => q.kind == 3 | none => false)

/-! ### Operand elements -/

/-- Element `i` of row `j` of an operand, raw. -/
def State.opElem (s : State) (p : Part) (tile a stride f j i : Nat) : Nat :=
  match f with
  | 1 => bitsOf (leNat (s.gRead p tile (a + j * stride + i / 2) 1)) (if i % 2 == 0 then 3 else 7) (if i % 2 == 0 then 0 else 4)
  | 4 => leNat (s.gRead p tile (a + j * stride + 2 * i) 2)
  | _ => leNat (s.gRead p tile (a + j * stride + i) 1)

/-- An element as an integer, and as FP32. -/
def opInt (f v : Nat) : Int := if f == 1 then signedOf 4 v else signedOf 8 v
def opF32 (f v : Nat) : Nat := match f with | 2 => fconv e4m3 fp32 v | 3 => fconv e5m2 fp32 v | _ => bf2f v

def State.xElem (s : State) (p : Part) (tile : Nat) (d : MDesc) (t k : Nat) : Nat :=
  if d.flag 0 then s.opElem p tile d.xa d.xs d.xf k t else s.opElem p tile d.xa d.xs d.xf t k
def State.wElem (s : State) (p : Part) (tile : Nat) (d : MDesc) (n k : Nat) : Nat :=
  if d.flag 1 then s.opElem p tile d.wa d.ws d.wf k n else s.opElem p tile d.wa d.ws d.wf n k

/-- The tree sum of a chunk's 64 products (R292). -/
def treeSum (p : List Nat) : Nat :=
  ([32, 16, 8, 4, 2, 1].foldl (fun (a : List Nat) w => List.zipWith add32 (a.take w) ((a.drop w).take w)) p).headD 0

/-- Add a chunk's products to an accumulator (R291, R292): INT32 sums wrap modulo 2³². -/
def MDesc.accumulate (d : MDesc) (acc : Nat) (x w : List Nat) : Nat :=
  if d.isInt then
    let v := (List.zipWith (fun a b => opInt d.xf a * opInt d.wf b) x w).sum
    unsignedOf 32 ((acc : Int) + v)
  else
    let q := List.zipWith (fun a b => mul32 (opF32 d.xf a) (opF32 d.wf b)) x w
    add32 acc (treeSum (q ++ List.replicate (64 - q.length) (mul32 f32zero f32zero)))

/-! ### Arrays (R284, R310, R311) -/

def arrayUnit (tile a : Nat) : Nat := 4 * tile + a
def State.arrayEnabled (s : State) (tile a : Nat) : Bool := (s.enables tile).getLsbD (9 + a)

/-- A fence bit or a test holds the array. -/
def State.arrayHeld (s : State) (tile a : Nat) : Bool :=
  (s.tile tile).array.getLsbD a || (s.mtx tile).data.getLsbD a || s.underTest 2 (arrayUnit tile a)
def State.arrayDraining (s : State) (tile a : Nat) : Bool := (s.mtx tile).draining.getLsbD a

/-- The running descriptor is served by the array. -/
def State.arrayServes (s : State) (tile a : Nat) : Bool :=
  match (s.mtx tile).cmd with
  | some c => c.status.isNone && c.serving.contains a
  | none => false

/-- The FENCE record of an array with its capture event (R595). -/
def State.arrayFenceRecord (s : State) (tile a : Nat) (fenced : Bool) : State :=
  let part := ((s.ownerOf tile).map (·.num)).getD 0xFF
  (s.fenceRecord 2 (arrayUnit tile a) fenced ((s.tile tile).array.getLsbD a) ((s.mtx tile).data.getLsbD a) part).caskEvent part
    (if fenced then 2 else 3) (fencePayload (864 + arrayUnit tile a) ((s.tile tile).array.getLsbD a) ((s.mtx tile).data.getLsbD a))

/-- Management bit or data bit of an array: its effective fence state (R310, R595). -/
def State.arrayFenced (s : State) (tile a : Nat) : Bool := (s.tile tile).array.getLsbD a || (s.mtx tile).data.getLsbD a

/-- Change a bit of an array's fence. A change of the effective state is recorded, and so are an unfence that the data bit holds back and a
data bit that clears under the management bit (R595). -/
def State.arrayBits (s : State) (tile a : Nat) (f : State → State) : State :=
  let m0 := (s.tile tile).array.getLsbD a
  let d0 := (s.mtx tile).data.getLsbD a
  let s := f s
  let m1 := (s.tile tile).array.getLsbD a
  let d1 := (s.mtx tile).data.getLsbD a
  if (m0 || d0) != (m1 || d1) || (m0 && !m1 && d1) || (d0 && !d1 && m1) then s.arrayFenceRecord tile a (m1 || d1) else s

/-- A drain has run its course: the array is fenced, softly. -/
def State.arrayDrained (s : State) (tile a : Nat) : State :=
  (s.modMtx tile fun m => { m with draining := bput m.draining a false, hard := bput m.hard a false, drainAt := m.drainAt.set 0 a 0 })

/-- End the drains of a tile. -/
def State.endDrains (s : State) (tile : Nat) : State :=
  (List.range 4).foldl (fun (s : State) a => if s.arrayDraining tile a then s.arrayDrained tile a else s) s

/-! ### Phases (R283, R284, R308) -/

/-- Tokens and outputs of the phase. -/
def MDesc.tokens (d : MDesc) (tb : Nat) : Nat := min 64 (d.t - 64 * tb)
def MDesc.blocks (d : MDesc) : Nat := ceilDiv d.n 64
def MDesc.chunks (d : MDesc) : Nat := ceilDiv d.k d.kappa
def MDesc.outs (d : MDesc) (nb a : Nat) : List Nat := (List.range (64 * a)).filterMap fun i => if 64 * nb + i < d.n then some (64 * nb + i) else none

/-- Arrays of the descriptor's mask. -/
def MDesc.named (d : MDesc) : List Nat := (List.range 4).filter fun a => d.mask == 0 || d.mask.testBit a

/-- The arrays that serve the next group; those that drain give way when another can serve (R284, R311). -/
def State.groupArrays (s : State) (tile : Nat) (d : MDesc) : List Nat :=
  let free := d.named.filter fun a => s.arrayEnabled tile a && !s.arrayHeld tile a
  if free.isEmpty then d.named.filter (s.arrayDraining tile ·) else free

/-- Start the next phase where nothing stops it: at a group boundary the serving arrays are chosen first. -/
def State.startPhase (s : State) (tile : Nat) : State :=
  match (s.mtx tile).cmd with
  | none => s
  | some c =>
    if c.status.isSome || c.running || (s.mtx tile).pause || s.cap.hold then s
    else if c.chunk != 0 then s.modMtxCmd tile fun c => { c with running := true }
    else
      let d := parseM c.desc
      match s.groupArrays tile d with
      | [] => s
      | l =>
        let l := l.take (min 4 (d.blocks - c.nb))
        let s := (List.range 4).foldl (fun (s : State) a => if s.arrayDraining tile a && !l.contains a then s.arrayDrained tile a else s) s
        s.modMtxCmd tile fun c => { c with running := true, serving := l, served := l.foldl (fun v a => bput v a true) c.served }

/-- The engine takes the head of its queues when `want` accepts its op (R297, R298). -/
def State.matrixTake (s : State) (tile : Nat) (want : Nat → Bool) : State :=
  let m := s.mtx tile
  let on (t : Nat) : Bool := (List.range 4).any (s.arrayEnabled t)
  if m.cmd.isSome || m.pause || !on tile then s
  else match lowestQueue (s.engineQueues 7 tile on) with
    | none => s
    | some (p, q) =>
      match (s.queue p.num q.id).oldest with
      | none => s
      | some e =>
        if !want (fieldAt (s.slotRead p q e.slot) 0 1) then s
        else match s.unitTake p q with
          | none => s
          | some (e, b, s) =>
            let b := b.take 128
            let c : MtxCmd := { part := p.num, desc := b, tag := e.tag }
            if matrixOk p tile b then (s.modMtx tile fun m => { m with cmd := some c }).startPhase tile
            else (s.modMtx tile fun m => { m with cmd := some { c with status := some 4 } }).reportDesc 4 p.num 2 (4 * tile) (q.slotAddr e.slot) q.id e.tag

/-- The value an accumulator starts from (R282): 0, or the accumulator input. -/
def State.accStart (s : State) (p : Part) (tile : Nat) (d : MDesc) (t n : Nat) : Nat :=
  if d.op == 2 then leNat (s.gRead p tile (d.acc + t * d.accs + 4 * n) 4) else 0

/-- The operand bytes that the phase reads meet an uncorrectable unit (R300, R351). -/
def State.phaseBad (s : State) (p : Part) (tile : Nat) (d : MDesc) (c : MtxCmd) (ks : List Nat) : Bool :=
  let ts := (List.range (d.tokens c.tb)).map (· + 64 * c.tb)
  let ns := d.outs c.nb c.serving.length
  let seg (a stride f : Nat) (tr : Bool) (j : Nat) : Bool :=
    if tr then ks.any fun k => s.gBad p tile (a + k * stride + opBytes f j) 1
    else s.gBad p tile (a + j * stride + opBytes f (ks.headD 0)) (opBytes f ks.length)
  ts.any (seg d.xa d.xs d.xf (d.flag 0)) || ns.any (seg d.wa d.ws d.wf (d.flag 1)) ||
    (c.chunk == 0 && d.op == 2 && ts.any fun t => s.gBad p tile (d.acc + t * d.accs + 4 * ns.headD 0) (4 * ns.length)) ||
    (c.chunk + 1 == d.chunks && ((d.flag 2 && s.gBad p tile (d.bias + 4 * ns.headD 0) (4 * ns.length)) ||
      (d.flag 5 && s.gBad p tile (d.xe + 64 * c.tb) ts.length) || (d.flag 6 && s.gBad p tile (d.we + ns.headD 0) ns.length)))

/-- Stack units that the phase's operand reads cost (R510): weights that stay resident (R285) are read in the first token block only. -/
def phaseUnits (tile : Nat) (d : MDesc) (c : MtxCmd) (ks : List Nat) : Nat :=
  let ts := (List.range (d.tokens c.tb)).map (· + 64 * c.tb)
  let ns := d.outs c.nb c.serving.length
  let seg (a stride f : Nat) (tr : Bool) (j : Nat) : Nat :=
    if tr then 0 else gUnits tile (a + j * stride + opBytes f (ks.headD 0)) (opBytes f ks.length)
  let resident := c.tb > 0 && d.blocks ≤ c.serving.length && d.chunks ≤ 2
  let opt (a n : Nat) : Nat := if a == 0 then 0 else gUnits tile a n
  (ts.map (seg d.xa d.xs d.xf (d.flag 0))).sum + (if resident then 0 else (ns.map (seg d.wa d.ws d.wf (d.flag 1))).sum) +
    (if c.chunk == 0 && d.op == 2 then (ts.map fun t => gUnits tile (d.acc + t * d.accs + 4 * ns.headD 0) (4 * ns.length)).sum else 0) +
    (if c.chunk + 1 == d.chunks then
      (if d.flag 2 then opt (d.bias + 4 * ns.headD 0) (4 * ns.length) else 0) + (if d.flag 5 then opt (d.xe + 64 * c.tb) ts.length else 0) +
        (if d.flag 6 then opt (d.we + ns.headD 0) ns.length else 0)
     else 0)

/-- Run the sums of the phase. -/
def State.phaseSums (s : State) (p : Part) (tile : Nat) (d : MDesc) (c : MtxCmd) (ks : List Nat) : SMap Nat :=
  let ts := List.range (d.tokens c.tb)
  let ns := d.outs c.nb c.serving.length
  let ws := ns.map fun n => (n, ks.map (s.wElem p tile d n))
  ts.foldl (fun (acc : SMap Nat) t =>
    let x := ks.map (s.xElem p tile d (64 * c.tb + t))
    ws.foldl (fun (acc : SMap Nat) (w : Nat × List Nat) =>
      let key := t * 65536 + w.1
      let a0 := if c.chunk == 0 then s.accStart p tile d (64 * c.tb + t) w.1 else SMap.get acc 0 key
      SMap.set acc 0 key (d.accumulate a0 x w.2)) acc) c.acc

/-! ### The output stage (R294–R296) -/

/-- v of R294 before its scale. -/
def State.outValue (s : State) (p : Part) (tile : Nat) (d : MDesc) (acc t n : Nat) : Nat :=
  let ex : Int := if d.flag 5 then byteInt (leNat (s.gRead p tile (d.xe + t) 1)) else 0
  let ew : Int := if d.flag 6 then byteInt (leNat (s.gRead p tile (d.we + n) 1)) else 0
  let v := if d.isInt then fofInt fp32 (signedOf 32 acc) (ex + ew) else scale32 acc (ex + ew)
  let v := if d.flag 2 then add32 v (leNat (s.gRead p tile (d.bias + 4 * n) 4)) else v
  if d.flag 3 && !fisNan fp32 v && v.testBit 31 then f32zero else v

/-- The limit q of a Y format. -/
def yLimit (f : Nat) : Nat := match f with | 3 => 127 | 4 => 7 | 5 => 448 | _ => 57344

/-- The exponent of a group (R295). -/
def groupExp (f : Nat) (vs : List Nat) : Int :=
  let l := vs.map (fdecode fp32)
  if l.any fun v => match v with | .inf _ => true | _ => false then 127 else scaleOf (yLimit f) (largest l)

/-- A converted element with whether it was clamped and whether it came of a NaN or is one. -/
structure Conv where
  bits : Nat
  clamped : Bool
  nan : Bool
  deriving DecidableEq, Repr

/-- The conversion of v × 2^(−e) (R296). -/
def convertY (f : Nat) (sat : Bool) (v : Nat) (e : Int) : Conv :=
  let x := (fdecode fp32 v).scale (-e)
  let ints (q : Int) (w : Nat) : Conv :=
    match x with
    | .nan _ => ⟨0, false, true⟩
    | .inf n => ⟨unsignedOf w (if n then -q else q), true, false⟩
    | .fin n m k =>
      let i := (fintV .rne n m k).1
      ⟨unsignedOf w (max (-q) (min q i)), decide (i > q) || decide (i < -q), false⟩
  let fp8 (g : Fmt) : Conv :=
    match x with
    | .nan _ => ⟨0x7F, false, true⟩
    | .inf n => if sat then ⟨g.top + (if n then g.signBit else 0), true, false⟩ else if g.ieee then ⟨g.infBits + (if n then g.signBit else 0), false, false⟩
                else ⟨0x7F, false, true⟩
    | .fin n m k =>
      let r := fround g .rne n m k
      if r.2.of then
        (if sat then ⟨g.top + (if n then g.signBit else 0), true, false⟩ else if g.ieee then ⟨g.infBits + (if n then g.signBit else 0), false, false⟩
         else ⟨0x7F, false, true⟩)
      else ⟨r.1, false, false⟩
  match f with
  | 3 => ints 127 8
  | 4 => ints 7 4
  | 5 => fp8 e4m3
  | 6 => fp8 e5m2
  | 2 => match x with | .nan _ => ⟨0x7FC0, false, true⟩ | y => ⟨(fencode bf16 .rne y).1, false, false⟩
  | _ => match x with | .nan _ => ⟨0x7FC00000, false, true⟩ | y => ⟨(fencode fp32 .rne y).1, false, false⟩

/-- The bytes of a run of converted elements of a Y row that starts at an even output. -/
def yRow (f : Nat) (l : List Nat) : Bytes :=
  match f with
  | 0 | 1 => (l.map (toLE 4)).flatten
  | 2 => (l.map (toLE 2)).flatten
  | 4 => (List.range (ceilDiv l.length 2)).map fun i => BitVec.ofNat 8 (nth l (2 * i) 0 + 16 * nth l (2 * i + 1) 0)
  | _ => l.map (BitVec.ofNat 8 ·)

/-- Write the Y elements of some outputs of a token with their exponents, and count. -/
def State.drainToken (s : State) (p : Part) (tile : Nat) (d : MDesc) (acc : SMap Nat) (tb t : Nat) (ns : List Nat) (exps : Nat → Int) : State :=
  let tok := 64 * tb + t
  let vals : List Conv := ns.map fun n =>
    let a := SMap.get acc 0 (t * 65536 + n)
    if d.yf == 0 then ⟨a, false, !d.isInt && fisNan fp32 a⟩
    else convertY d.yf (d.flag 4) (s.outValue p tile d a tok n) (exps n)
  let at_ := d.ya + tok * d.ys + yBytes d.yf (ns.headD 0)
  let row := yRow d.yf (vals.map fun v => v.bits)
  let tag := ((s.mtx tile).cmd.map (·.tag)).getD 0x100
  let s := (s.gWrite p tile at_ row).charge tag p.num 2 (gUnits tile at_ row.length)
  s.modMtxCmd tile fun c => { c with clamped := c.clamped + (vals.filter fun v => v.clamped).length, nans := c.nans + (vals.filter fun v => v.nan).length }

/-- Drain outputs of the token block through the output stage (R294, R295). -/
def State.drainGroup (s : State) (p : Part) (tile : Nat) (d : MDesc) (acc : SMap Nat) (tb : Nat) (ns : List Nat) : State :=
  let ts := List.range (d.tokens tb)
  let val (t n : Nat) : Nat := s.outValue p tile d (SMap.get acc 0 (t * 65536 + n)) (64 * tb + t) n
  match d.mode with
  | 1 =>
    let es := ts.map fun t => groupExp d.yf (ns.map (val t))
    let s := s.gWrite p tile (d.ye + 64 * tb) (es.map intByte)
    ts.foldl (fun (s : State) t => s.drainToken p tile d acc tb t ns fun _ => nth es t 0) s
  | 2 =>
    let es := ns.map fun n => groupExp d.yf (ts.map fun t => val t n)
    let s := s.gWrite p tile (d.ye + ns.headD 0) (es.map intByte)
    ts.foldl (fun (s : State) t => s.drainToken p tile d acc tb t ns fun n => nth es (n - ns.headD 0) 0) s
  | _ => ts.foldl (fun (s : State) t => s.drainToken p tile d acc tb t ns fun _ => d.shift) s

/-- Set a descriptor's final status; its arrays stop, and their drains end (R311). -/
def State.endMatrix (s : State) (tile st : Nat) : State :=
  (s.modMtxCmd tile fun c => { c with status := some st, running := false, acc := [] }).endDrains tile

/-- The running phase ends (R283): its sums, and at the last chunk the group's drain; then the next phase. -/
def State.phaseEnd (s : State) (tile : Nat) : State :=
  match (s.mtx tile).cmd with
  | none => s
  | some c =>
    match s.part? c.part with
    | none => s
    | some p =>
      if !c.running || c.status.isSome then s
      else
        let d := parseM c.desc
        let ks := (List.range d.kappa).filterMap fun i => if d.kappa * c.chunk + i < d.k then some (d.kappa * c.chunk + i) else none
        if s.phaseBad p tile d c ks then s.endMatrix tile 7
        else
          let acc := s.phaseSums p tile d c ks
          let ns := d.outs c.nb c.serving.length
          let macs := d.tokens c.tb * ns.length * ks.length
          let (free, s) := s.takeFree
          let s := s.charge c.tag p.num 2 (phaseUnits tile d c ks)
          let s := s.modMtx tile fun m => { m with macCnt := m.macCnt + BitVec.ofNat 64 macs, busyCyc := m.busyCyc + free.setWidth 32 }
          let s := s.modMtxCmd tile fun c => { c with acc := acc, macs := c.macs + macs, running := false }
          if c.chunk + 1 < d.chunks then (s.modMtxCmd tile fun c => { c with chunk := c.chunk + 1 }).startPhase tile
          else
            let nb := c.nb + c.serving.length
            let lastGroup := nb ≥ d.blocks
            -- scale mode 1 needs every output of its tokens: a token block that takes two groups drains at the second
            let s := if d.mode == 1 then (if lastGroup then s.drainGroup p tile d acc c.tb (List.range d.n) else s)
              else s.drainGroup p tile d acc c.tb ns
            let keep := d.mode == 1 && !lastGroup
            if !lastGroup then (s.modMtxCmd tile fun c => { c with chunk := 0, nb := nb, acc := if keep then c.acc else [] }).startPhase tile
            else if 64 * (c.tb + 1) < d.t then (s.modMtxCmd tile fun c => { c with chunk := 0, nb := 0, tb := c.tb + 1, acc := [] }).startPhase tile
            else s.endMatrix tile 0

/-- A completion record (R299); the timing fields are free. -/
def MtxCmd.record (c : MtxCmd) (st : Nat) (cycles stall hold : BitVec 32) : Bytes :=
  let s4 (n : Nat) : Bytes := toLE 4 (min n (2 ^ 32 - 1))
  toLE 1 st ++ [0] ++ slice c.desc 0x66 2 ++ toLE 1 c.served.toNat ++ zeros 3 ++ toLE 4 cycles.toNat ++ toLE 4 stall.toNat ++ toLE 4 hold.toNat ++
    s4 c.clamped ++ s4 c.nans ++ zeros 4

/-- The completion is posted (R298, R299, R302); while its queue is full it waits. -/
def State.matrixComplete (s : State) (tile : Nat) : State :=
  match (s.mtx tile).cmd with
  | none => s
  | some c =>
    match c.status, s.part? c.part with
    | some st, some p =>
      let d := parseM c.desc
      let q := (p.queueDef? d.queue).filter fun q => q.kind == 3 && q.bytes ≥ 32
      if q.any fun q => s.queueFull p.num q then s
      else
        let (f1, s) := s.takeFree
        let (f2, s) := s.takeFree
        let (f3, s) := s.takeFree
        let (f4, s) := s.takeFree
        let s := match q with
          | some q => s.post p q (c.record st (f1.setWidth 32) (f2.setWidth 32) (f3.setWidth 32) ++ zeros (q.bytes - 32)) c.tag none none
          | none => s
        let s := s.chargeMacs c.tag p.num (match st with | 0 => d.t * d.n * d.k | 6 => c.macs | _ => 0)
        let bit : Option Nat := match st with | 4 => some 0 | 6 => some 1 | 7 => some 2 | _ => none
        s.modMtx tile fun m =>
          { m with cmd := none, descCnt := m.descCnt + 1, busyCyc := m.busyCyc + f4.setWidth 32,
                   stallCyc := m.stallCyc + f2.setWidth 32, holdCyc := m.holdCyc + f3.setWidth 32,
                   err := match bit with | some b => bput m.err b true | none => m.err }
    | _, _ => s

/-! ### Fences (R310–R312) -/

/-- Hard-fence an array: a descriptor it serves ends FAILED. -/
def State.hardFenceArray (s : State) (tile a : Nat) : State :=
  let serves := s.arrayServes tile a
  let s := s.modMtx tile fun m => { m with hard := bput m.hard a true, draining := bput m.draining a false, drainAt := m.drainAt.set 0 a 0 }
  if serves then s.endMatrix tile 6 else s

/-- An array comes to be held: it drains when it serves a descriptor, and is fenced at once otherwise (R311). -/
def State.drainArray (s : State) (tile a : Nat) : State :=
  if s.arrayServes tile a then
    if (s.tile tile).limitUs == 0 then s.hardFenceArray tile a
    else s.modMtx tile fun m => { m with draining := bput m.draining a true, drainAt := m.drainAt.set 0 a s.time.up }
  else s.modMtx tile fun m => { m with hard := bput m.hard a false }

/-- Set an array's management bit (R311). -/
def State.fenceArray (s : State) (tile a : Nat) : State :=
  let held := s.arrayHeld tile a
  let s := s.arrayBits tile a fun s => s.modTile tile fun t => { t with array := bput t.array a true }
  if held then s else s.drainArray tile a

/-- An array may serve again when nothing holds it: a drain ends, or a fence does, and a waiting descriptor goes on (R310, R314). -/
def State.releaseArray (s : State) (tile a : Nat) : State :=
  if s.arrayHeld tile a then s
  else if s.arrayDraining tile a then s.modMtx tile fun m => { m with draining := bput m.draining a false, drainAt := m.drainAt.set 0 a 0 }
  else s.startPhase tile

/-- Clear an array's management bit (R310, R314, R595). -/
def State.unfenceArray (s : State) (tile a : Nat) : State :=
  if !(s.tile tile).array.getLsbD a then s
  else
    (s.arrayBits tile a fun s => s.modTile tile fun t => { t with array := bput t.array a false }).releaseArray tile a

/-- FORCE for an array (R311, R313): only with its TILE_FENCE.ARRAY bit set. -/
def State.forceArray (s : State) (tile a : Nat) : State :=
  if !(s.tile tile).array.getLsbD a || s.underTest 2 (arrayUnit tile a) then s
  else s.hardFenceArray tile a

/-- The drain limit of an array passes (R311). -/
def State.arrayLimit (s : State) (tile a : Nat) : State :=
  if !s.arrayDraining tile a then s
  else (s.advanceTo ((s.mtx tile).drainAt.get 0 a + (s.tile tile).limitUs.toNat * 1000)).hardFenceArray tile a

/-- Set MTX_CTRL.PAUSE (R314). -/
def State.setMtxPause (s : State) (tile : Nat) (on : Bool) : State :=
  (s.modMtx tile fun m => { m with pause := on }).startPhase tile

/-- ASTATE of an array (R313). -/
def State.arrayState (s : State) (tile a : Nat) : Nat :=
  if !s.arrayEnabled tile a then 0
  else if s.arrayDraining tile a then 3
  else if s.flt.running.any (fun q => q.kind == 2 && q.unit.toNat == arrayUnit tile a) then 5
  else if s.arrayHeld tile a then 4
  else if s.arrayServes tile a then 2 else 1

end Sys2Proof.Machine
end

