-- ==== Sys2Proof/Machine/Carriers.lean ====
section
/-! DEFINITION. Sys2Proof/Machine/Carriers.lean: the carrier set: identity, formation, removal, loss, adoption and rebuild, the media's own
failures, and what restarts with storage (R386–R390, R400–R402, R425–R434, R631, R668). -/
namespace Sys2Proof.Machine

/-- Read an identity record (R386); none for one that cannot be read, or whose magic or version is wrong. -/
def parseIdent (r : Option Bytes) : Option Ident :=
  match r with
  | none => none
  | some b =>
    if fieldAt b 0 4 != 0x4449434B || fieldAt b 4 2 != 1 then none
    else
      some { targets := fieldAt b 6 2, ordering := slice b 8 16, serial := BitVec.ofNat 64 (fieldAt b 0x18 8), setId := BitVec.ofNat 64 (fieldAt b 0x20 8),
             position := BitVec.ofNat 8 (fieldAt b 0x28 1), format := stampAt b 0x2C, dieCmds := slice b 0x40 64, retry := slice b 0x80 64 }

/-- A blank carrier (R386). -/
def Ident.blank (i : Ident) : Bool := i.setId == 0

/-- Report a carrier error (R588): its serial number and its state. -/
def State.reportCarrier (s : State) (c cause action : Nat) : State :=
  let k := s.carrier c
  s.report { cls := 0x0A, cause := cause, action := action, kind := 6, unit := c, loc := (k.ident.map (·.serial.toNat)).getD 0, detail := k.state.code }

/-- Record a carrier state change of captured partitions (R608). -/
def State.carEvent (s : State) (c : Nat) : State := s.caskEvent 0xFF 5 [BitVec.ofNat 8 c, BitVec.ofNat 8 (s.carrier c).state.code]

/-- A carrier enters a state; its blue light after a forced removal ends (R664). -/
def State.setCar (s : State) (c : Nat) (st : CarState) : State :=
  let s := { s with mod := { s.mod with forcedBlue := bput s.mod.forcedBlue c false } }
  (s.modCarrier c fun k => { k with state := st }).carEvent c

/-- Kc_PWR_EN. -/
def State.setEn (s : State) (c : Nat) (on : Bool) : State :=
  { (s.modCarrier c fun k => { k with pwrEn := on, pgood := k.pgood && on }) with mod := { s.mod with kEn := bput s.mod.kEn c on } }

/-- Bring FLS_STATUS.STATE into line with the members (R432); a second missing position fails storage (R434). -/
def State.settleStorage (s : State) : State :=
  if !s.storageUp then s
  else match s.memberState with
    | .failed => s.failStorage
    | st => { s with fls := { s.fls with state := st } }

/-- Close and program as many stripes of a stream as `n` (R394). -/
def State.closeSome (s : State) (st : Stream) (c : Nat) : Nat → State
  | 0 => s
  | n + 1 =>
    if (s.oldestStaged st c).isNone then s
    else
      let s' := s.closeStripe st
      State.closeSome s' st c n

/-- Start the programs of every staged page homed on a carrier, in degraded stripes (R428 step 2, R430). -/
def State.flushCarrier (s : State) (c : Nat) : State :=
  [Stream.steep, .hot, .cold].foldl (fun s st => s.closeSome st c (s.stagedOn c)) s

/-- Programs in progress run to their end (R428 step 2). -/
def State.endPrograms (s : State) : State :=
  (s.media.stripes.filter (·.2.programming)).foldl (fun s e => s.stripePassed e.1 e.2) s

/-! ### Lauter reads and a missing carrier -/

/-- Change every lauter read not yet delivered that satisfies `p`. -/
def State.mapReads (s : State) (p : Nat → Bool) (f : PageRead → PageRead) : State :=
  { s with fls := { s.fls with cmds := s.fls.cmds.map fun c =>
      { c with reads := c.reads.map fun r => if r.got.isNone && p r.key then f r else r } } }

/-- Reads in progress on a carrier are restarted as stripe rebuilds (R430, R432). -/
def State.rebuildReads (s : State) (c : Nat) : State := s.mapReads (fun k => homeOf k == c) fun r => { r with step := 9, rebuilding := true }

/-! ### Removal and loss (R428–R432) -/

/-- A refusal shows on the carrier's LEDs for 3 s (R664). -/
def State.showRefusal (s : State) (c : Nat) : State :=
  { s with mod := { s.mod with refuseUntil := s.mod.refuseUntil.set 0 c (s.time.up + 3000000000) } }

/-- Power a carrier off and take it out of the set as safe to remove. -/
def State.takeOut (s : State) (c : Nat) : State :=
  (((s.departed c).setEn c false).setCar c .safe).settleStorage

/-- REQUEST_REMOVAL (R428): granted only when the carrier and every other carrier are online. Its four steps, which take at most 50 ms, are
one step of the model (assumption 36). -/
def State.requestRemoval (s : State) (c : Nat) : State :=
  if s.storageUp && s.onlineCount == 8 then
    let s := s.setCar c .removal
    let s := (s.rebuildReads c).modCarrier c fun k => { k with state := .safe }
    let s := (s.flushCarrier c).endPrograms
    s.takeOut c
  else s.showRefusal c

/-- FORCE_REMOVAL (R429): at once, whatever the other carriers do. The carrier reads safe to remove (assumption 36). -/
def State.forceRemoval (s : State) (c : Nat) : State :=
  match (s.carrier c).state with
  | .online | .rebuilding | .removal =>
    let s := (s.rebuildReads c).takeOut c
    { (s.flushCarrier c) with mod := { s.mod with forcedBlue := bput s.mod.forcedBlue c true } }
  | _ => s

/-- CANCEL_REMOVAL (R428): a pending or safe carrier that is still seated powers up again, to rebuild by delta. -/
def State.cancelRemoval (s : State) (c : Nat) : State :=
  match (s.carrier c).state with
  | .removal | .safe => if (s.carrier c).present then (s.setEn c true).setCar c .powering else s
  | _ => s

/-- A carrier is lost (R430). -/
def State.loseCarrier (s : State) (c : Nat) (st : CarState) : State :=
  match (s.carrier c).state with
  | .online | .rebuilding | .removal =>
    let s := ((s.departed c).setEn c false).setCar c st
    let s := s.rebuildReads c
    let drop (e : Nat × Stripe) : Bool := e.2.programming
    let s := { s with media := { s.media with stripes := s.media.stripes.filter (!drop ·) } }
    let s := (s.countErr 13).flsErr 6
    let next (s : State) : State := (s.settleStorage).flushCarrier c
    next (s.reportCarrier c 6 (s.actionBits (next s)))
  | _ => s

/-! ### The media's own failures (R400, R402) -/

/-- Channel of the carrier, target, plane and block within the plane of a stripe block (R389). -/
def State.blockAt (s : State) (b : Nat) : Nat × Nat × Nat × Nat :=
  (b / (s.targets * 4 * 1490) % 4, b / (4 * 1490) % s.targets, b / 1490 % 4, b % 1490)

/-- Report a failure of a member block (R588): its physical block, and its die and plane. -/
def State.reportBlock (s : State) (cause c b : Nat) : State :=
  let (ch, t, pl, _) := s.blockAt b
  s.report { cls := 0x09, cause := cause, kind := 5, unit := 4 * c + ch, loc := b, detail := t + 256 * pl }

/-- Storage becomes read-only (R402): updates whose record is not staged yet are answered FAILED. -/
def State.goReadOnly (s : State) : State :=
  if s.media.readOnly then s
  else
    let s := ({ s with media := { s.media with readOnly := true } }).settleStorage
    s.reportThen { cls := 0x0F, cause := 0, action := 8, kind := 10 } fun s =>
      let flashParts := (s.grist.parts.filter Part.ownsFlash).map (·.num)
      let ups := s.srch.updates.filter fun u => flashParts.contains u.part && u.adds && u.rec_.isNone
      let s := ups.foldl (fun s u => s.endUpdate u stFailed) s
      let qs := s.req.reqs.filter fun r => flashParts.contains r.part && (rqKind r.data == 3 || rqKind r.data == 4) && (r.place == .queued)
      qs.foldl (fun s r => s.plainAnswer r.id stFailed) s

/-- A member block is taken out of use and a spare one takes its place (R389, R400). -/
def State.spendSpare (s : State) (c b : Nat) : State :=
  let s := { s with media := { s.media with badBlocks := insNat s.media.badBlocks (b * 8 + c), spareUsed := s.media.spareUsed + 1,
                                            wear := s.media.wear.set 0 (b * 8 + c) 0, weak := s.media.weak.set 0 (b * 8 + c) 0 } }
  let s := s.modCarrier c fun k => { k with retired := k.retired + 1 }
  if s.spareLeft == 0 then s.goReadOnly else s

/-- A stripe program ends (R394, R400): with failing positions, their member blocks are remapped and the pages, still staged, go into another
stripe. -/
def State.programDone (s : State) (id : Nat) (failing : List Nat) : State :=
  match s.media.stripes.find? (·.1 == id) with
  | none => s
  | some (_, v) =>
    if !v.programming then s
    else if failing.isEmpty then s.stripePassed id v
    else
      let s := { s with media := { s.media with stripes := s.media.stripes.filter (·.1 != id) } }
      failing.foldl (fun s c => (((s.countErr 6).flsErr 1).reportBlock 1 c v.block).spendSpare c v.block) s

/-- A block erase ends (R398–R400): wear is counted, failing and weak member blocks are retired, and the stripe block is free. -/
def State.eraseDone (s : State) (b : Nat) (failing : List Nat) : State :=
  match s.block? b with
  | none => s
  | some v =>
    if !v.erasing then s
    else
      let u := if v.oneBit then 1 else 8
      let there := (List.range 8).filter fun c => !s.posMissing c
      let s := { s with media := { s.media with blocks := s.media.blocks.filter (·.1 != b) }, fls := { s.fls with eraseCnt := s.fls.eraseCnt + BitVec.ofNat 32 there.length } }
      let s := there.foldl (fun s c =>
        let weak := s.media.weak.get 0 (b * 8 + c) ≥ 3
        let s := { s with media := { s.media with wear := s.media.wear.modify 0 (b * 8 + c) (· + u), weak := s.media.weak.set 0 (b * 8 + c) 0 } }
        let s := s.modCarrier c fun k => { k with erased := k.erased + 1 }
        if failing.contains c then (((s.countErr 7).flsErr 2).reportBlock 2 c b).spendSpare c b
        else if weak then s.spendSpare c b else s) s
      s.changedBlock b

/-- A die operation times out (R400); the third fails the die, and a channel without dies loses its carrier. -/
def State.dieTimeout (s : State) (ch t : Nat) : State :=
  let die := ch * 16 + t
  if s.media.failedDies.contains die then s
  else
    let n := s.media.timeouts.get 0 die + 1
    let s := { s with media := { s.media with timeouts := s.media.timeouts.set 0 die n } }
    if n < 3 then s
    else
      let c := ch / 4
      let s := { s with media := { s.media with failedDies := insNat s.media.failedDies die } }
      let s := (s.countErr 8).flsErr 3
      let s := s.report { cls := 0x09, cause := 3, kind := 5, unit := ch, detail := t }
      let onDie (b : Nat) : Bool := let (bc, bt, _, _) := s.blockAt b; bc == ch % 4 && bt == t
      let used := (s.media.blocks.map (·.1)).filter onDie
      let s := s.mapReads (fun k => homeOf k == c && ((s.blockOf k).map onDie).getD false) fun r => { r with step := 9, rebuilding := true }
      let s := used.foldl (fun s b => s.spendSpare c b) s
      if (List.range s.targets).all fun i => s.media.failedDies.contains (ch * 16 + i) then
        let s := ((s.modFlashCh ch fun k => { k with failed := true }).countErr 9).flsErr 4
        let s := s.report { cls := 0x09, cause := 4, kind := 5, unit := ch }
        s.loseCarrier c .lost
      else s

/-! ### Storage forms (R387, R631 steps 2 and 3, R636, R668) -/

/-- The latest rack time that the durable forms hold (R668): the journal trail and tail, the flush stamp and the set's format stamp. -/
def State.durableFloor (s : State) (format : Stamp) : Nat :=
  let recs := s.dur.journal.filter (·.inTrail)
  let js := recs.map fun r => max r.stamp.time.toNat ((r.sealed.map (·.time.toNat)).getD 0)
  (js.foldl max 0 |> max format.time.toNat) |> max (match s.dur.flushed with | some _ => s.pwrKept.stamp.time.toNat | none => 0)

/-- What the system area gives back when storage forms (R636). -/
def State.loadKept (s : State) : State :=
  let k := s.pwrKept
  let h := s.media.hist.foldl (fun m (e : Nat × Nat) => m.modify 0 e.1 (max e.2)) s.mod.hist
  { s with pwr := { s.pwr with flushCnt := k.cnt, last := k.last, lastUs := k.us, lastMib := k.mib, flushStamp := k.stamp }, mod := { s.mod with hist := h } }

/-- The flush area is examined (R631 step 2): a valid end record gives the tail and the staged pages back, which the model keeps in place;
records without one mean an incomplete flush, whose tail and staged pages are gone. -/
def State.readFlushArea (s : State) : State :=
  match s.dur.flushed with
  | none => s
  | some (_, true) => { s with dur := { s.dur with flushed := none, journal := s.dur.journal.map fun r => { r with inTrail := true, sealTrail := r.sealTrail || r.sealed.isSome } } }
  | some (_, false) => { s with pwr := { s.pwr with errIncomplete := true } }

/-- The temperature history in an identity record (R386, R423): two sensors of 64 counts of 4 bytes. -/
def recordHist (b : Bytes) : SMap Nat :=
  (List.range 128).foldl (fun m i => m.set 0 i (fieldAt b (0xC0 + 4 * i) 4)) []

/-- A carrier's stored histories become the counted ones of its two sensors. -/
def State.loadCarHist (s : State) (c : Nat) (h : SMap Nat) : State :=
  let lo := (27 + 2 * c) * 64
  { (s.modCarrier c fun k => { k with hist := h }) with
    mod := { s.mod with hist := h.foldl (fun m (e : Nat × Nat) => m.set 0 (lo + e.1) e.2) (s.mod.hist.without lo (lo + 128)) } }

/-- Storage comes up with a member state. -/
def State.storageForms (s : State) (st : FlsState) (format : Stamp) : State :=
  let s := { s with fls := { s.fls with state := st, reason := 0, decided := true } }
  ((s.setFloor (s.durableFloor format)).loadKept).readFlushArea

/-- Storage does not come up (R387). -/
def State.storageDown (s : State) (reason : Nat) : State :=
  ({ s with fls := { s.fls with state := .down, reason := BitVec.ofNat 4 reason, decided := true } }).setFloor 0

/-- A carrier is refused and powered off (R425, R426). -/
def State.refuseCar (s : State) (c : Nat) (foreign : Bool) : State :=
  (((s.setEn c false).setCar c .refused).modCarrier c fun k => { k with foreign := foreign }).reportCarrier c 0 0

/-- The channels of a carrier are trained and calibrated (R385). -/
def State.trainChannels (s : State) (c : Nat) : State :=
  (List.range 4).foldl (fun s i => s.modFlashCh (4 * c + i) fun k =>
    { k with failed := false, trained := true, calDue := false, calLate := false, lastCal := s.time.up, calTemp := s.mod.now.get 0 (27 + 2 * c) }) s

/-- A carrier becomes the target of a rebuild (R433). -/
def State.startRebuild (s : State) (c : Nat) (delta : Bool) : State :=
  let all := (s.media.blocks.map (·.1)).foldl insNat []
  let s := s.modCarrier c fun k =>
    { k with todo := if delta then k.changed else all, total := if delta then k.changed.length else all.length, delta := delta, doneBytes := 0,
             doneAt := s.time.up, leftSerial := none, changed := [], foreign := false }
  (s.setCar c .rebuilding).settleStorage

/-- Write the set's identity into a carrier (R426, R427). -/
def State.writeIdent (s : State) (c : Nat) : State :=
  let fmt := ((s.carriers.filterMap fun e => e.2.ident).find? fun i => i.setId == s.media.setId && !i.blank).map (·.format)
  s.modCarrier c fun k => { k with ident := k.ident.map fun i =>
    { i with setId := s.media.setId, position := BitVec.ofNat 8 c, format := fmt.getD i.format } }

/-- The carriers that formation looks at: powered and identified or found unidentified. -/
def State.found (s : State) : List (Nat × Carrier) := s.carriers.filter fun e => e.2.state == .identifying

/-- SET_FORMATION (R387). -/
def State.setFormation (s : State) : State :=
  let f := s.found
  let ids := f.filterMap fun e => e.2.ident.map fun i => (e.1, i)
  let formatted := ids.filter fun e => !e.2.blank
  match ids with
  | [] => if f.isEmpty then s.storageDown 3 else (f.foldl (fun s e => s.refuseCar e.1 false) s).storageDown 4
  | (_, i0) :: _ =>
    if f.any (·.2.ident.isNone) then ((f.filter (·.2.ident.isNone)).foldl (fun s e => s.refuseCar e.1 false) s).storageDown 4
    else if ids.any (·.2.ordering != i0.ordering) then s.storageDown 1
    else if formatted.any (fun e => formatted.any fun g => g.2.setId != e.2.setId) then s.storageDown 2
    else
      let s := (formatted.filter fun e => e.2.position.toNat != e.1).foldl (fun s e => s.refuseCar e.1 false) s
      let members := formatted.filter fun e => e.2.position.toNat == e.1
      let blanks := ids.filter (·.2.blank)
      if blanks.length == 8 then
        if !s.time.lockedOnce then
          { (s.setFloor 0) with fls := { s.fls with state := .forming, reason := 0 } }
        else
          let s := s.setFloor 0
          let (st, s) := s.takeStamp
          let s := { s with media := { setId := st.time, ordering := i0.ordering }, dur := {} }
          let s := (List.range 8).foldl (fun s c => (s.modCarrier c fun k => { k with ident := k.ident.map fun i =>
            { i with setId := st.time, position := BitVec.ofNat 8 c, format := st } }).setCar c .online) s
          s.storageForms .ready st
      else if members.length < 7 then s.storageDown 3
      else
        match members with
        | [] => s.storageDown 3
        | (_, m) :: _ =>
          let s := if s.media.setId == m.setId then s else { s with media := { setId := m.setId, ordering := m.ordering }, dur := {} }
          let s := members.foldl (fun s e => s.setCar e.1 (if (s.carrier e.1).todo.isEmpty then .online else .rebuilding)) s
          let s := s.storageForms (if s.media.readOnly then .readOnly else if members.length == 8 then .ready else .degraded) m.format
          let s := (members.foldl (fun s e => s.modCarrier e.1 fun k => { k with doneAt := s.time.up }) s).settleStorage
          blanks.foldl (fun s e => (s.writeIdent e.1).startRebuild e.1 false) s

/-- A carrier's slot position is missing from the set. -/
def State.slotMissing (s : State) (c : Nat) : Bool :=
  match (s.carrier c).state with | .online | .rebuilding | .removal => false | _ => true

/-- CARRIER_IDENTIFIED (R426): identity, training and what becomes of the carrier. -/
def State.carrierIdentified (s : State) (c : Nat) (rec_ : Option Bytes) (trained : Bool) (store : FlashStore) : State :=
  if (s.carrier c).state != .powering then s
  else
    let id := parseIdent rec_
    let s := s.modCarrier c fun k => { k with pgood := true, ident := id, store := store }
    let s := if id.isSome then s.loadCarHist c (recordHist (rec_.getD [])) else s
    if !trained then
      let s := ((s.modFlashCh (4 * c) fun k => { k with failed := true }).countErr 9).flsErr 4
      ((s.setEn c false).setCar c .failed).report { cls := 0x09, cause := 4, kind := 5, unit := 4 * c }
    else
      let s := s.trainChannels c
      if !s.fls.decided || s.fls.state == .forming then s.setCar c .identifying
      else match id with
        | none => s.refuseCar c false
        | some i =>
          let k := s.carrier c
          if s.fls.state == .down then
            if !i.blank && i.position.toNat == c && (s.media.setId == 0 || i.setId == s.media.setId) then (s.setCar c .identifying).setFormation
            else s.refuseCar c (!i.blank)
          else if !s.storageUp then s.refuseCar c false
          else if k.leftSerial == some i.serial && i.setId == s.media.setId then s.startRebuild c true
          else
            let s := s.modCarrier c fun k => { k with leftSerial := none, changed := [] }
            if i.ordering != s.media.ordering then s.refuseCar c false
            else if i.blank then (s.writeIdent c).startRebuild c false
            else if i.setId != s.media.setId then
              if s.fls.adopt && s.fls.adoptSlot.toNat == c then
                let s := { s with fls := { s.fls with adopt := false } }
                (s.writeIdent c).startRebuild c false
              else s.refuseCar c true
            else s.refuseCar c false

/-- ARM_ADOPTION (R427). -/
def State.armAdoption (s : State) (c : Nat) : State :=
  if !(s.storageUp && s.slotMissing c) then s
  else
    let s := { s with fls := { s.fls with adopt := true, adoptSlot := BitVec.ofNat 3 c, adoptAt := s.time.up } }
    let k := s.carrier c
    if k.state == .refused && k.foreign && k.present && (k.ident.map (fun i => i.ordering == s.media.ordering)).getD false then
      let s := { s with fls := { s.fls with adopt := false } }
      ((s.setEn c true).writeIdent c).startRebuild c false
    else s

/-- Bytes of a rebuild done by now (R433). -/
def State.rebuilt (s : State) (c : Nat) : Nat :=
  let k := s.carrier c
  min (k.total * 2560 * 16384) (k.doneBytes + s.fls.mbps.toNat * (s.time.up - k.doneAt) / 1000)

/-- The rate of a rebuild changes (R437): what was done so far is kept. -/
def State.setMbps (s : State) (v : BitVec 16) : State :=
  let s := (List.range 8).foldl (fun s c =>
    if (s.carrier c).state == .rebuilding then s.modCarrier c fun k => { k with doneBytes := s.rebuilt c, doneAt := s.time.up } else s) s
  { s with fls := { s.fls with mbps := v } }

/-- REBUILD_COMPLETE (R433): at the rate in force, the last block is written and the carrier is online. -/
def State.rebuildComplete (s : State) (c : Nat) : State :=
  let k := s.carrier c
  if k.state != .rebuilding || s.fls.mbps == 0 || s.pause75 || !s.storageUp then s
  else
    let left := k.total * 2560 * 16384 - s.rebuilt c
    let s := s.advanceTo (s.time.up + ceilDiv (left * 1000) s.fls.mbps.toNat)
    let s := s.modCarrier c fun k => { k with todo := [], total := 0, doneBytes := 0 }
    (s.setCar c .online).settleStorage

end Sys2Proof.Machine
end

