-- ==== Sys2Proof/Machine/LauterOps.lean ====
section
/-! DEFINITION. Sys2Proof/Machine/LauterOps.lean: the lauter commands: dispatch, checks, the retry ladder of their pages, and results
(R403–R414). -/
namespace Sys2Proof.Machine

/-- Commands an engine holds (R409). -/
def lauterMax : Nat := 1024

/-- Is `[o, o+n)` beyond an address wholly within the place the address names (R410). -/
def Part.offsetOk (p : Part) (a o n : Nat) : Bool :=
  match dAddr a with
  | some (.tile t b) => p.owns t && 0x100000 ≤ b && b + o + n ≤ 0x400000
  | some (.pm b) => b + o + n ≤ p.memBytes
  | none => false

/-- A read or deallocate entry (R408): page and record index; none where its upper bits are not 0. -/
def readEntry (v : Nat) : Option (Nat × Nat) := if v < 2 ^ 49 then some (v % 2 ^ 40, v / 2 ^ 40) else none

/-- A write entry (R408). -/
structure WrEntry where
  page : Nat
  hint : Nat
  off : Nat
  len : Nat
  src : Nat
  deriving DecidableEq, Repr

def writeEntry (b : Bytes) : Option WrEntry :=
  let e : WrEntry := { page := fieldAt b 0 5, hint := fieldAt b 5 1, off := fieldAt b 6 2, len := fieldAt b 8 2, src := fieldAt b 12 4 }
  if e.hint ≤ 3 && e.off % 16 == 0 && 16 ≤ e.len && e.len ≤ 16384 && e.len % 16 == 0 && e.off + e.len ≤ 16384 && fieldAt b 10 2 == 0 then some e else none

/-- Bytes of a command's entry array. -/
def entryBytes (op n : Nat) : Nat := if op == 3 then 16 * n else 8 * n

/-- Bytes of a command's result block (R411). -/
def resultBytes (op n rs : Nat) : Nat := if op == 1 then 32 + 16 * n else if op == 2 then 32 + alignUp n 64 + n * rs else 32

/-- The entries of a read or deallocate command. -/
def State.readEntries (s : State) (p : Part) (d : Bytes) : List (Option (Nat × Nat)) :=
  let b := s.dRead p (fieldAt d 0x18 8) (8 * fieldAt d 4 2)
  (List.range (fieldAt d 4 2)).map fun i => readEntry (fieldAt b (8 * i) 8)

/-- The entries of a write command. -/
def State.writeEntries (s : State) (p : Part) (d : Bytes) : List (Option WrEntry) :=
  let b := s.dRead p (fieldAt d 0x18 8) (16 * fieldAt d 4 2)
  (List.range (fieldAt d 4 2)).map fun i => writeEntry (slice b (16 * i) 16)

/-- The extent and record size a command works on: RESCORE takes them from the index descriptor (R407). -/
def State.lauterPlace (s : State) (p : Part) (d : Bytes) : Option (Nat × Nat) :=
  if fieldAt d 0 1 == 1 then (s.desc? p (fieldAt d 3 1)).map fun x => (x.ext, x.recSize)
  else some (fieldAt d 0x14 2, if fieldAt d 0 1 == 2 then fieldAt d 0x16 2 else 16384)

/-- The engine serves the command (R410). -/
def State.lauterOk (s : State) (p : Part) (d : Bytes) : Bool :=
  let op := fieldAt d 0 1
  let n := fieldAt d 4 2
  let dist := fieldAt d 2 1
  let plen := fieldAt d 6 2
  let rs := fieldAt d 0x16 2
  let c := fieldAt d 1 1
  1 ≤ op && op ≤ 4 && c < 8 && 1 ≤ n && n ≤ 4096 && fieldAt d 0x38 4 != 0 &&
    (if op == 1 then
      dist ≤ 2 && fieldAt d 3 1 < 16 && plen % 16 == 0 && plen ≤ 1024 && fieldAt d 0x14 2 == 0 &&
        (match s.desc? p (fieldAt d 3 1) with
          | some x => x.kinds.testBit dist && p.regionOk (fieldAt d 0x20 8) (x.dim * elemSize x.etype)
          | none => false) &&
        (if plen > 0 then p.regionOk (fieldAt d 0x28 8) plen else fieldAt d 0x28 8 == 0)
    else dist == 0 && fieldAt d 3 1 == 0 && plen == 0 && fieldAt d 0x28 8 == 0) &&
    (op ≤ 2 || allZero (slice d 8 12)) &&
    (if op == 2 then 16 ≤ rs && rs ≤ 16384 && rs % 16 == 0 else rs == 0) &&
    (op == 1 || op == 3 || fieldAt d 0x20 8 == 0) &&
    fieldAt d 0x30 8 % 64 == 0 &&
    (match s.lauterPlace p d with
      | none => false
      | some (ext, size) =>
        match p.flashExt ext with
        | none => false
        | some x =>
          let lim := extPages x.sizeGB
          p.regionOk (fieldAt d 0x18 8) (entryBytes op n) && p.regionOk (fieldAt d 0x30 8) (resultBytes op n size) &&
            (if op == 3 then
              (s.writeEntries p d).all fun e => match e with
                | some e => e.page < lim && e.page % 8 == c && p.offsetOk (fieldAt d 0x20 8) e.src e.len
                | none => false
            else
              (s.readEntries p d).all fun e => match e with
                | some (pg, ix) => pg < lim && pg % 8 == c && (if op == 4 then ix == 0 else ix < 16384 / size)
                | none => false))

/-! ### Pages and the ladder (R403–R405) -/

/-- A distinct page as a command starts to read it. -/
def State.newRead (s : State) (k : Nat) : PageRead :=
  if (s.stagedPage k).isSome then { key := k, got := some .staging }
  else if s.media.map.get 0 k == 0 then { key := k, got := some .unmapped }
  else if s.byRebuild k then { key := k, step := 9, rebuilding := true }
  else { key := k }

/-- FAST_STEPS as it acts (FLS_LADDER): 0 acts as 8. -/
def State.fastSteps (s : State) : Nat := if s.fls.fastSteps == 0 then 8 else min 8 s.fls.fastSteps.toNat

/-- Where a page came from, as a ladder step (R422): 9 by rebuild, 10 unrecoverable. -/
def ReadFrom.stepNo : ReadFrom → Nat
  | .staging | .unmapped => 0
  | .step n => n
  | .rebuild => 9
  | .unrecoverable => 10

def State.lauterCmd? (s : State) (id : Nat) : Option LauterCmd := s.fls.cmds.find? (·.id == id)
def State.modLauter (s : State) (id : Nat) (f : LauterCmd → LauterCmd) : State :=
  { s with fls := { s.fls with cmds := s.fls.cmds.map fun c => if c.id == id then f c else c } }
def State.modRead (s : State) (id k : Nat) (f : PageRead → PageRead) : State :=
  s.modLauter id fun c => { c with reads := c.reads.map fun r => if r.key == k then f r else r }

/-- A page of a command has been delivered, or found unrecoverable. -/
def State.readGot (s : State) (id k : Nat) (g : ReadFrom) : State :=
  let s := s.modRead id k fun r => { r with got := some g, rebuilding := false }
  let c := s.lauterCmd? id
  let degrades := match c.bind (·.std) with
    | some (.rescore req _ _) => (s.query? req).isSome
    | _ => false
  let s := s.countRead k g.stepNo ((c.map (·.tag.toNat)).getD 0x100) degrades
  if s.posMissing (homeOf k) then s else s.weakCheck k g.stepNo

/-- A media read of a page ends (R403, R404): decoded, or the next step. -/
def State.pageReadDone (s : State) (id k : Nat) (decoded : Bool) : State :=
  match s.lauterCmd? id with
  | none => s
  | some c =>
    match c.reads.find? (·.key == k) with
    | none => s
    | some r =>
      if r.got.isSome || r.step > 8 then s
      else if decoded then s.readGot id k (.step r.step)
      else if r.step == 8 && r.rebuildFailed then s.readGot id k .unrecoverable
      else s.modRead id k fun r => { r with step := r.step + 1, rebuilding := !r.rebuildFailed && (r.rebuilding || r.step ≥ s.fastSteps || r.step == 8) }

/-- A stripe rebuild of a page ends (R405). -/
def State.rebuildDone (s : State) (id k : Nat) (ok : Bool) : State :=
  match s.lauterCmd? id with
  | none => s
  | some c =>
    match c.reads.find? (·.key == k) with
    | none => s
    | some r =>
      if r.got.isSome || !r.rebuilding then s
      else if ok then s.readGot id k .rebuild
      else if r.step == 9 then s.readGot id k .unrecoverable
      else s.modRead id k fun r => { r with rebuilding := false, rebuildFailed := true }

/-- A flash map page fails its CRC and is rebuilt from the spare areas of its pages (R401). -/
def State.mapPageFailed (s : State) (k : Nat) : State :=
  let m := k / mapCover
  ((s.countErr 10).flsErr 5).report { cls := 0x03, cause := 5, part := keyPart k, kind := 10, loc := m, detail := keyPage (m * mapCover) }

/-! ### Writes (R392, R407, R409) -/

/-- Apply the entries of one write or deallocate command until one has to wait for its staging buffer. -/
def State.applyEntries (s : State) (p : Part) (c : LauterCmd) : Nat → Nat → State × Nat
  | 0, i => (s, i)
  | n + 1, i =>
    let d := c.desc
    if i ≥ fieldAt d 4 2 then (s, i)
    else if fieldAt d 0 1 == 3 then
      match writeEntry (s.dRead p (fieldAt d 0x18 8 + 16 * i) 16) with
      | none => (s, i)
      | some e =>
        let k := pageKey p.num (fieldAt d 0x14 2) e.page
        if s.stagingFull k then (s, i)
        else State.applyEntries (s.stage k e.off (s.dRead p (fieldAt d 0x20 8 + e.src) e.len) e.hint) p c n (i + 1)
    else
      match readEntry (leNat (s.dRead p (fieldAt d 0x18 8 + 8 * i) 8)) with
      | none => (s, i)
      | some (pg, _) => State.applyEntries (s.dealloc (pageKey p.num (fieldAt d 0x14 2) pg)) p c n (i + 1)

/-- An engine stages its write and deallocate entries in the order it took the commands (R409). -/
def State.pumpCmds (s : State) : List LauterCmd → State
  | [] => s
  | c :: r =>
    match s.part? c.part with
    | none => State.pumpCmds s r
    | some p =>
      let n := fieldAt c.desc 4 2
      let (s, i) := s.applyEntries p c n c.applied
      let s := s.modLauter c.id fun x => { x with applied := i }
      if i < n then s else State.pumpCmds s r

/-- The commands of an engine that stage or deallocate. -/
def State.writersOf (s : State) (e : Nat) : List LauterCmd :=
  s.fls.cmds.filter fun c => c.carrier == e && c.refuse.isNone && c.std.isNone && fieldAt c.desc 0 1 ≥ 3 && c.applied < fieldAt c.desc 4 2

def State.pump (s : State) (e : Nat) : State := s.pumpCmds (s.writersOf e)

/-- Room came free in the staging buffers: waiting writes and updates go on. -/
def State.stagingFreed (s : State) : State := (((List.range 8).foldl State.pump s).retryUpdates).kick

/-! ### Taking commands (R409, R410) -/

/-- Storage cannot serve an op (R413). -/
def State.noStorage (s : State) (op : Nat) : Bool := !s.storageUp || (s.fls.state == .readOnly && op == 3)

/-- The next command number of the engines. -/
def Fls.nextId (f : Fls) : Nat := (f.cmds.map (·.id)).foldl max 0 + 1

/-- The op and the engine of the head entry of a kind-5 queue: no op where its CRC fails or its op is not one of R406. -/
def State.headLauter (s : State) (p : Part) (q : QueueDef) : Option Nat × Nat :=
  match (s.queue p.num q.id).oldest with
  | none => (none, 0)
  | some e =>
    match e.std with
    | some (.rescore _ _ c) => (some 1, c)
    | _ =>
      let d := s.slotRead p q e.slot
      let op := fieldAt d 0 1
      (if crcOk d 0x3C && 1 ≤ op && op ≤ 4 then some op else none, fieldAt d 1 1 % 8)

/-- The distinct pages of a command's entries, in entry order. -/
def distinct (l : List Nat) : List Nat := l.foldl (fun a k => if a.contains k then a else a ++ [k]) []

/-- Survivors that a standard rescore reads. -/
def State.stdSurvivors (s : State) (req round carrier : Nat) : List Survivor :=
  match s.query? req with
  | none => []
  | some q => (((nth q.rounds round { leaves := [] }).toPost.find? (·.1 == carrier)).map (·.2)).getD []

/-- A standard walk's rescore reaches its engine (R162). -/
def State.stdRescore (s : State) (p : Part) (q : QueueDef) (tag : BitVec 9) (req round carrier : Nat) : State :=
  match s.query? req with
  | none => s
  | some qu =>
    let ext := ((s.desc? p qu.index).map (·.ext)).getD 0
    let keys := distinct ((s.stdSurvivors req round carrier).map fun v => pageKey p.num ext v.page)
    let c : LauterCmd := { id := s.fls.nextId, carrier := carrier, part := p.num, queue := q.id, desc := [], tag := tag,
                           std := some (.rescore req round carrier), refuse := if s.noStorage 1 then some 0x0A else none, reads := keys.map s.newRead }
    { s with fls := { s.fls with cmds := s.fls.cmds ++ [c] } }

/-- A descriptor reaches its engine (R409, R410). -/
def State.takeLauterCmd (s : State) (p : Part) (q : QueueDef) (e : QEntry) (d : Bytes) : State :=
  let a := q.slotAddr e.slot
  let en := fieldAt d 1 1 % 8
  let op := fieldAt d 0 1
  let bad (s : State) : State :=
    ({ s with fls := { s.fls with ltrBad := s.fls.ltrBad + 1 } }).reportDesc 4 p.num 6 en a q.id e.tag
  if !crcOk d 0x3C then (bad s).flsErr 8
  else
    let refuse := if !s.lauterOk p d then some 4 else if s.noStorage op then some 0x0A else none
    let keys := if refuse.isNone && op ≤ 2 then
        let ext := ((s.lauterPlace p d).map (·.1)).getD 0
        distinct ((s.readEntries p d).filterMap fun e => e.map fun x => pageKey p.num ext x.1)
      else []
    let c : LauterCmd := { id := s.fls.nextId, carrier := en, part := p.num, queue := q.id, desc := d, tag := e.tag, refuse := refuse,
                           reads := keys.map s.newRead }
    let s := if refuse == some 4 then bad s else s
    ({ s with fls := { s.fls with cmds := s.fls.cmds ++ [c] } }).pump en

/-- The lauter dispatcher takes the next command of an op (R409): queues in ascending order of partition and id, heads in queue order. A head
whose CRC fails, or whose op R406 does not give, is taken whatever the op. -/
def State.dispatchLauter (s : State) (op : Nat) : State :=
  let room (e : Nat) : Bool := (s.fls.cmds.filter fun c => c.carrier == e && c.finished.isNone).length < lauterMax
  let pick (x : Part × QueueDef) : Bool :=
    let (o, e) := s.headLauter x.1 x.2
    (o == none || o == some op) && room e
  match (s.workQueues 5).find? pick with
  | none => s
  | some (p, q) =>
    match s.unitTake p q with
    | none => s
    | some (e, d, s) =>
      let s := match e.std with
        | some (.rescore req round c) => s.stdRescore p q e.tag req round c
        | _ => s.takeLauterCmd p q e d
      s.postAll p.num

/-! ### Results (R163, R411–R414) -/

/-- What the engine finds of one record (R163, R407, R412). -/
inductive Scored where
  | pass (vid score : Nat)
  | filtered
  | unread
  | format
  deriving DecidableEq, Repr

/-- Filter and score one vector record. -/
def scoreRecord (x : Desc) (dist : Nat) (pred : Bytes) (q : List Nat) (r : Bytes) : Scored :=
  let al := fieldAt r 6 2
  if fieldAt r 12 4 != 0 || al > x.attrSize then .format
  else
    let z := x.dim * elemSize x.etype
    if !passes pred (slice r (16 + z) al) then .filtered
    else .pass (fieldAt r 0 6) (exactScore x.etype x.exp dist q (elemsOf x.etype (slice r 16 z) x.dim))

/-- The record at a page and index, as a command that has read its page scores it. -/
def State.scoreAt (s : State) (x : Desc) (dist : Nat) (pred : Bytes) (q : List Nat) (reads : List PageRead) (k ix : Nat) : Scored :=
  if reads.any fun r => r.key == k && r.got == some .unrecoverable then .unread
  else scoreRecord x dist pred q (s.flashRead k (ix * x.recSize) x.recSize)

/-- Report a record format error (R412), with action bit 1 where a request is answered DEGRADED for it (R587). -/
def State.reportFormat (s : State) (k : Nat) (tag : BitVec 9) (degrades : Bool := false) : State :=
  (s.countErr 12).report { cls := 0x09, cause := 9, action := 2 * b2n degrades, part := keyPart k, kind := 6, unit := homeOf k, loc := keyPage k, tag := tag.toNat }

/-- Pages that came from the media (R414). -/
def mediaReads (rs : List PageRead) : Nat :=
  (rs.filter fun r => match r.got with | some .staging | some .unmapped | none => false | _ => true).length

/-- The header of a result block after its ready word (R411), from the statuses and counts. -/
def lauterHeader (status count filtered unread : Nat) (rs : List PageRead) : Bytes :=
  let cnt (f : Nat → Bool) : Nat := (rs.filter fun r => match r.got with | some g => f g.stepNo | none => false).length
  let staged := (rs.filter fun r => r.got == some .staging).length
  toLE 1 status ++ [0] ++ toLE 2 count ++ toLE 2 filtered ++ toLE 2 unread ++ toLE 2 rs.length ++ toLE 2 staged ++
    toLE 2 (cnt fun n => 2 ≤ n) ++ toLE 2 (cnt (· == 9)) ++ zeros 8

/-- Numbers of the entries of a list that satisfy a test. -/
def whichIdx {α : Type} (l : List α) (f : α → Bool) : List Nat := (List.zipIdx l).filterMap fun (x, i) => if f x then some i else none

/-- A standard rescore completes: its outcome waits for the return to the owner. -/
def State.stdComplete (s : State) (p : Part) (c : LauterCmd) (req round carrier : Nat) : State :=
  match s.query? req with
  | none => { s with fls := { s.fls with cmds := s.fls.cmds.filter (·.id != c.id) } }
  | some qu =>
    match s.desc? p qu.index with
    | none => s.modLauter c.id fun x => { x with refuse := some 4, finished := some ([], 0, 0) }
    | some x =>
      let sv := s.stdSurvivors req round carrier
      let told := (s.replayMedia p.num 6 0).getD []
      let ivs := List.zipIdx sv
      let rs := ivs.map fun (v, i) =>
        let k := pageKey p.num x.ext v.page
        (k, if told.contains i then Scored.unread else s.scoreAt x qu.dist qu.pred qu.raw c.reads k v.index)
      let s := (rs.filter fun r => r.2 == .format).foldl (fun s r => s.reportFormat r.1 c.tag true) s
      let passing := rs.filterMap fun r => match r.2 with | .pass vid sc => some (keyOf sc, vid) | _ => none
      let filtered := (rs.filter fun r => r.2 == .filtered).length
      let unread := (rs.filter fun r => r.2 == .unread || r.2 == .format).length
      let s := s.charge c.tag p.num 4 (mediaReads c.reads)
      let s := s.caskMedia p.num 6 0 (whichIdx rs fun r => r.2 == .unread || r.2 == .format)
      s.modLauter c.id fun x => { x with finished := some (passing, filtered, unread) }

/-- A lauter command is ready to complete: refused, its entries applied, or every page delivered or given up. -/
def LauterCmd.done (c : LauterCmd) : Bool :=
  c.refuse.isSome || (c.reads.all (·.got.isSome) && (c.std.isSome || fieldAt c.desc 0 1 ≤ 2 || c.applied ≥ fieldAt c.desc 4 2))

/-- LAUTER_COMPLETE (R411): the result block, its ready word last. -/
def State.lauterComplete (s : State) (id : Nat) : State :=
  match s.lauterCmd? id with
  | none => s
  | some c =>
    if !c.done || c.finished.isSome then s
    else
      match s.part? c.part with
      | none => { s with fls := { s.fls with cmds := s.fls.cmds.filter (·.id != id) } }
      | some p =>
        match c.std with
        | some (.rescore req round carrier) =>
          if c.refuse.isSome then s.modLauter id fun x => { x with finished := some ([], 0, 0) } else s.stdComplete p c req round carrier
        | some (.scan ..) => s
        | none =>
          let d := c.desc
          let op := fieldAt d 0 1
          let n := fieldAt d 4 2
          let ra := fieldAt d 0x30 8
          let s := { s with fls := { s.fls with cmds := s.fls.cmds.filter (·.id != id), ltrCnt := s.fls.ltrCnt + 1 } }
          let ready := toLE 4 (fieldAt d 0x38 4) ++ zeros 4
          match c.refuse with
          | some st =>
            if st == 4 then
              if p.regionOk ra 32 && ra % 64 == 0 then ((s.dWrite p (ra + 0x18) (zeros 8)).dWrite p (ra + 8) [4, 0]).dWrite p ra ready else s
            else s.writeResult p ra (ready ++ lauterHeader st 0 0 0 [])
          | none =>
            let s := s.charge c.tag p.num 2 (dUnits (fieldAt d 0x18 8) (entryBytes op n))
            if op ≥ 3 then
              let pages := distinct ((s.writeEntries p d).filterMap fun e => e.map (·.page))
              let s := if op == 3 then s.charge c.tag p.num 5 pages.length else s
              (s.charge c.tag p.num 2 (dUnits ra 32)).writeResult p ra (ready ++ lauterHeader 0 n 0 0 [])
            else
              let es := (s.readEntries p d).reduceOption
              let s := s.charge c.tag p.num 4 (mediaReads c.reads)
              let (ext, rs) := (s.lauterPlace p d).getD (0, 16384)
              if op == 2 then
                let lost (e : Nat × Nat) : Bool := c.reads.any fun r => r.key == pageKey p.num ext e.1 && r.got == some .unrecoverable
                let un := ((s.replayMedia p.num 6 ra).getD (whichIdx es lost)).filter (· < es.length)
                let ies := List.zipIdx es
                let st := ies.map fun (e : (Nat × Nat) × Nat) => if un.contains e.2 then (1 : Byte) else 0
                let body := st ++ zeros (alignUp n 64 - n) ++
                  (ies.map fun (e : (Nat × Nat) × Nat) => if un.contains e.2 then zeros rs else s.flashRead (pageKey p.num ext e.1.1) (e.1.2 * rs) rs).flatten
                let s := s.caskMedia p.num 6 ra un
                let b := ready ++ lauterHeader (if un.isEmpty then 0 else 9) (n - un.length) 0 un.length c.reads ++ body
                (s.charge c.tag p.num 2 (dUnits ra b.length)).writeResult p ra b
              else
                match s.desc? p (fieldAt d 3 1) with
                | none => s
                | some x =>
                  let q := elemsOf x.etype (s.dRead p (fieldAt d 0x20 8) (x.dim * elemSize x.etype)) x.dim
                  let pred := s.dRead p (fieldAt d 0x28 8) (fieldAt d 6 2)
                  let told := (s.replayMedia p.num 6 ra).getD []
                  let res := (List.zipIdx es).map fun (e : (Nat × Nat) × Nat) =>
                    let k := pageKey p.num ext e.1.1
                    (k, if told.contains e.2 then Scored.unread else s.scoreAt x (fieldAt d 2 1) pred q c.reads k e.1.2)
                  let s := (res.filter fun r => r.2 == .format).foldl (fun s r => s.reportFormat r.1 c.tag) s
                  let un := whichIdx res fun r => r.2 == .unread || r.2 == .format
                  let out := (List.zipIdx res).filterMap fun (r, i) => match r.2 with
                    | .pass vid sc => some (toLE 6 vid ++ toLE 2 i ++ toLE 4 sc ++ zeros 4)
                    | _ => none
                  let s := s.caskMedia p.num 6 ra un
                  let b := ready ++ lauterHeader (if un.isEmpty then 0 else 9) out.length (res.filter fun r => r.2 == .filtered).length un.length c.reads ++ out.flatten
                  let units := dUnits (fieldAt d 0x20 8) (x.dim * elemSize x.etype) + dUnits (fieldAt d 0x28 8) pred.length + dUnits ra b.length
                  (s.charge c.tag p.num 2 units).writeResult p ra b

/-- LAUTER_RESULT_RETURN (R163, R164): a standard rescore's outcome reaches its owner; a command that storage turned away ends the query
FAILED. -/
def State.lauterReturn (s : State) (id : Nat) : State :=
  match s.lauterCmd? id with
  | none => s
  | some c =>
    match c.std, c.finished with
    | some (.rescore req round carrier), some (pass, filtered, unread) =>
      let s := { s with fls := { s.fls with cmds := s.fls.cmds.filter (·.id != id), ltrCnt := s.fls.ltrCnt + 1 } }
      if c.refuse.isSome then
        (match s.query? req with
          | some _ => (s.plainAnswer req stFailed).dropQuery req
          | none => s).kick
      else (s.lauterArrived req round carrier pass filtered unread).kick
    | _, _ => s

/-- The commands of a partition end with its reset (R376, R561), and of every partition when flush mode begins (R627). -/
def State.abortLauters (s : State) (p : Nat → Bool) : State :=
  { s with fls := { s.fls with cmds := s.fls.cmds.filter fun c => !p c.part } }

end Sys2Proof.Machine
end

