-- ==== Sys2Proof/Machine/MediaOps.lean ====
section
/-! DEFINITION. Sys2Proof/Machine/MediaOps.lean: the background work of the flash side, calibration, carrier sensors and buttons, and the NVMe
storage namespaces (R385, R396–R399, R418–R423, R435, R661). -/
namespace Sys2Proof.Machine

/-! ### Background work (R396–R399) -/

/-- A block that background work may empty: no erase and no program of it runs. -/
def State.quiet (s : State) (e : Nat × SBlock) : Bool :=
  !e.2.erasing && !(s.media.stripes.any fun v => v.2.block == e.1 && v.2.programming)

/-- The block of a list that is least by a measure, and among equals by order of opening. -/
def leastBlock (f : Nat × SBlock → Nat) : List (Nat × SBlock) → Option (Nat × SBlock)
  | [] => none
  | e :: r =>
    match leastBlock f r with
    | none => some e
    | some g => if f e < f g || (f e == f g && e.2.order < g.2.order) then some e else some g

/-- The victim of garbage collection (R397). -/
def State.gcVictim (s : State) : Option (Nat × SBlock) :=
  leastBlock (fun e => (s.validIn e.1).length) (s.media.blocks.filter fun e => !e.2.oneBit && e.2.closed && s.quiet e)

/-- Collection is urgent (R397). -/
def State.gcUrgent (s : State) : Bool := s.freePct < s.fls.gcUrgent.toNat && s.gcVictim.isSome

/-- Background work may run: storage is up and no carrier is too warm (R435). -/
def State.background (s : State) : Bool := s.storageUp && !s.pause75 && s.pwr.state.toNat < 2

/-- KILNING (R396): the oldest steep block is folded, unless collection is urgent. -/
def State.kiln (s : State) : State :=
  if !s.background || s.steepPct < s.kilnAt || s.gcUrgent then s
  else match leastBlock (fun e => e.2.order) (s.media.blocks.filter fun e => e.2.oneBit && s.quiet e) with
    | none => s
    | some (b, _) =>
      let keys := s.validIn b
      let s := s.foldBlock b fun k => if s.isHot k 0 then .hot else .cold
      { s with media := { s.media with heat := keys.foldl (fun h k => h.set 0 k 0) s.media.heat } }

/-- GARBAGE_COLLECTION (R397): kilning goes first unless collection is urgent (R396). -/
def State.collect (s : State) : State :=
  if !s.background || s.freePct ≥ s.fls.gcStart.toNat || (!s.gcUrgent && s.steepPct ≥ s.kilnAt) then s
  else match s.gcVictim with
    | none => s
    | some (b, _) => s.foldBlock b fun _ => .cold

/-- Wear spread of a carrier's blocks (R398). -/
def State.wearSpread (s : State) (c : Nat) : Nat :=
  let ws := (s.media.wear.filter fun e => e.1 % 8 == c).map (·.2)
  let top := ws.foldl max 0
  if ws.length < s.stripeBlocks then top else top - ws.foldl min top

/-- Mean wear units of a carrier's blocks, in hundredths of a unit. -/
def State.meanWear100 (s : State) (c : Nat) : Nat :=
  ((s.media.wear.filter fun e => e.1 % 8 == c).map (·.2)).sum * 100 / s.stripeBlocks
def State.maxWear (s : State) (c : Nat) : Nat := ((s.media.wear.filter fun e => e.1 % 8 == c).map (·.2)).foldl max 0

/-- The most worn free stripe block (R398). -/
def State.wornFree (s : State) : Option Nat :=
  let cand := distinct ((s.media.wear.map fun e => e.1 / 8).filter fun b => (s.block? b).isNone)
  cand.foldl (fun best b => match best with
    | none => some b
    | some x => if s.blockWear b > s.blockWear x then some b else some x) none

/-- WEAR_LEVELLING (R398): the data of the least worn closed cold block moves into the most worn free one. -/
def State.levelWear (s : State) : State :=
  if !s.background || !((List.range 8).any fun c => !s.posMissing c && s.wearSpread c > s.fls.spread.toNat) then s
  else
    match leastBlock (fun e => s.blockWear e.1) (s.media.blocks.filter fun e => !e.2.oneBit && e.2.closed && e.2.stream == .cold && s.quiet e), s.wornFree with
    | some (b, _), some t =>
      let keys := s.validIn b
      let s := s.setBlock t { oneBit := false, stream := .cold, order := s.media.nextOrder }
      let s := { s with media := { s.media with nextOrder := s.media.nextOrder + 1 } }
      let s := s.moveInto .cold (some t) (8 * keys.length + 8) keys
      let s := s.moveInto .cold none (8 * keys.length + 8) (keys.filter fun k => (s.blockOf k) == some b)
      let s := { s with media := { s.media with stripes := s.media.stripes.filter (fun e => e.2.block != b) } }
      s.startErase b
    | _, _ => s

/-- PATROL (R399): one valid page is read, at the ladder step it needs. -/
def State.patrol (s : State) (k step : Nat) : State :=
  if s.fls.patrolDays == 0 || !s.background || s.media.map.get 0 k == 0 || s.posMissing (homeOf k) || step == 0 then s
  else (s.countRead k step).weakCheck k step

/-! ### Calibration (R385) -/

/-- Nanoseconds between calibrations. -/
def calPeriod : Nat := 600000000000

/-- Uptime at which a channel's calibration is or falls due. -/
def FlashCh.dueTime (k : FlashCh) : Nat := if k.calDue then k.dueAt else k.lastCal + calPeriod

/-- The channel serves: trained, not failed, and its carrier not missing (R432). -/
def State.channelServes (s : State) (ch : Nat) : Bool := (s.flashCh ch).trained && !(s.flashCh ch).failed && !s.posMissing (ch / 4)

/-- CALIBRATION: the clock moves up to the moment it falls due; a forced one needs a calibration window in the image (R40). -/
def State.calibrate (s : State) (ch : Nat) (forced : Bool) : State :=
  if !s.channelServes ch || (forced && s.grist.clock.calUs == 0) then s
  else
    let s := s.advanceTo (s.flashCh ch).dueTime
    let s := if forced then s.countErr 14 else s
    s.modFlashCh ch fun k => { k with calDue := false, calLate := false, lastCal := s.time.up, calTemp := s.mod.now.get 0 (27 + 2 * (ch / 4)),
                                      calUntil := s.time.up + 12000 }

/-- CAL_LATE: overdue by 10 s. -/
def State.calLate (s : State) (ch : Nat) : State :=
  if !s.channelServes ch then s
  else
    let due := (s.flashCh ch).dueTime
    let s := s.advanceTo (due + 10000000000)
    (s.modFlashCh ch fun k => { k with calDue := true, calLate := true, dueAt := due }).flsErr 7

/-- A channel's calibration becomes due now (R385, R596). -/
def State.makeCalDue (s : State) (ch : Nat) : State :=
  s.modFlashCh ch fun k => if k.calDue then k else { k with calDue := true, dueAt := s.time.up }

/-! ### Health (R421, R523) -/

/-- Signed °C of a sensor's last reading. -/
def State.tempOf (s : State) (i : Nat) : Int := (s.mod.now.get 0 i).toInt

/-- The highest carrier sensor reading (R421). -/
def State.hotCarrier (s : State) : Int := ((List.range 16).map fun i => s.tempOf (27 + i)).foldl max (-128)

/-- The Critical Warning bits (R421). -/
def State.critWarn (s : State) : Nat :=
  b2n (s.sparePct < 10) + 2 * b2n (s.hotCarrier ≥ 75) +
    4 * b2n (s.fls.state == .degraded || s.fls.state == .rebuilding || s.fls.unrecCnt != 0) + 8 * b2n s.media.readOnly

/-- Report SMART critical warnings that have newly come, as the Asynchronous Event Configuration allows (R523); event codes are NVMe 2.1's
(assumption 30). -/
def State.smart (s : State) : State :=
  let w := s.critWarn
  let n := s.host.nvme
  let fresh := w &&& (15 - n.warned % 16) &&& (n.feats.asyncCfg.toNat % 16)
  let s := s.modNvme fun n => { n with warned := w }
  if fresh == 0 || !n.rdy then s
  else s.asyncEvent (BitVec.ofNat 32 (1 + 256 * (if fresh.testBit 1 then 1 else if fresh.testBit 0 then 2 else 0) + 65536 * 2))

/-- The temperature threshold event (R523): the composite temperature in kelvin against the feature's threshold. -/
def State.smartTemp (s : State) : State :=
  let n := s.host.nvme
  let thr := n.feats.tempThr.toNat % 65536
  let hot := thr != 0 && s.hotCarrier + 273 ≥ (thr : Int)
  let s := s.modNvme fun n => { n with hotSent := hot }
  if hot && !n.hotSent && n.rdy then s.asyncEvent 0x00020101 else s

/-! ### Sensors and buttons (R435, R661) -/

/-- Set the last reading of a sensor, and the highest. -/
def State.setTemp (s : State) (i : Nat) (t : BitVec 8) : State :=
  let m := s.mod.maxT.get 0x80 i
  { s with mod := { s.mod with now := s.mod.now.set 0 i t, maxT := if t.toInt > m.toInt then s.mod.maxT.set 0x80 i t else s.mod.maxT } }

/-- CARRIER_SENSOR_READ (R385, R435). -/
def State.carrierSensors (s : State) (c : Nat) (a b : BitVec 8) : State :=
  let s := (s.setTemp (27 + 2 * c) a).setTemp (28 + 2 * c) b
  let t := max a.toInt b.toInt
  let k := s.carrier c
  let p75 := if t ≥ 75 then true else if t < 70 then false else k.pause75
  let p85 := if t ≥ 85 then true else if t < 80 then false else k.pause85
  let began := (p75 && !k.pause75) || (p85 && !k.pause85)
  let s := s.modCarrier c fun k => { k with pause75 := p75, pause85 := p85 }
  let s := if began then
      let i := if a.toInt ≥ b.toInt then 27 + 2 * c else 28 + 2 * c
      s.report { cls := 0x13, kind := 6, unit := c, loc := i, detail := unsignedOf 64 t }
    else s
  let s := (List.range 4).foldl (fun s i =>
    let old := (s.flashCh (4 * c + i)).calTemp.toInt
    if (s.flashCh (4 * c + i)).trained && (t ≥ old + 10 || t ≤ old - 10) then s.makeCalDue (4 * c + i) else s) s
  s.smart.smartTemp

/-- Presses count: no flush, no module reset (R661). -/
def State.buttonsLive (s : State) : Bool := s.pwr.state.toNat < 2 && !s.pwr.off && (s.clk.phase == .up || s.clk.phase == .training)

/-- A short press (R661). -/
def State.shortPress (s : State) (c : Nat) : State :=
  let s := { s with mod := { s.mod with pressed := bput s.mod.pressed c false, pressAt := s.mod.pressAt.set 0 c 0 } }
  match (s.carrier c).state with
  | .online => s.requestRemoval c
  | .rebuilding => s.showRefusal c
  | .removal | .safe => s.cancelRemoval c
  | _ => s

/-- A press reaches 4 s (R661). -/
def State.buttonHold (s : State) (c : Nat) : State :=
  let s := s.advanceTo (s.mod.pressAt.get 0 c + 4000000000)
  let s := { s with mod := { s.mod with pressed := bput s.mod.pressed c false, pressAt := s.mod.pressAt.set 0 c 0 } }
  s.forceRemoval c

/-- Kc_PRSNT_N rises without a loss (R425, R644). -/
def State.prsntHigh (s : State) (c : Nat) : State :=
  let s := { s with mod := { s.mod with kOff := bput s.mod.kOff c false, kOn := bput s.mod.kOn c true } }
  let s := s.modCarrier c fun k => { k with present := false }
  match (s.carrier c).state with
  | .safe | .refused | .failed | .powering | .identifying => ((s.setEn c false).modCarrier c fun k => { k with ident := none }).setCar c .absent
  | .lost => (s.modCarrier c fun k => { k with ident := none }).setCar c .absent
  | _ => s

/-! ### NVMe namespaces (R418, R419) -/

/-- The partition and extent that a namespace presents (R418). -/
def State.nsOf (s : State) (nsid : Nat) : Option (Part × FlashExt) :=
  if nsid == 0 then none
  else match s.part? ((nsid - 1) / 65536) with
    | none => none
    | some p => ((p.flashExt ((nsid - 1) % 65536)).filter (·.nvme)).map fun e => (p, e)

/-- Bytes of a logical block of an extent. -/
def FlashExt.lba (e : FlashExt) : Nat := if e.blk4k then 4096 else 512

/-- LBAs of a namespace (R418). -/
def FlashExt.lbas (e : FlashExt) : Nat := extPages e.sizeGB * 16384 / e.lba

/-- NVMe statuses for storage that is not there, and for a namespace that may not be written (assumption 30). -/
def nvNotReady : Nat := 0x082

/-- The pages a byte range touches: page, offset within it and length. -/
def spans : Nat → Nat → Nat → List (Nat × Nat × Nat)
  | 0, _, _ => []
  | fuel + 1, a, n =>
    if n == 0 then []
    else
      let h := min n (16384 - a % 16384)
      (a / 16384, a % 16384, h) :: spans fuel (a + h) (n - h)

/-- The spans of `n` blocks from block `lba` on. -/
def FlashExt.blockSpans (e : FlashExt) (lba n : Nat) : List (Nat × Nat × Nat) := spans (n + 1) (lba * e.lba) (n * e.lba)

/-- What every NVM command checks: the namespace, the range, storage. The status, 0 for none. -/
def State.nvmCheck (s : State) (nsid lba n : Nat) : Nat :=
  match s.nsOf nsid with
  | none => nvBadNs
  | some (_, e) => if lba + n > e.lbas then nvLbaRange else if !s.storageUp then nvNotReady else nvOk

/-- Read the bytes of spans of an extent. -/
def State.readSpans (s : State) (p : Part) (e : FlashExt) (l : List (Nat × Nat × Nat)) : Bytes :=
  (l.map fun x => s.flashRead (pageKey p.num e.id x.1) x.2.1 x.2.2).flatten

/-- Stage bytes over spans. -/
def State.writeSpans (s : State) (p : Part) (e : FlashExt) : List (Nat × Nat × Nat) → Bytes → State
  | [], _ => s
  | x :: r, b => State.writeSpans (s.stage (pageKey p.num e.id x.1) x.2.1 (b.take x.2.2) 0) p e r (b.drop x.2.2)

/-- Zero spans: whole pages are deallocated, partial ones staged as zeros, which a read-only store leaves out (R402, R419). -/
def State.zeroSpans (s : State) (p : Part) (e : FlashExt) (l : List (Nat × Nat × Nat)) (partials : Bool) : State :=
  l.foldl (fun s x =>
    let k := pageKey p.num e.id x.1
    if x.2.2 == 16384 then s.dealloc k else if partials then s.stage k x.2.1 (zeros x.2.2) 0 else s) s

/-- Count a host read or write for the health log (R421), in 512-byte units. -/
def State.countHost (s : State) (write : Bool) (n : Nat) : State :=
  { s with media := if write then { s.media with hostWrites := s.media.hostWrites + 1, writeUnits := s.media.writeUnits + n / 512 }
                    else { s.media with hostReads := s.media.hostReads + 1, readUnits := s.media.readUnits + n / 512 } }

/-- Account the media reads of spans; the pages of `bad` decode at no step. -/
def State.countSpans (s : State) (p : Part) (e : FlashExt) (l : List (Nat × Nat × Nat)) (bad : List Nat) : State :=
  l.foldl (fun s x =>
    let k := pageKey p.num e.id x.1
    s.countRead k (if s.defaultStep k == 0 then 0 else if bad.contains x.1 then 10 else s.defaultStep k)) s

/-- A read or a verify (R419). -/
def State.nvmRead (s : State) (sq : Nat) (cid : BitVec 16) (nsid lba n : Nat) (dptr : Option Nat) (bad : List Nat) : State :=
  match s.fetch sq with
  | none => s
  | some s =>
    let st := s.nvmCheck nsid lba n
    match s.nsOf nsid with
    | none => s.postCqe sq cid 0 0 st
    | some (p, e) =>
      if st != nvOk then s.postCqe sq cid 0 0 st
      else
        let l := e.blockSpans lba n
        let lost := l.any fun x => bad.contains x.1 && s.defaultStep (pageKey p.num e.id x.1) != 0
        let b := s.readSpans p e l
        let s := ((s.countSpans p e l bad).countHost false (n * e.lba)).smart
        if lost then s.postCqe sq cid 0 0 nvUnrecovered
        else
          let s := match dptr with | some a => s.emit (.hostWrite a b) | none => s
          s.postCqe sq cid 0 0 nvOk

/-- A write (R419): it completes once staged, so the command stands for the whole of it and waits while a staging buffer is full (R392). -/
def State.nvmWrite (s : State) (sq : Nat) (cid : BitVec 16) (nsid lba n : Nat) (data : Option Bytes) : State :=
  let full := match s.nsOf nsid with
    | some (p, e) => (e.blockSpans lba n).any fun x => s.stagingFull (pageKey p.num e.id x.1)
    | none => false
  if full then s
  else
  match s.fetch sq with
  | none => s
  | some s =>
    let st := s.nvmCheck nsid lba n
    match s.nsOf nsid, data with
    | none, _ => s.postCqe sq cid 0 0 st
    | some _, none => (s.hostErr 1).postCqe sq cid 0 0 nvDataError
    | some (p, e), some b =>
      if st != nvOk then s.postCqe sq cid 0 0 st
      else if s.fls.state == .readOnly then s.postCqe sq cid 0 0 nvNsWriteProt
      else ((s.writeSpans p e (e.blockSpans lba n) b).countHost true (n * e.lba)).postCqe sq cid 0 0 nvOk

/-- Write Zeroes (R419). -/
def State.nvmZero (s : State) (sq : Nat) (cid : BitVec 16) (nsid lba n : Nat) : State :=
  match s.fetch sq with
  | none => s
  | some s =>
    let st := s.nvmCheck nsid lba n
    match s.nsOf nsid with
    | none => s.postCqe sq cid 0 0 st
    | some (p, e) =>
      if st != nvOk then s.postCqe sq cid 0 0 st
      else if s.fls.state == .readOnly then s.postCqe sq cid 0 0 nvNsWriteProt
      else ((s.zeroSpans p e (e.blockSpans lba n) true).countHost true (n * e.lba)).postCqe sq cid 0 0 nvOk

/-- Dataset Management (R419): the ranges are (length, start) pairs as the host lists them. -/
def State.nvmDsm (s : State) (sq : Nat) (cid : BitVec 16) (nsid : Nat) (dealloc : Bool) (ranges : Option (List (BitVec 32 × BitVec 64))) : State :=
  match s.fetch sq with
  | none => s
  | some s =>
    match s.nsOf nsid, ranges with
    | none, _ => s.postCqe sq cid 0 0 nvBadNs
    | some _, none => (s.hostErr 1).postCqe sq cid 0 0 nvDataError
    | some (p, e), some rs =>
      if rs.any fun r => r.2.toNat + r.1.toNat > e.lbas then s.postCqe sq cid 0 0 nvLbaRange
      else if !s.storageUp then s.postCqe sq cid 0 0 nvNotReady
      else if dealloc then
        (rs.foldl (fun s r => s.zeroSpans p e (e.blockSpans r.2.toNat r.1.toNat) (s.fls.state != .readOnly)) s).postCqe sq cid 0 0 nvOk
      else s.postCqe sq cid 0 0 nvOk

/-- Flush (R419): complete at once; the broadcast namespace is allowed. -/
def State.nvmFlush (s : State) (sq : Nat) (cid : BitVec 16) (nsid : Nat) : State :=
  match s.fetch sq with
  | none => s
  | some s => s.postCqe sq cid 0 0 (if nsid == 0xFFFFFFFF || (s.nsOf nsid).isSome then nvOk else nvBadNs)

end Sys2Proof.Machine
end

