-- ==== Sys2Proof/WellFormed.lean ====
section
/-! DEFINITION. Sys2Proof/WellFormed.lean: which commands hardware could present. Unit numbers are bounded by their types. What is left are the
operands that decide which row of the table a command is: a word, a frame or a level that belongs to another row makes a command of that row. -/
namespace Sys2Proof

/-- The kinds of core instruction that have a row of their own. -/
inductive WordKind where
  | load | store | amo | lr | sc | fence | other
  deriving DecidableEq, Repr

/-- The kind of an instruction word: by opcode, and for a compressed one (R240) by quadrant and funct3. -/
def wordKind (w : Nat) : WordKind :=
  if w % 4 == 3 then
    match w % 128 with
    | 0x03 | 0x07 => .load
    | 0x23 | 0x27 => .store
    | 0x2F => match w / 2 ^ 27 % 32 with | 2 => .lr | 3 => .sc | _ => .amo
    | 0x0F => if w / 2 ^ 12 % 8 == 0 then .fence else .other
    | _ => .other
  else if w % 4 == 1 then .other
  else
    match w / 2 ^ 13 % 8 with
    | 1 | 2 | 3 => .load
    | 5 | 6 | 7 => .store
    | _ => .other

/-- The kinds of Galmel frame that have a row of their own (R446, R451). -/
inductive FrameKind where
  | credit | init | ack | keepalive | time | other
  deriving DecidableEq, Repr

/-- The kind of a frame, by its type and a LINK frame's subtype. -/
def frameKind (f : Bytes) : FrameKind :=
  match fieldAt f 0 1, fieldAt f 32 1 with
  | 2, _ => .credit
  | 3, 1 => .init
  | 3, 2 => .ack
  | 3, 3 => .keepalive
  | 4, _ => .time
  | _, _ => .other

/-- One to sixteen whole words, aligned, within a space of `size` bytes (R567); the management path has no partial words (R582). -/
def wordsOk (path : RegPath) (off size : Nat) (words : List (BitVec 32 × Bool)) : Bool :=
  off % 4 == 0 && 1 ≤ words.length && words.length ≤ 16 && off + 4 * words.length ≤ size &&
    (match path with | .host => true | .mgmt => words.all (·.2))

/-- A link trained at speed codes 1 to 6 and 1, 2, 4, 8 or 16 lanes (R516, R538). -/
def linkOk (speed width : Nat) : Bool := 1 ≤ speed && speed ≤ 6 && ([1, 2, 4, 8, 16] : List Nat).contains width

/-- A code of the test access port without an instruction of its own (R652). -/
def bypassCode (code : Nat) : Bool := !([0x00, 0x01, 0x02, 0x04, 0x05] : List Nat).contains code

/-- A command that hardware could present. -/
def Instr.wf (i : Instr) : Bool :=
  match i with
  | .registerWrite path off words _ => wordsOk path off.toNat 0x4000000 words
  | .bitAliasWrite path off words _ => wordsOk path off.toNat 0x8000000 words
  | .registerAccessRead body => fieldAt body 0 1 != 2
  | .registerAccessWrite body _ => fieldAt body 0 1 != 1
  | .load _ w => wordKind w.toNat == .load
  | .store _ w => wordKind w.toNat == .store
  | .amo _ w => wordKind w.toNat == .amo
  | .lr _ w => wordKind w.toNat == .lr
  | .sc _ w => wordKind w.toNat == .sc
  | .fence _ w => wordKind w.toNat == .fence
  | .dataFrame _ f errored => errored || frameKind f == .other
  | .credit _ f => frameKind f == .credit
  | .linkInit _ f => frameKind f == .init
  | .initAck _ f => frameKind f == .ack
  | .keepalive _ f => frameKind f == .keepalive
  | .timeFrame _ f => frameKind f == .time
  | .ccEnSet _ cc => cc.getLsbD 0
  | .ccEnClear _ cc => !cc.getLsbD 0
  | .ccShn _ cc => cc.extractLsb' 14 2 != 0
  | .nvmeRead sq .. | .nvmeWrite sq .. | .nvmeFlush sq .. | .nvmeWriteZeroes sq .. | .datasetManagement sq .. | .nvmeVerify sq ..
  | .executeProgram sq .. | .programActivationManagement sq .. | .loadProgram sq .. | .memoryRead sq .. | .memoryWrite sq ..
  | .memoryRangeSetCreate sq .. | .memoryRangeSetDelete sq .. => sq != 0
  | .pcieLinkUp speed width .. => linkOk speed.toNat width.toNat
  | .inputLow vin => vin.toNat < 700
  | .inputLowEnd vin => 720 < vin.toNat
  | .busFlushTrigger vin => vin.toNat < 680
  | .inputReturn vin | .converterStart vin => 740 < vin.toNat
  | .busHigh vin => 870 < vin.toNat
  | .busCollapse vin => vin.toNat ≤ 400
  | .carrierPowerExcess watts => 150 < watts.toNat
  | .oeCool _ temp => temp.toInt ≤ 70
  | .thermalSample temps => temps.length == 44
  | .bypass code => bypassCode code.toNat
  | _ => true

end Sys2Proof
end

