-- ==== Sys2Proof/Machine/ClockOps.lean ====
section
/-! DEFINITION. Sys2Proof/Machine/ClockOps.lean: taps and their switches, and the gating tree (R545–R558). -/
namespace Sys2Proof.Machine

/-! ### Taps (R545–R547) -/

/-- The domains, by the name that R547 gives a run of them. -/
inductive DomKind where
  | tile | mesh | stack | flash | lauter | port | mgmt | time
  deriving DecidableEq, Repr

/-- What a domain clocks (R547). -/
def domKind (d : Nat) : DomKind :=
  if d < 96 then .tile else if d < 99 then .mesh else if d < 115 then .stack else if d < 147 then .flash else if d < 155 then .lauter
  else if d < 163 then .port else if d == 163 then .mgmt else .time

/-- The default tap of a domain (R547). -/
def defaultTap (d : Nat) : BitVec 4 :=
  match domKind d with
  | .tile => 4 | .mesh => 2 | .stack => 3 | .flash => 6 | .lauter => 6 | .port => 2 | .mgmt => 7 | .time => 9

/-- A domain's multiplexer offers a tap (R546). -/
def tapOffered (d tap : Nat) : Bool :=
  let k := domKind d
  match tap with
  | 0 => k != .time
  | 1 => k == .mesh
  | 2 => k == .mesh || k == .port
  | 3 => k == .tile || k == .stack
  | 4 => k == .tile
  | 5 => k == .tile
  | 6 => k == .flash || k == .lauter
  | 7 => k == .flash || k == .lauter || k == .mgmt
  | 8 => k == .stack
  | 9 => k == .mgmt || k == .time
  | _ => false

/-- A tap is ready (R545). -/
def Clk.tapReady (c : Clk) (tap : Nat) : Bool :=
  if tap == 0 then c.refOk else if tap ≤ 7 then c.rootLock else tap ≤ 9 && c.auxLock

/-- A domain's selection; one that is not listed stands at its default. -/
def Clk.dom (c : Clk) (d : Nat) : DomClk := SMap.get c.doms ⟨defaultTap d, defaultTap d, false⟩ d

/-- Set a domain's selection. -/
def State.setDom (s : State) (d : Nat) (v : DomClk) : State :=
  { s with clk := { s.clk with doms := SMap.set s.clk.doms ⟨defaultTap d, defaultTap d, false⟩ d v } }

/-- A domain runs on a tap, no switch pending. -/
def State.useTap (s : State) (d : Nat) (tap : BitVec 4) : State := s.setDom d ⟨tap, tap, false⟩

/-- The domain that CLK_DOM_SEL selects: values above 164 select 164 (R563). -/
def Clk.selDom (c : Clk) : Nat := min c.domSel.toNat 164

/-- CLK_SRC_SEL.TAP is written (R552 steps 1 to 3). -/
def State.tapWrite (s : State) (tap : BitVec 4) : State :=
  let d := s.clk.selDom
  let v := s.clk.dom d
  if !tapOffered d tap.toNat then { s with clk := { s.clk with swNoTap := true, swDom := BitVec.ofNat 8 d } }
  else if v.pend then { s with clk := { s.clk with swBusy := true, swDom := BitVec.ofNat 8 d } }
  else s.setDom d { v with tap := tap, pend := true }

/-- The pending switch of a domain completes (R552 step 4). -/
def State.tapReady (s : State) (d : Nat) : State :=
  let v := s.clk.dom d
  if v.pend && s.clk.tapReady v.tap.toNat then s.setDom d { v with cur := v.tap, pend := false } else s

/-- The pending switch of a domain is abandoned (R552 step 3). -/
def State.tapTimeout (s : State) (d : Nat) : State :=
  let v := s.clk.dom d
  if v.pend && !s.clk.tapReady v.tap.toNat then
    let s := s.setDom d { v with pend := false }
    { s with clk := { s.clk with swTimeout := true, swDom := BitVec.ofNat 8 d } }
  else s

/-! ### The CLOCK section (R40, R69 step 1) -/

/-- The tap that a tile divider names (R546). -/
def tileTap (div : Nat) : BitVec 4 := BitVec.ofNat 4 (div - 1)

/-- The tile divider of a partition: its own byte, or the tile divider where that is 0 (R40). -/
def ClockDef.divOf (c : ClockDef) (p : Nat) : Nat := if nth c.partDiv p 0 == 0 then c.tileDiv else nth c.partDiv p 0

/-- Every tile domain on the tap that the image and the capping steps give it. -/
def State.setTileTaps (s : State) : State :=
  (List.range 96).foldl (fun (s : State) (t : Nat) =>
    let div := match s.ownerOf t with
      | some p => s.grist.clock.divOf p.num + (s.cap.steps.filter (·.1 == p.num)).length
      | none => s.grist.clock.tileDiv
    s.useTap t (tileTap div)) s

/-- The mesh, flash channel and lauter domains on the taps of the CLOCK section; the others keep theirs. -/
def State.setHubTaps (s : State) : State :=
  let c := s.grist.clock
  let mesh : BitVec 4 := if c.meshDiv == 2 then 1 else 2
  let fl : BitVec 4 := if c.flashDiv == 16 then 7 else 6
  let s := [96, 97, 98].foldl (fun (s : State) (d : Nat) => s.useTap d mesh) s
  (List.range 40).foldl (fun (s : State) (i : Nat) => s.useTap (115 + i) fl) s

/-! ### The gating tree (R555–R558) -/

/-- A node of the tree by what it gates. -/
inductive TreeNode where
  | trunk (n : Nat)
  | row (r : Nat)
  | stackBranch | flashBranch | fabricBranch
  | dom (d : Nat)
  | unit (tile u : Nat)
  deriving DecidableEq, Repr

/-- The node of a number (R555). -/
def treeNode (n : Nat) : Option TreeNode :=
  if n < 3 then some (.trunk n)
  else if n < 11 then some (.row (n - 3))
  else if n == 11 then some .stackBranch
  else if n == 12 then some .flashBranch
  else if n == 13 then some .fabricBranch
  else if n < 177 then some (.dom (n - 14))
  else if n ≤ 1520 then some (.unit ((n - 177) / 14) ((n - 177) % 14))
  else none

/-- Its ancestors' numbers. -/
def TreeNode.above : TreeNode → List Nat
  | .trunk _ => []
  | .row r => [if r < 4 then 0 else 1]
  | .stackBranch | .flashBranch | .fabricBranch => [2]
  | .dom d =>
    if d < 96 then [if d / 12 < 4 then 0 else 1, 3 + d / 12]
    else if d < 99 then [d - 96]
    else if d < 115 then [2, 11] else if d < 155 then [2, 12] else [2, 13]
  | .unit t _ => [if t / 12 < 4 then 0 else 1, 3 + t / 12, 14 + t]

/-- A unit is enabled by the running image and not fenced. -/
def State.unitInUse (s : State) (t u : Nat) : Bool :=
  if u < 9 then s.coreEnabled (9 * t + u) && !s.coreHeld (9 * t + u) && !s.underTest 1 (9 * t + u) && (s.core (9 * t + u)).st != .fenced
  else if u < 13 then s.arrayEnabled t (u - 9) && !s.arrayHeld t (u - 9)
  else s.gatherOn t

/-- A tile belongs to a partition. -/
def State.tileInUse (s : State) (t : Nat) : Bool := (s.ownerOf t).isSome

/-- A domain is in use (R556). -/
def State.domInUse (s : State) (d : Nat) : Bool :=
  if d < 96 then s.tileInUse d
  else if d < 98 then (List.range 96).any s.tileInUse
  else if d == 98 then s.grist.state != .empty && s.grist.state != .failed
  else if d < 115 then (s.memCtl (d - 99)).state != 2
  else if d < 155 then
    match (s.carrier (if d < 147 then (d - 115) / 4 else d - 147)).state with
    | .powering | .identifying | .online | .rebuilding | .removal => true
    | _ => false
  else s.fab.chans.any fun e => e.2.state != .undefined && e.2.engine.toNat == d - 155

/-- The node or a descendant is in use (R556). -/
def State.inUse (s : State) : TreeNode → Bool
  | .trunk n =>
    if n == 2 then s.domInUse 98 || (List.range 64).any fun i => s.domInUse (99 + i)
    else s.domInUse (96 + n) || (List.range 48).any fun i => s.tileInUse (48 * n + i)
  | .row r => (List.range 12).any fun i => s.tileInUse (12 * r + i)
  | .stackBranch => (List.range 16).any fun i => s.domInUse (99 + i)
  | .flashBranch => (List.range 40).any fun i => s.domInUse (115 + i)
  | .fabricBranch => (List.range 8).any fun i => s.domInUse (155 + i)
  | .dom d => s.domInUse d
  | .unit t u => s.unitInUse t u

/-- A node's clock is stopped by an automatic gate: free tiles, disabled units, fenced cores, and idle units under the gating bits. -/
def State.autoGated (s : State) : TreeNode → Bool
  | .dom d => d < 96 && !s.tileInUse d
  | .unit t u =>
    let g := s.grist.clock.gating
    !s.tileInUse t ||
      (if u < 9 then
        !s.coreEnabled (9 * t + u) || (s.core (9 * t + u)).st == .fenced || (g.getLsbD 1 && !(s.core (9 * t + u)).ctxs.any fun e => e.2.isReady)
      else if u < 13 then !s.arrayEnabled t (u - 9) || (g.getLsbD 0 && !s.arrayServes t (u - 9))
      else !(s.enables t).getLsbD 13 || (g.getLsbD 2 && (s.gth t).cmd.isNone))
  | _ => false

/-- CLK_GATE.RUNNING of a node: no gate on its path is closed. -/
def State.nodeRuns (s : State) (n : Nat) : Bool :=
  match treeNode n with
  | none => false
  | some v =>
    s.regsLive && !(n :: v.above).any fun (m : Nat) => s.clk.gates.contains m || (treeNode m).any s.autoGated

/-- CLK_GATE.GATE is written (R557). -/
def State.gateWrite (s : State) (on : Bool) : State :=
  let n := s.clk.gateSel.toNat
  match treeNode n with
  | none => s
  | some v =>
    if !on then { s with clk := { s.clk with gates := s.clk.gates.filter (· != n) } }
    else if s.inUse v then { s with clk := { s.clk with gateRefused := true, gateNode := s.clk.gateSel } }
    else { s with clk := { s.clk with gates := insNat s.clk.gates n } }

/-- Software gates open on the path of everything in use (R558). -/
def State.openGates (s : State) : State :=
  if s.clk.gates.isEmpty then s
  else { s with clk := { s.clk with gates := s.clk.gates.filter fun (n : Nat) => match treeNode n with | some v => !s.inUse v | none => true } }

/-- A command ends: what it brought into use has every software gate on its path open (R558). -/
def settled (s : State) : Res := .next s.openGates

/-- A command has a meaning for the operands that hardware could present (Instr.wf); with others it is no command of its row. -/
def presented (ok : Bool) (r : Res) : Res := if ok then r else .fault .illFormed

end Sys2Proof.Machine
end

