-- ==== Sys2Proof/Machine/NodeMsgs.lean ====
section
/-! DEFINITION. Sys2Proof/Machine/NodeMsgs.lean: what the composition unit and the lend unit do with node-to-node messages (R489, R490, R495–R509). -/
namespace Sys2Proof.Machine

/-! ### Maps (R489) -/

/-- MAP_FETCH is answered with the current map, whatever epoch it names; a node with no map has none to send. -/
def State.mapFetched (s : State) (src : Nat) : State := if s.comp.map.isSome then s.sendNode src 0x21 s.comp.raw else s

/-! ### Claims (R499, R501, R504) -/

/-- The body of a CLAIM_REPLY (R509). -/
def claimReplyBody (shard result epoch : Nat) (st : Stamp) : Bytes := toLE 2 shard ++ toLE 1 result ++ [0] ++ toLE 4 epoch ++ st.bytes ++ zeros 4

/-- A CLAIM arrives (R501). -/
def State.claimed (s : State) (src shard epoch : Nat) : State :=
  match s.mapShard shard with
  | none => s.sendNode src 0x23 (claimReplyBody shard 2 s.epoch Stamp.zero)
  | some x =>
    let k := s.shard shard
    if s.mapConfirmed && s.holder x == s.me then
      let s := s.sendNode src 0x23 (claimReplyBody shard 1 s.epoch k.ostamp)
      if k.role == .owner then (s.modShard shard fun k => { k with override := some (s.me, max s.epoch epoch) }).conflict shard src else s
    else if k.role == .owner || k.role == .yielding then
      if (s.updatesOf x).isEmpty then
        let s := s.sendNode src 0x23 (claimReplyBody shard 0 s.epoch k.lastAck)
        (s.modShard shard fun k => { k with role := .yielding, yieldTo := some k.lastAck }).settleYield x
      else s
    else s.sendNode src 0x23 (claimReplyBody shard 2 s.epoch Stamp.zero)

/-- The update request that a sealed UPDATE record stands for, formed again from the record (R504 step 2). -/
def State.requestOf (s : State) (p : Part) (x : Desc) (index svc : Nat) (r : JRec) : Bytes :=
  let vid := fieldAt r.body 0 6
  let adds := r.flags.testBit 0
  let rec_ := s.flashRead (pageKey p.num x.ext (fieldAt r.body 0x14 5)) (fieldAt r.body 0x19 1 * x.recSize) x.recSize
  let al := fieldAt rec_ 6 2
  let z := x.dim * elemSize x.etype
  let body :=
    if adds then toLE 1 index ++ toLE 1 x.etype ++ toLE 2 x.dim ++ toLE 2 al ++ zeros 2 ++ toLE 6 vid ++ zeros 2 ++ slice rec_ 16 z ++ slice rec_ (16 + z) al
    else toLE 1 index ++ zeros 7 ++ toLE 6 vid ++ zeros 2
  let b := pad8 body
  toLE 1 (if adds then 4 else 5) ++ [1] ++ toLE 1 svc ++ [0] ++ toLE 4 (64 + b.length) ++ zeros 8 ++ r.stamp.bytes ++ toLE 4 s.epoch ++ zeros 4 ++
    toLE 2 0xFFFF ++ zeros 26 ++ b

/-- Put an item into a list ordered by ack stamp, once. -/
def insertItem (i : MirrorItem) : List MirrorItem → List MirrorItem
  | [] => [i]
  | x :: r => if i.ack == x.ack then x :: r else if i.ack.before x.ack then i :: x :: r else x :: insertItem i r

/-- This pool gives a shard up to the keeper of an override (R504). -/
def State.giveUp (s : State) (x : MapShard) (keeper : Nat) (kst : Stamp) : State :=
  let owned := (s.shard x.id).role == .owner
  let s : State := (s.updatesOf x).foldl (fun (s : State) (r : Req) =>
    if (s.update? r.id).any (·.ack.isSome) then s
    else
      let s := match s.update? r.id with
        | some u => (match u.seq with | some q => s.voidRec q u.part u.index | none => s)
        | none => s
      let s := { s with srch := { s.srch with updates := s.srch.updates.filter (·.req != r.id) } }
      let (st, s) := s.stampOrZero
      (s.formAnswer r.id { status := stRedirect, stamp := st, usedUs := s.usedUs r, redirect := keeper }).dropHold r.id) s
  let s : State := match owned, s.svcPart x.service with
    | true, some p =>
      (match s.desc? p x.index with
       | none => s
       | some d =>
         let recs : List JRec := s.dur.journal.filter fun (r : JRec) => r.typ == 1 && r.part == p.num && r.obj == x.index && !r.voided &&
           match r.sealed with | some a => kst.before a | none => false
         let items : List MirrorItem := recs.foldl (fun l (r : JRec) => insertItem ⟨r.sealed.getD Stamp.zero, s.requestOf p d x.index x.service r, r.bytes, 0, 0, false⟩ l) []
         items.foldl (fun (s : State) (i : MirrorItem) => s.sendNode keeper 0x24 (mirrorBody x.id 1 i.ack i.request i.journal)) s)
    | _, _ => s
  if owned then s.dropShard x x.service else s.modShard x.id fun k => { k with role := .none }

/-- A CLAIM_REPLY arrives (R499, R504). -/
def State.claimReplied (s : State) (src shard result epoch : Nat) (st : Stamp) : State :=
  match s.mapShard shard with
  | none => s
  | some x =>
    let k := s.shard shard
    let claims := k.role == .claiming || k.role == .owner
    if !claims then s
    else match result with
      | 0 => if k.role == .claiming && x.previous == src then (s.modShard shard fun k => { k with yieldTo := some st }).tryOwn x else s
      | 2 => if k.role == .claiming && x.previous == src then (s.modShard shard fun k => { k with yieldTo := some Stamp.ones }).tryOwn x else s
      | 1 =>
        if st == Stamp.zero then s
        else
          let iKeep := k.role == .owner && k.ostamp.before st
          let keeper := if iKeep then s.me else src
          let s := (s.modShard shard fun k => { k with override := some (keeper, max s.epoch epoch) }).conflict shard src
          if iKeep then s else ((s.giveUp x keeper st).retryHeld (·.claim)).kick
      | _ => s

/-! ### Mirrors (R495–R498) -/

/-- MIRROR_ACK for an update. -/
def State.mirrorAckSend (s : State) (dest shard : Nat) (a : Stamp) : State := s.sendNode dest 0x25 (toLE 2 shard ++ zeros 6 ++ a.bytes ++ zeros 4)

/-- The mirror keeps back acknowledgements while more than this many updates of a shard wait (R496). -/
def mirrorMax : Nat := 65536

/-- A MIRROR_UPDATE arrives: the update lies in the mirror's journal region, and MIRROR_ACK is sent or withheld (R496); one with the merge
flag goes to the keeper of an override (R504). Updates of a shard travel in ack stamp order (R495), so one whose ack stamp is not after the last
confirmed one is confirmed again and not applied again (assumption 124). -/
def State.mirrorUpdate (s : State) (src : Nat) (b : Bytes) : State :=
  let shard := fieldAt b 0 2
  let merge := (fieldAt b 2 2).testBit 0
  let a := stampAt b 8
  let j := fieldAt b 0x18 4
  let rq := b.drop 0x20
  let n := rqLen rq
  match s.mapShard shard with
  | none => s
  | some x =>
    let ok := if merge then (s.shard shard).role == .owner else x.mirrored && x.mirror == s.me
    if !ok then s
    else if !merge && !(s.shard shard).lastAck.before a then
      if (s.shard shard).withheld.contains a then s else s.mirrorAckSend src shard a
    else
      let it : MirrorItem := { ack := a, request := rq.take n, journal := slice rq n j, upd := 0, sentAt := s.time.up }
      let s := s.modShard shard fun k => { k with toApply := insertItem it k.toApply, lastAck := if k.lastAck.before a then a else k.lastAck }
      if (s.shard shard).toApply.length > mirrorMax then s.modShard shard fun k => { k with withheld := k.withheld ++ [a] }
      else s.mirrorAckSend src shard a

/-- Withheld acknowledgements go as the backlog falls (R496). -/
def State.releaseAcks (s : State) (x : MapShard) : State :=
  let k := s.shard x.id
  let n := mirrorMax - k.toApply.length
  let s := s.modShard x.id fun k => { k with withheld := k.withheld.drop n }
  (k.withheld.take n).foldl (fun s a => s.mirrorAckSend x.owner x.id a) s

/-- The update that a mirrored request stands for, with its original ack stamp. -/
def State.mirroredUpdate (s : State) (p : Part) (id index : Nat) (d : Bytes) (a : Stamp) : Option Update :=
  let k := rqKind d
  match s.desc? p index with
  | none => none
  | some x =>
    let n := fieldAt d 0x42 2
    let u : Update := { req := id, part := p.num, index := index, adds := k != 5, upsert := k == 4 || k == 6, vid := rqVid d, elems := [], attrs := [],
                        wait := .nothing, ack := some a }
    if k == 5 then some u
    else if k == 6 then
      match embedVec ((((s.svcPart (rqSvc d)).bind fun q => q.service? (rqSvc d)).bind fun v => v.stageProg 1).getD 0) (tokensOf (d.drop 0x50) n) x with
      | none => none
      | some es => some { u with elems := (es.map fun e => toLE (elemSize x.etype) e).flatten, attrs := slice d (0x50 + 4 * n) (fieldAt d 0x44 2) }
    else some { u with elems := slice d 0x50 (n * elemSize x.etype), attrs := slice d (0x50 + n * elemSize x.etype) (fieldAt d 0x44 2) }

/-- Apply confirmed updates of a shard in ack stamp order (R496): one that has to wait holds up those after it. -/
def State.applyItems (s : State) (x : MapShard) (p : Part) : Nat → State
  | 0 => s
  | fuel + 1 =>
    match (s.shard x.id).toApply with
    | [] => s
    | i :: rest =>
      let pop (s : State) : State := s.modShard x.id fun k => { k with toApply := rest }
      if i.sent then
        if (s.update? i.upd).isSome then s else State.applyItems (pop s) x p fuel
      else
        let id := s.req.next
        match s.mirroredUpdate p id x.index i.request i.ack with
        | none => State.applyItems (pop s) x p fuel
        | some u =>
          let s := { s with req := { s.req with next := id + 1 }, srch := { s.srch with updates := s.srch.updates ++ [u] } }
          let s := s.tryUpdate id
          if (s.update? id).isSome then s.modShard x.id fun k => { k with toApply := { i with upd := id, sent := true } :: rest }
          else State.applyItems (pop s) x p fuel

/-- The mirror applies what it may (R496, R498): nothing while it is resyncing. -/
def State.mirrorApply (s : State) (shard : Nat) : State :=
  match s.mapShard shard with
  | none => s
  | some x =>
    let k := s.shard shard
    let svc := if x.owner == s.me then x.service else x.mirrorService
    match s.svcPart svc with
    | none => s
    | some p => if k.role == .resyncing then s else (((s.applyItems x p (2 * k.toApply.length + 1)).releaseAcks x).tryOwn x).kick

/-- A MIRROR_SYNC message arrives (R498): with the last one the state as of the cut is loaded, what it holds is not applied again, and the
mirror is in sync. -/
def State.mirrorSync (s : State) (b : Bytes) : State :=
  let shard := fieldAt b 0 2
  let last := (fieldAt b 2 2).testBit 0
  let seq := fieldAt b 4 4
  match s.mapShard shard with
  | none => s
  | some x =>
    let k := s.shard shard
    if !(x.mirrored && x.mirror == s.me) || !(k.role == .resyncing || k.role == .inSync) || (seq != 0 && seq != k.syncSeq) then s
    else
      let bytes := (if seq == 0 then [] else k.sync) ++ b.drop 0x18
      if !last then s.modShard shard fun k => { k with role := .resyncing, inSync := false, cut := stampAt b 8, syncSeq := seq + 1, sync := bytes }
      else
        let s := match s.svcPart x.mirrorService with
          | some p => s.syncLoad p x.index bytes
          | none => s
        let s := s.modShard shard fun k => { k with role := .inSync, inSync := true, cut := stampAt b 8, syncSeq := 0, sync := [],
                                                    toApply := k.toApply.filter fun i => (stampAt b 8).before i.ack,
                                                    lastAck := if k.lastAck.before (stampAt b 8) then stampAt b 8 else k.lastAck }
        s.mirrorApply shard

/-- MIRROR_ACK arrives at the owner (R495): the update is sealed and acknowledged. -/
def State.mirrorAcked (s : State) (shard : Nat) (a : Stamp) : State :=
  match (s.shard shard).unacked.find? (·.ack == a) with
  | none => s
  | some i =>
    let s := s.modShard shard fun k => { k with unacked := k.unacked.filter (·.ack != a), held := k.held && k.unacked.length > 1 }
    let s := match s.update? i.upd with
      | some u => s.ackUpdate u
      | none => s
    (s.retryUpdates).kick

/-- No MIRROR_ACK for 1 ms: acknowledgements of the shard are held (R497). -/
def State.mirrorLate (s : State) (shard : Nat) : State :=
  match (s.shard shard).unacked with
  | [] => s
  | i :: _ => (s.advanceTo (i.sentAt + 1000000)).modShard shard fun k => { k with held := true }

/-! ### Lending (R505–R508) -/

/-- The lend queue of a partition. -/
def lendQueue : Nat := 0xFFF0

/-- The fields of a lend command that need no map entry (R505). -/
def lendOk (p : Part) (d : Bytes) : Bool :=
  let op := fieldAt d 0 1
  let len := fieldAt d 4 4
  crcOk d 0x3C && (op == 1 || op == 2) && fieldAt d 1 1 == 0 && allZero (slice d 0x24 24) && fieldAt d 0x20 4 != 0 &&
  p.regionOk (fieldAt d 0x10 8) len && p.regionOk (fieldAt d 0x18 8) 16 && fieldAt d 0x18 8 % 16 == 0

/-- The length and place rules of an entry's kind (R505). -/
def lendShapeOk (flash : Bool) (len place : Nat) : Bool :=
  if flash then len == 16384 && place < 2 ^ 40
  else 64 ≤ len && len ≤ 32768 && len % 64 == 0 && place % 64 == 0

/-- Complete a lend command: status, then the ready word (R505). -/
def State.lendDone (s : State) (p : Part) (d : Bytes) (status : Nat) : State :=
  let r := fieldAt d 0x18 8
  if p.regionOk r 16 && r % 16 == 0 then
    (s.dWrite p (r + 8) (toLE 1 status ++ zeros 7)).dWrite p r (toLE 8 (fieldAt d 0x20 4))
  else s

/-- The lend unit takes the next command of a partition and sends it to the lender (R505, R507). -/
def State.lendCommand (s : State) (part : Nat) : State :=
  match s.part? part with
  | none => s
  | some p =>
    match p.queueDef? lendQueue with
    | none => s
    | some q =>
      if q.kind != 3 then s
      else match s.unitTake p q with
        | none => s
        | some (_, d, s) =>
          let len := fieldAt d 4 4
          let place := fieldAt d 8 8
          let ent : Option MapLend := s.comp.map.bind fun m => m.lends.find? fun l =>
            l.id == fieldAt d 2 2 && l.borrower == s.me && l.borrowerPart == part
          if !lendOk p d then s.lendDone p d 4
          else match ent with
            | none => s.lendDone p d 0xC
            | some l =>
              if !lendShapeOk l.flash len place then s.lendDone p d 4
              else
                let tag := s.comp.nextTag
                let wr := fieldAt d 0 1 == 2
                let body := toLE 2 l.id ++ zeros 2 ++ toLE 4 len ++ toLE 8 place ++ toLE 8 tag ++ (if wr then s.dRead p (fieldAt d 0x10 8) len else [])
                let s := { s with comp := { s.comp with nextTag := tag + 1, lends := s.comp.lends ++ [(⟨tag, part, d, s.time.up⟩ : LendCmd)] } }
                s.sendNode l.lender (if wr then 0x29 else 0x28) body

/-- A reply completes its command (R506, R507). -/
def State.lendReplied (s : State) (b : Bytes) : State :=
  match s.comp.lends.find? (·.tag == fieldAt b 8 8) with
  | none => s
  | some c =>
    let s := { s with comp := { s.comp with lends := s.comp.lends.filter (·.tag != c.tag) } }
    match s.part? c.part with
    | none => s
    | some p =>
      let s := if fieldAt c.desc 0 1 == 1 && fieldAt b 2 1 == 0 then s.dWrite p (fieldAt c.desc 0x10 8) (slice b 0x10 (fieldAt c.desc 4 4)) else s
      s.lendDone p c.desc (fieldAt b 2 1)

/-- No reply within 2 ms: FAILED (R506). -/
def State.lendLate (s : State) (tag : Nat) : State :=
  match s.comp.lends.find? (·.tag == tag) with
  | none => s
  | some c =>
    let s := s.advanceTo (c.sentAt + 2000000)
    let s := { s with comp := { s.comp with lends := s.comp.lends.filter (·.tag != tag) } }
    match s.part? c.part with
    | some p => s.lendDone p c.desc 6
    | none => s

/-- Lent memory loses its contents (R508): every memory entry that this node lends and that a test picks. -/
def State.loseLends (s : State) (pick : MapLend → Bool) : State :=
  match s.comp.map with
  | none => s
  | some m =>
    let ids := (m.lends.filter fun l => l.lender == s.me && !l.flash && pick l).map (·.id)
    { s with comp := { s.comp with lost := ids.map (fun i => (i, m.epoch)) ++ s.comp.lost.filter (fun e => !ids.contains e.1) } }

/-- Serve one lend command at the lender (R506–R508): its status, and the data of a read. None while a write waits for its staging buffer. -/
def State.lendServe (s : State) (src : Nat) (wr : Bool) (b : Bytes) : Option (Nat × Bytes × State) :=
  let len := fieldAt b 4 4
  let place := fieldAt b 8 8
  let ent : Option MapLend := s.comp.map.bind fun m => m.lends.find? fun l => l.id == fieldAt b 0 2 && l.lender == s.me && l.borrower == src
  match ent with
  | none => some (0xC, [], s)
  | some l =>
    if !lendShapeOk l.flash len place then some (4, [], s)
    else match s.part? l.lenderPart with
      | none => some (0xB, [], s)
      | some p =>
        if l.flash then
          match p.flashExt l.extent with
          | none => some (0xB, [], s)
          | some e =>
            let k := pageKey p.num l.extent place
            if place ≥ extPages e.sizeGB then some (4, [], s)
            else if !s.storageUp || (wr && s.fls.state == .readOnly) then some (0xA, [], s)
            else if wr then (if s.stagingFull k then none else some (0, [], s.stage k 0 (slice b 0x18 16384) 0))
            else some (0, s.flashRead k 0 16384, s.countRead k (s.defaultStep k))
        else
          match p.general[l.extent]? with
          | none => some (0xB, [], s)
          | some e =>
            if place + len > e.len * GiB then some (4, [], s)
            else
              let lost := s.comp.lost.find? (·.1 == l.id)
              let dead : Bool := (s.memCtl e.stack).state == 2 || match lost with | some x => x.2 ≥ s.epoch | none => false
              if dead then some (0xB, [], s)
              else
                let s := if lost.isSome then
                    let s := s.zeroExt e
                    { s with comp := { s.comp with lost := s.comp.lost.filter fun x => x.1 != l.id } }
                  else s
                let a : Loc := .dram e.stack (e.base * GiB + place)
                if wr then some (0, [], s.locWrite a (slice b 0x18 len)) else some (0, s.locRead a len, s)

/-- LEND_READ or LEND_WRITE arrives at the lender; its LEND_REPLY goes back (R507). -/
def State.lendArrived (s : State) (src : Nat) (wr : Bool) (b : Bytes) : State :=
  match s.lendServe src wr b with
  | none => s
  | some (st, data, s) => s.sendNode src 0x2A (toLE 2 (fieldAt b 0 2) ++ toLE 1 st ++ zeros 5 ++ toLE 8 (fieldAt b 0x10 8) ++ data)

/-! ### Handing on (R509) -/

/-- Step 1 of R146 and the class rules for a node-to-node message. -/
def nodeMsgOk (cls tenant : Nat) (d : Bytes) : Bool :=
  let k := rqKind d
  (k == 0x20 || k == 0x21 || k == 0x22 || k == 0x23 || k == 0x24 || k == 0x25 || k == 0x26 || k == 0x28 || k == 0x29 || k == 0x2A) &&
  cls == nodeClass k && fieldAt d 1 1 == 1 && rqSvc d == 0xFF && rqTenant d == 0 && tenant == 0 && 64 ≤ rqLen d && rqLen d ≤ 65536 &&
  rqLen d % 8 == 0 && rqLen d == d.length && rqFlags d < 8 && allZero (slice d 0x28 24)

/-- Is the kind a node-to-node message's. -/
def isNodeKind (k : Nat) : Bool := 0x20 ≤ k && k ≤ 0x2A

/-- The composition unit takes a node-to-node message. -/
def State.nodeMsg (s : State) (src : Nat) (d : Bytes) : State :=
  let b := d.drop 0x40
  match rqKind d with
  | 0x20 => s.mapFetched src
  | 0x21 => s.offerMap (some b)
  | 0x22 => s.claimed src (fieldAt b 0 2) (fieldAt b 4 4)
  | 0x23 => s.claimReplied src (fieldAt b 0 2) (fieldAt b 2 1) (fieldAt b 4 4) (stampAt b 8)
  | 0x24 => s.mirrorUpdate src b
  | 0x25 => s.mirrorAcked (fieldAt b 0 2) (stampAt b 8)
  | 0x26 => s.mirrorSync b
  | 0x28 => s.lendArrived src false b
  | 0x29 => s.lendArrived src true b
  | 0x2A => s.lendReplied b
  | _ => s

/-- The partition that a node-to-node message reaches: that of a mirrored shard, of a lent extent, or of a lend command. -/
def State.nodeMsgPart (s : State) (d : Bytes) : Option Nat :=
  let b := d.drop 0x40
  match rqKind d with
  | 0x24 | 0x25 | 0x26 =>
    (s.mapShard (fieldAt b 0 2)).bind fun x => (s.svcPart (if x.owner == s.me then x.service else x.mirrorService)).map (·.num)
  | 0x28 | 0x29 => (s.comp.map.bind fun m => m.lends.find? fun l => l.id == fieldAt b 0 2 && l.lender == s.me).map (·.lenderPart)
  | 0x2A => (s.comp.lends.find? (·.tag == fieldAt b 8 8)).map (·.part)
  | _ => none

/-- A node-to-node message comes in on a channel: an INPUT of the partition it reaches (R608); a partition in replay takes none from the
fabric (R611). -/
def State.nodeIn (s : State) (ch src : Nat) (d : Bytes) : State :=
  match s.nodeMsgPart d with
  | none => s.nodeMsg src d
  | some p => if s.replaying p then s else (s.caskMessage p ch d).nodeMsg src d

/-- A node-to-node message of a kind that a command names by its body: its header carries no stamp and no tag. -/
def rowMsg (kind : Nat) (body : Bytes) : Bytes :=
  toLE 1 kind ++ [1, 0xFF, 0] ++ toLE 4 (64 + alignUp body.length 8) ++ zeros 28 ++ toLE 2 0xFFFF ++ zeros 26 ++ pad8 body

/-- The same message on the lowest up channel to its source. -/
def State.rowIn (s : State) (src : BitVec 16) (kind : Nat) (body : Bytes) : State :=
  s.nodeIn ((s.upLinks src.toNat none).headD 0) src.toNat (rowMsg kind body)

end Sys2Proof.Machine
end

