-- ==== Sys2Proof/Machine/FabricWork.lean ====
section
/-! DEFINITION. Sys2Proof/Machine/FabricWork.lean: what the commands do of the optical fabric and the rack time base (R442–R481) . A channel is 0–127. -/
namespace Sys2Proof.Machine

/-! ### Fibres and training (R442–R444) -/

/-- Channels that the image defines on an engine. -/
def State.chansOn (s : State) (engine : Nat) : List Nat :=
  (s.fab.chans.filter fun e => e.2.state != .undefined && e.2.engine.toNat == engine).map fun e => e.1

/-- A channel starts link training with its transmitters on (R443). -/
def State.startTraining (s : State) (c : Nat) : State :=
  s.modChan c fun k => { k with state := .training, since := s.time.up, txOn := true, peer := 0xFFFF }

/-- A channel goes down for want of light (R442, R453). -/
def State.darken (s : State) (c : Nat) : State :=
  let s := if (s.chan c).state == .up then s.leaveUp c .noFibre else s.modChan c fun k => { k with state := .noFibre, since := s.time.up, ctl := [], reasm := [] }
  s.modChan c fun k => { k with txOn := false, peer := 0xFFFF }

/-! ### Complete messages (R449, R454, R474–R479) -/

/-- The node counts frame bytes received to the header tenant, or to the node for its own messages (R510). -/
def State.chargeRx (s : State) (r : Rx) (node : Bool) : State :=
  let g := s.segSize r.ch
  let n := r.data.length
  let full := n / g
  let b := full * s.frameBytes r.ch g + (if n % g == 0 then 0 else s.frameBytes r.ch (n % g))
  s.chargeSet (if node then 288 else r.tenant.toNat) 6 b

/-- Fill of the queue a request would go to, as a yellow limit sees it (R477). -/
def State.yellowFull (s : State) (p : Part) (svc kind lim : Nat) : Bool :=
  match (p.service? svc).bind fun v => p.queueDef? (v.queueFor kind) with
  | none => false
  | some q => lim < 100 && (s.queue p.num q.id).entries.length * 100 ≥ lim * q.size

/-- A policed message that is not passed on: its INPUT record, then a BUSY refusal or a drop (R477, R479). -/
def State.policedOut (s : State) (p : Part) (src : Source) (d : Bytes) (drop : Bool) (units colour acct : Nat) : State :=
  let s := s.caskInput p.num src colour (if drop then 0xFE else stBusy) s.rack d
  if drop then s else s.refuse src d stBusy 0xFFFF units colour acct

/-- A complete message of class 2 or 3: policed, then admitted (R474–R479). -/
def State.takePoliced (s : State) (src : Source) (r : Rx) : State :=
  match s.binding r.tenant.toNat (rqSvc r.data) with
  | none => s.takeRequest src r.data r.units r.colour r.acct
  | some (p, b) =>
    if b.policer == 0xFF then s.takeRequest src r.data r.units r.colour r.acct
    else
      let (col, s) := s.police (bindKey b.tenant b.service) b.policer r.acct r.colour
      let f := s.pol b.policer
      if col == 2 then s.policedOut p src r.data f.redDrop r.units 2 r.acct
      else if col == 1 && s.yellowFull p (rqSvc r.data) (rqKind r.data) f.ylim.toNat then s.policedOut p src r.data false r.units 1 r.acct
      else s.takeRequest src r.data r.units col r.acct

/-- A request that a channel hands on; its units free unless it waits for the refusal buffer (R148, R455, R457). -/
def State.handRequest (s : State) (r : Rx) : State :=
  let src : Source := .fabric (Fin.ofNat 128 r.ch) r.src (Fin.ofNat 8 r.cls) r.tenant r.mac
  let n := s.req.stalled.length
  let s := s.chargeRx r false
  let s := if r.cls == 1 then s.takeRequest src r.data r.units r.colour r.acct else s.takePoliced src r
  let s := if s.req.stalled.length > n then s else s.freeUnits r.ch r.cls r.units
  (s.fetchNow).kick

/-- Hand on a complete message (R449, R454, R509). -/
def State.handOn (s : State) (r : Rx) : State :=
  let k := rqKind r.data
  if r.data.length < 8 || rqLen r.data != r.data.length then (s.freeUnits r.ch r.cls r.units).rxDropped r.ch (some 2)
  else if isNodeKind k then
    let s := (s.chargeRx r true).freeUnits r.ch r.cls r.units
    if nodeMsgOk r.cls r.tenant.toNat r.data then (s.nodeIn r.ch r.src.toNat r.data).kick else s.rxDropped r.ch (some 5)
  else match r.cls with
    | 0 =>
      let s := (s.chargeRx r false).freeUnits r.ch 0 r.units
      if k == 0x81 then s.peerAnswer r.ch r.src.toNat r.data else s.rxDropped r.ch (some 5)
    | 1 | 2 | 3 => s.handRequest r
    | _ => (s.freeUnits r.ch r.cls r.units).rxDropped r.ch (some 5)

/-- A map that a frame has confirmed gives the shards their roles (R490); a higher epoch seen is fetched (R489). -/
def State.afterEpoch (s : State) (before : State) : State :=
  let s := if s.comp.confirmed && !before.comp.confirmed && s.comp.map.isSome then
      (s.assignRoles s.comp.map).retryHeld (fun _ => true)
    else s
  s.fetchNow

/-- A frame arrives on a Galmel link (R446–R456). -/
def State.galmelIn (s : State) (c : Nat) (f : Bytes) (errored : Bool) : State :=
  if s.inputStopped then s
  else
    let (t, m) := s.rxGalmel c f errored
    let t := t.afterEpoch s
    match m with
    | some r => t.handOn r
    | none => t

/-- A frame arrives on an Ethernet-mode channel (R460–R462). -/
def State.etherIn (s : State) (c : Nat) (f : Bytes) : State :=
  if s.inputStopped then s
  else
    let (t, m) := s.rxEthernet c f
    let t := t.afterEpoch s
    match m with
    | some r => t.handOn r
    | none => t

/-! ### The time base (R464–R468) -/

/-- Saturate an offset to the 16 bits of FAB_TIME_STATUS.OFFSET. -/
def sat16 (o : Int) : BitVec 16 := BitVec.ofInt 16 (max (-32767) (min 32767 o))

/-- The slew that removes an offset: half of it in ppm, at most 500, against its sign (R467). -/
def slewOf (o : Int) : Int := -(max (-500) (min 500 (Int.tdiv o 2)))

/-- A lock begins (R466, R467). -/
def State.lockTo (s : State) (target : Nat) : State :=
  let s := { s with time := { s.time with state := .locked } }
  ((s.firstLock target).retryUpdates).kick

/-- A sync message has been measured (R466, R467): `offset` is rack time minus the master's, `master` the master's time, `freq` the
frequency correction in ppm that the node then holds. -/
def State.synced (s : State) (c : Nat) (master : Nat) (offset freq : Int) : State :=
  let t := s.time
  let near := -20 ≤ offset && offset ≤ 20
  let good := if near then t.good + 1 else 0
  let s := { s with time := { t with good := good, syncAt := t.up, offset := sat16 offset, port := BitVec.ofNat 7 c, via := true,
                                     slew := slewOf offset, freq := freq } }
  let s := if t.issued && (offset > 1000000 || offset < -1000000) then
      ({ s with time := { s.time with fault := true } }).report
        { cls := 0x0D, kind := 7, unit := c, loc := (BitVec.ofInt 64 offset).toNat, detail := c }
    else s
  match t.state with
  | .locked => if -100 ≤ offset && offset ≤ 100 then s else { s with time := { s.time with state := .holdover, good := 0 } }
  | _ => if good ≥ 16 then s.lockTo master else s

end Sys2Proof.Machine
end

