-- ==== Sys2Proof/Machine/Crypto.lean ====
section
/-! DEFINITION. Sys2Proof/Machine/Crypto.lean: the digest and the signature check of grist images: SHA-384 (FIPS 180-4) and ECDSA over P-384
(FIPS 186-5), which R32 to R34 name. -/
namespace Sys2Proof.Machine

/-! ### SHA-384 -/

/-- The round constants, in four parts. -/
def sha384K0 : List (BitVec 64) :=
  [0x428A2F98D728AE22, 0x7137449123EF65CD, 0xB5C0FBCFEC4D3B2F, 0xE9B5DBA58189DBBC, 0x3956C25BF348B538,
   0x59F111F1B605D019, 0x923F82A4AF194F9B, 0xAB1C5ED5DA6D8118, 0xD807AA98A3030242, 0x12835B0145706FBE,
   0x243185BE4EE4B28C, 0x550C7DC3D5FFB4E2, 0x72BE5D74F27B896F, 0x80DEB1FE3B1696B1, 0x9BDC06A725C71235,
   0xC19BF174CF692694, 0xE49B69C19EF14AD2, 0xEFBE4786384F25E3, 0x0FC19DC68B8CD5B5, 0x240CA1CC77AC9C65]

def sha384K1 : List (BitVec 64) :=
  [0x2DE92C6F592B0275, 0x4A7484AA6EA6E483, 0x5CB0A9DCBD41FBD4, 0x76F988DA831153B5, 0x983E5152EE66DFAB,
   0xA831C66D2DB43210, 0xB00327C898FB213F, 0xBF597FC7BEEF0EE4, 0xC6E00BF33DA88FC2, 0xD5A79147930AA725,
   0x06CA6351E003826F, 0x142929670A0E6E70, 0x27B70A8546D22FFC, 0x2E1B21385C26C926, 0x4D2C6DFC5AC42AED,
   0x53380D139D95B3DF, 0x650A73548BAF63DE, 0x766A0ABB3C77B2A8, 0x81C2C92E47EDAEE6, 0x92722C851482353B]

def sha384K2 : List (BitVec 64) :=
  [0xA2BFE8A14CF10364, 0xA81A664BBC423001, 0xC24B8B70D0F89791, 0xC76C51A30654BE30, 0xD192E819D6EF5218,
   0xD69906245565A910, 0xF40E35855771202A, 0x106AA07032BBD1B8, 0x19A4C116B8D2D0C8, 0x1E376C085141AB53,
   0x2748774CDF8EEB99, 0x34B0BCB5E19B48A8, 0x391C0CB3C5C95A63, 0x4ED8AA4AE3418ACB, 0x5B9CCA4F7763E373,
   0x682E6FF3D6B2B8A3, 0x748F82EE5DEFB2FC, 0x78A5636F43172F60, 0x84C87814A1F0AB72, 0x8CC702081A6439EC]

def sha384K3 : List (BitVec 64) :=
  [0x90BEFFFA23631E28, 0xA4506CEBDE82BDE9, 0xBEF9A3F7B2C67915, 0xC67178F2E372532B, 0xCA273ECEEA26619C,
   0xD186B8C721C0C207, 0xEADA7DD6CDE0EB1E, 0xF57D4F7FEE6ED178, 0x06F067AA72176FBA, 0x0A637DC5A2C898A6,
   0x113F9804BEF90DAE, 0x1B710B35131C471B, 0x28DB77F523047D84, 0x32CAAB7B40C72493, 0x3C9EBE0A15C9BEBC,
   0x431D67C49C100D4C, 0x4CC5D4BECB3E42B6, 0x597F299CFC657E2A, 0x5FCB6FAB3AD6FAEC, 0x6C44198C4A475817]

def sha384K : List (BitVec 64) := sha384K0 ++ sha384K1 ++ sha384K2 ++ sha384K3

/-- The initial hash value. -/
def sha384H : List (BitVec 64) :=
  [0xCBBB9D5DC1059ED8, 0x629A292A367CD507, 0x9159015A3070DD17, 0x152FECD8F70E5939,
   0x67332667FFC00B31, 0x8EB44A8768581511, 0xDB0C2E0D64F98FA7, 0x47B5481DBEFA4FA4]

/-- The next word of the message schedule, from its last 16 words, oldest first. -/
def shaNext (w : List (BitVec 64)) : BitVec 64 :=
  let a := w.getD 1 0
  let b := w.getD 14 0
  w.getD 0 0 + (a.rotateRight 1 ^^^ a.rotateRight 8 ^^^ (a >>> 7)) + w.getD 9 0 + (b.rotateRight 19 ^^^ b.rotateRight 61 ^^^ (b >>> 6))

/-- The eight working variables. -/
structure ShaVars where
  a : BitVec 64
  b : BitVec 64
  c : BitVec 64
  d : BitVec 64
  e : BitVec 64
  f : BitVec 64
  g : BitVec 64
  h : BitVec 64
  deriving DecidableEq, Repr

/-- One round. -/
def ShaVars.round (v : ShaVars) (k w : BitVec 64) : ShaVars :=
  let t1 := v.h + (v.e.rotateRight 14 ^^^ v.e.rotateRight 18 ^^^ v.e.rotateRight 41) + ((v.e &&& v.f) ^^^ (~~~v.e &&& v.g)) + k + w
  let t2 := (v.a.rotateRight 28 ^^^ v.a.rotateRight 34 ^^^ v.a.rotateRight 39) + ((v.a &&& v.b) ^^^ (v.a &&& v.c) ^^^ (v.b &&& v.c))
  ⟨t1 + t2, v.a, v.b, v.c, v.d + t1, v.e, v.f, v.g⟩

/-- The rounds of a block: constants still to use, the 16 words that come next, and the variables. -/
def shaRounds : List (BitVec 64) → List (BitVec 64) → ShaVars → ShaVars
  | [], _, v => v
  | k :: r, w, v => shaRounds r (w.drop 1 ++ [shaNext w]) (v.round k (w.getD 0 0))

/-- A block of 128 bytes changes the hash value. -/
def shaBlock (h : ShaVars) (b : Bytes) : ShaVars :=
  let w := (List.range 16).map fun i => BitVec.ofNat 64 (beNat (slice b (8 * i) 8))
  let v := shaRounds sha384K w h
  ⟨h.a + v.a, h.b + v.b, h.c + v.c, h.d + v.d, h.e + v.e, h.f + v.f, h.g + v.g, h.h + v.h⟩

/-- All blocks of a padded message, `n` of them. -/
def shaBlocks : Nat → ShaVars → Bytes → ShaVars
  | 0, h, _ => h
  | n + 1, h, b => shaBlocks n (shaBlock h (b.take 128)) (b.drop 128)

/-- SHA-384 of a message: 48 bytes in the digest's order. -/
def sha384 (m : Bytes) : Bytes :=
  let padded := m ++ [0x80] ++ zeros ((112 + 128 - (m.length + 1) % 128) % 128) ++ toBE 16 (8 * m.length)
  let i := sha384H
  let h := shaBlocks (padded.length / 128) ⟨i.getD 0 0, i.getD 1 0, i.getD 2 0, i.getD 3 0, i.getD 4 0, i.getD 5 0, i.getD 6 0, i.getD 7 0⟩ padded
  [h.a, h.b, h.c, h.d, h.e, h.f].flatMap fun (x : BitVec 64) => toBE 8 x.toNat

/-! ### P-384 -/

def p384P : Nat := 2 ^ 384 - 2 ^ 128 - 2 ^ 96 + 2 ^ 32 - 1
def p384N : Nat := 0xFFFFFFFFFFFFFFFFFFFFFFFFFFFFFFFFFFFFFFFFFFFFFFFFC7634D81F4372DDF581A0DB248B0A77AECEC196ACCC52973
def p384B : Nat := 0xB3312FA7E23EE7E4988E056BE3F82D19181D9C6EFE8141120314088F5013875AC656398D8A2ED19D2A85C8EDD3EC2AEF
def p384Gx : Nat := 0xAA87CA22BE8B05378EB1C71EF320AD746E1D3B628BA79B9859F741E082542A385502F25DBF55296C3A545E3872760AB7
def p384Gy : Nat := 0x3617DE4A96262C6F5D9E98BF9292DC29F8F41DBD289A147CE9DA3113B5F0B8C00A60B1CE1D7E819D7A431D7C90EA0E5F

/-- The difference modulo `m`. -/
def subMod (m a b : Nat) : Nat := (a + (m - b % m)) % m

/-- The extended Euclidean algorithm with a bound on its steps: the remainders `r` and `q`, and the coefficients `t` and `u` of the second operand in
them, modulo `m`. -/
def euclid (m : Nat) : Nat → Nat → Nat → Nat → Nat → Nat
  | 0, _, _, t, _ => t
  | k + 1, r, q, t, u => if q == 0 then t else euclid m k q (r % q) u (subMod m t (r / q * u))

/-- The inverse modulo a prime below 2³⁸⁴ (of 0, it is 0): Euclid's algorithm takes at most 555 steps there. -/
def invMod (m a : Nat) : Nat := euclid m 560 m (a % m) 0 1

/-- A point of the curve in Jacobian coordinates: (x, y) is (X/Z², Y/Z³), and Z = 0 is the point at infinity. -/
structure EcPoint where
  x : Nat
  y : Nat
  z : Nat
  deriving DecidableEq, Repr

/-- Twice a point, for the curve's a = −3. -/
def EcPoint.double (p : EcPoint) : EcPoint :=
  let zz := p.z * p.z % p384P
  let yy := p.y * p.y % p384P
  let m := 3 * subMod p384P p.x zz * (p.x + zz) % p384P
  let s := 4 * p.x * yy % p384P
  let x := subMod p384P (m * m) (2 * s)
  ⟨x, subMod p384P (m * subMod p384P s x) (8 * yy * yy), 2 * p.y * p.z % p384P⟩

/-- The sum of two points. -/
def EcPoint.add (p q : EcPoint) : EcPoint :=
  if p.z == 0 then q
  else if q.z == 0 then p
  else
    let pp := p.z * p.z % p384P
    let qq := q.z * q.z % p384P
    let u := p.x * qq % p384P
    let s := p.y * qq * q.z % p384P
    let h := subMod p384P (q.x * pp) u
    let r := subMod p384P (q.y * pp * p.z) s
    if h == 0 then (if r == 0 then p.double else ⟨1, 1, 0⟩)
    else
      let hh := h * h % p384P
      let uh := u * hh % p384P
      let x := subMod p384P (r * r) (hh * h + 2 * uh)
      ⟨x, subMod p384P (r * subMod p384P uh x) (s * hh * h), h * p.z * q.z % p384P⟩

/-- A multiple of a point: the lowest `k` bits of `n`. -/
def EcPoint.mul : Nat → Nat → EcPoint → EcPoint
  | 0, _, _ => ⟨1, 1, 0⟩
  | k + 1, n, q =>
    let r := EcPoint.mul k (n / 2) q.double
    if n % 2 == 1 then q.add r else r

/-- The point lies on the curve and its coordinates are in range. -/
def onCurve (x y : Nat) : Bool := x < p384P && y < p384P && (y * y + 3 * x) % p384P == (x * x * x + p384B) % p384P

/-- ECDSA verification of a digest. -/
def ecdsaOk (digest : Bytes) (x y r s : Nat) : Bool :=
  if !(onCurve x y && 1 ≤ r && r < p384N && 1 ≤ s && s < p384N) then false
  else
    let e := beNat digest
    let w := invMod p384N s
    let v := (EcPoint.mul 384 (e * w % p384N) ⟨p384Gx, p384Gy, 1⟩).add (EcPoint.mul 384 (r * w % p384N) ⟨x, y, 1⟩)
    v.z != 0 && v.x * invMod p384P (v.z * v.z) % p384P % p384N == r

end Sys2Proof.Machine
end

