-- ==== Sys2Proof/Machine/GristImage.lean ====
section
/-! DEFINITION. Sys2Proof/Machine/GristImage.lean: grist images: layout, the format of every section, and the checks of a load in the order of their
error codes (02_grist_image, R27–R65, R68, R76, R82). -/
namespace Sys2Proof.Machine

/-! ### Layout (R27–R30) -/

/-- A directory entry, with the section's number. -/
structure Sec where
  idx : Nat
  typ : Nat
  part : Nat
  rsv : Nat
  off : Nat
  len : Nat
  crc : Nat
  deriving DecidableEq, Repr

/-- The directory's entries. -/
def imgSecs (b : Bytes) : List Sec :=
  (List.range (fieldAt b 0x14 2)).map fun i =>
    let e := slice b (0x40 + 16 * i) 16
    { idx := i, typ := fieldAt e 0 1, part := fieldAt e 1 1, rsv := fieldAt e 2 2, off := fieldAt e 4 4, len := fieldAt e 8 4, crc := fieldAt e 0xC 4 }

/-- A section's bytes. -/
def secBytes (b : Bytes) (e : Sec) : Bytes := slice b e.off e.len

def imgPartial (b : Bytes) : Bool := fieldAt b 6 1 == 1
def imgTarget (b : Bytes) : Nat := fieldAt b 7 1
def imgLen (b : Bytes) : Nat := fieldAt b 0xC 4

/-- What a check answers: nothing, or an error code with the section it belongs to. -/
abbrev Chk := Option (Nat × Option Nat)

/-- Fail with a code of no section. -/
def failIf (c : Bool) (code : Nat) : Chk := if c then some (code, none) else none

/-- Fail with the first section that breaks a test. -/
def failSec (l : List Sec) (code : Nat) (bad : Sec → Bool) : Chk := (l.find? bad).map fun e => (code, some e.idx)

/-- The first section of a list that lies out of its place: before the end of the one before it, unaligned, or beyond the signature block. -/
def badPlace (limit : Nat) : Nat → List Sec → Option Sec
  | _, [] => none
  | lo, e :: r => if e.off % 64 != 0 || e.off < lo || e.off + e.len > limit then some e else badPlace limit (e.off + e.len) r

/-- LENGTH (0x05): R27, R28 and the length the host gave. -/
def chkLength (b : Bytes) (hostLen : Option Nat) : Chk :=
  let n := imgLen b
  let dirEnd := 0x40 + 16 * fieldAt b 0x14 2
  if n % 64 != 0 || n > (if imgPartial b then 16 else 64) * 2 ^ 20 || (hostLen.any fun h => h != n) || b.length < n || dirEnd + 256 > n then some (5, none)
  else (badPlace (n - 256) dirEnd (imgSecs b)).map fun e => (5, some e.idx)

/-- The signed region, and the image hash (R32). -/
def imgSigned (b : Bytes) : Bytes := b.take (imgLen b - 256)
def imgSig (b : Bytes) : Bytes := slice b (imgLen b - 256) 256

/-- KEY (0x07): the signature block's form, and the key against its slot (R33, R34). -/
def chkKey (b : Bytes) (revoke : BitVec 4) : Bool :=
  let g := imgSig b
  let slot := fieldAt g 4 1
  fieldAt g 0 4 == 0x47495347 && allZero (slice g 5 3) && allZero (slice g 0xC8 56) && slot ≤ 3 && !revoke.getLsbD slot &&
    (match Config.fuseKeyHash slot with
     | some h => BitVec.ofNat 384 (leNat (sha384 (slice g 8 96))) == h
     | none => false)

/-- SIGNATURE (0x08). -/
def chkSignature (b : Bytes) : Bool :=
  let g := imgSig b
  ecdsaOk (sha384 (imgSigned b)) (fieldAt g 8 48) (fieldAt g 0x38 48) (fieldAt g 0x68 48) (fieldAt g 0x98 48)

/-- A section type's scope and partition byte (R37, R38). -/
def secTypeOk (b : Bytes) (l : List Sec) (e : Sec) : Bool :=
  1 ≤ e.typ && e.typ ≤ 8 && (if e.typ ≤ 2 then e.part == 0xFF else e.part ≤ 31) && (!imgPartial b || e.part == imgTarget b) &&
    (e.typ ≤ 3 || l.any fun q => q.typ == 3 && q.part == e.part)

/-! ### Formats (R39) -/

/-- Every entry of a section of entries of `w` bytes, 1 to `n` of them. -/
def entriesOk (b : Bytes) (w n : Nat) (ok : Bytes → Bool) : Bool :=
  b.length % w == 0 && 1 ≤ b.length / w && b.length / w ≤ n && (List.range (b.length / w)).all fun i => ok (slice b (w * i) w)

def tileDivOk (v : Nat) : Bool := v == 4 || v == 5 || v == 6

/-- CLOCK (R40). -/
def fmtClock (b : Bytes) : Bool :=
  b.length == 64 && tileDivOk (fieldAt b 0 1) && (fieldAt b 1 1 == 2 || fieldAt b 1 1 == 3) && (fieldAt b 2 1 == 12 || fieldAt b 2 1 == 16) &&
    fieldAt b 3 1 < 8 && 600 ≤ fieldAt b 4 2 && fieldAt b 4 2 ≤ 1450 && fieldAt b 6 2 ≤ 1000 &&
    ((slice b 8 32).all fun v => v == 0 || tileDivOk v.toNat) && allZero (slice b 0x28 24)

/-- FABRIC (R43). -/
def fmtFabric (b : Bytes) : Bool :=
  entriesOk b 8 128 fun e => fieldAt e 0 1 ≤ 127 && fieldAt e 1 1 ≤ 7 && fieldAt e 2 1 ≤ 15 && fieldAt e 3 1 ≤ 3 && fieldAt e 4 1 ≤ 1 &&
    (fieldAt e 5 1 ≤ 31 || fieldAt e 5 1 == 0xFE) && fieldAt e 6 2 == 0

/-- A name: ASCII, padded with 0. -/
def nameOk (n : Bytes) : Bool := n.all (· < 0x80) && allZero (n.dropWhile (· != 0))

/-- Where a PARTITION section's extent entries start (R45). -/
def partMemAt (t : Nat) : Nat := alignUp (0x30 + 2 * t) 8

/-- PARTITION (R45, R48, R51). -/
def fmtPartition (b : Bytes) : Bool :=
  let t := fieldAt b 2 1
  let m := fieldAt b 0x28 2
  let f := fieldAt b 0x2A 2
  let mo := partMemAt t
  fieldAt b 0 1 ≤ 31 && fieldAt b 1 1 ≤ 7 && 1 ≤ t && t ≤ 96 && fieldAt b 3 1 == 0 && nameOk (slice b 4 16) && m ≤ 256 && f ≤ 64 &&
    fieldAt b 0x2C 4 == 0 && b.length == mo + 8 * m + 16 * f &&
    ((List.range t).all fun i => fieldAt b (0x30 + 2 * i) 2 < 2 ^ 14) &&
    ((List.range m).all fun i => let e := slice b (mo + 8 * i) 8
      fieldAt e 0 1 ≤ 15 && fieldAt e 1 1 ≤ 1 && 1 ≤ fieldAt e 4 2 && fieldAt e 4 2 ≤ 96 && fieldAt e 6 2 == 0) &&
    ((List.range f).all fun i => let e := slice b (mo + 8 * m + 16 * i) 16
      fieldAt e 2 1 ≤ 1 && fieldAt e 3 1 ≤ 1 && 1 ≤ fieldAt e 4 4 && fieldAt e 8 1 ≤ 2 && allZero (slice e 9 7))

/-- ROUTE (R53). -/
def fmtRoute (b : Bytes) : Bool :=
  entriesOk b 8 4096 fun e => fieldAt e 0 1 ≤ 103 && fieldAt e 1 1 ≤ 103 && (fieldAt e 3 1 ≤ 95 || fieldAt e 3 1 == 0xFF) && fieldAt e 4 4 == 0

/-- QUEUE (R56). -/
def fmtQueue (b : Bytes) : Bool :=
  entriesOk b 16 256 fun e => fieldAt e 2 1 ≤ 7 && 4 ≤ fieldAt e 3 1 && fieldAt e 3 1 ≤ 16 && 6 ≤ fieldAt e 4 1 && fieldAt e 4 1 ≤ 12 &&
    (fieldAt e 5 1 ≤ 95 || fieldAt e 5 1 == 0xFF) && 50 ≤ fieldAt e 6 1 && fieldAt e 6 1 ≤ 100 && fieldAt e 7 1 == 0 && fieldAt e 0xC 4 == 0

/-- TENANT (R58). -/
def fmtTenant (b : Bytes) : Bool :=
  entriesOk b 16 256 fun e => fieldAt e 3 1 < 16 && 1 ≤ fieldAt e 4 2 && (fieldAt e 6 1 ≤ 63 || fieldAt e 6 1 == 0xFF) && allZero (slice e 7 9)

/-- PROGRAM (R60). -/
def fmtProgram (b : Bytes) : Bool :=
  let a := fieldAt b 0x18 4
  1 ≤ fieldAt b 0 2 && fieldAt b 2 2 == 0 && fieldAt b 4 4 % 8 == 0 && fieldAt b 8 4 % 8 == 0 && fieldAt b 0xC 4 % 8 == 0 && 1 ≤ a && a ≤ 96 &&
    fieldAt b 0x1C 4 == 0 && b.length == 0x20 + 8 * a + fieldAt b 4 4 + fieldAt b 8 4 &&
    (List.range a).all fun i => let e := slice b (0x20 + 8 * i) 8
      fieldAt e 1 1 == 0 && fieldAt e 4 2 < 2 ^ 9 && fieldAt e 6 2 == 0

/-- SERVICE (R63). -/
def fmtService (b : Bytes) : Bool :=
  let n := fieldAt b 0x1B 1
  fieldAt b 0 1 ≤ 63 && fieldAt b 1 1 ≤ 4 && 1 ≤ fieldAt b 0xA 2 && fieldAt b 0xA 2 ≤ 4096 && 1 ≤ fieldAt b 0xC 2 && fieldAt b 0xC 2 ≤ 1024 &&
    fieldAt b 0xE 2 ≤ 1024 && fieldAt b 0x1A 1 < 8 && 1 ≤ n && n ≤ 16 && fieldAt b 0x1C 4 == 0 && b.length == 0x20 + 4 * n &&
    (List.range n).all fun i => let e := slice b (0x20 + 4 * i) 4
      1 ≤ fieldAt e 0 1 && fieldAt e 0 1 ≤ 10 && fieldAt e 1 1 < 2

/-- SECTION_FORMAT (0x0C) of one section. -/
def secFormatOk (b : Bytes) (e : Sec) : Bool :=
  let v := secBytes b e
  e.rsv == 0 && (match e.typ with
    | 1 => fmtClock v | 2 => fmtFabric v | 3 => fmtPartition v | 4 => fmtRoute v | 5 => fmtQueue v | 6 => fmtTenant v | 7 => fmtProgram v
    | _ => fmtService v)

/-! ### Parsing -/

def parseClock (b : Bytes) : ClockDef :=
  { tileDiv := fieldAt b 0 1, meshDiv := fieldAt b 1 1, flashDiv := fieldAt b 2 1, gating := BitVec.ofNat 3 (fieldAt b 3 1), cap := fieldAt b 4 2,
    calUs := fieldAt b 6 2, partDiv := (slice b 8 32).map BitVec.toNat }

/-- The entries of a section of entries of `w` bytes. -/
def entriesOf {α : Type} (b : Bytes) (w : Nat) (f : Bytes → α) : List α := (List.range (b.length / w)).map fun i => f (slice b (w * i) w)

def parseChan (e : Bytes) : ChanDef := ⟨fieldAt e 0 1, fieldAt e 1 1, fieldAt e 2 1, fieldAt e 3 1, fieldAt e 4 1 == 1, fieldAt e 5 1⟩
def parseMem (e : Bytes) : MemExt := ⟨fieldAt e 0 1, fieldAt e 1 1 == 1, fieldAt e 2 2, fieldAt e 4 2⟩
def parseFlash (e : Bytes) : FlashExt := ⟨fieldAt e 0 2, fieldAt e 2 1 == 1, fieldAt e 3 1 == 1, fieldAt e 4 4, fieldAt e 8 1⟩
def parseRoute (e : Bytes) : Route := ⟨fieldAt e 0 1, fieldAt e 1 1, BitVec.ofNat 8 (fieldAt e 2 1), fieldAt e 3 1⟩
def parseQueue (e : Bytes) : QueueDef :=
  ⟨fieldAt e 0 2, fieldAt e 2 1, fieldAt e 3 1, fieldAt e 4 1, fieldAt e 5 1, fieldAt e 6 1, fieldAt e 8 4⟩
def parseBinding (e : Bytes) : Binding := ⟨fieldAt e 0 1, fieldAt e 2 1, BitVec.ofNat 4 (fieldAt e 3 1), fieldAt e 4 2, fieldAt e 6 1⟩

def parseProgram (b : Bytes) : Program :=
  let a := fieldAt b 0x18 4
  let c := 0x20 + 8 * a
  { id := fieldAt b 0 2, code := slice b c (fieldAt b 4 4), data := slice b (c + fieldAt b 4 4) (fieldAt b 8 4), zeroed := fieldAt b 0xC 4, entry := fieldAt b 0x10 8,
    assigns := (List.range a).map fun i => let e := slice b (0x20 + 8 * i) 8
      { tile := fieldAt e 0 1, ctxMask := BitVec.ofNat 16 (fieldAt e 2 2), coreMask := BitVec.ofNat 9 (fieldAt e 4 2) : Assign } }

def parseService (b : Bytes) : Service :=
  { index := fieldAt b 0 1, kind := fieldAt b 1 1, reqQ := fieldAt b 2 2, updQ := fieldAt b 4 2, ansQ := fieldAt b 6 2, entryProg := fieldAt b 8 2,
    maxK := fieldAt b 0xA 2, beam := fieldAt b 0xC 2, widen := fieldAt b 0xE 2, defBudget := fieldAt b 0x10 4, ceiling := fieldAt b 0x14 4,
    nvme := fieldAt b 0x18 2, dist := BitVec.ofNat 3 (fieldAt b 0x1A 1),
    stages := (List.range (fieldAt b 0x1B 1)).map fun i => let e := slice b (0x20 + 4 * i) 4
      { code := fieldAt e 0 1, optional := fieldAt e 1 1 == 1, program := fieldAt e 2 2 : Stage } }

/-- Tiles of a mask of 12 bytes, ascending. -/
def maskTiles (v : Nat) : List Nat := (List.range 96).filter (bitOf v ·)

/-- A partition from its sections. -/
def parsePart (b : Bytes) (l : List Sec) (e : Sec) : Part :=
  let v := secBytes b e
  let t := fieldAt v 2 1
  let mo := partMemAt t
  let m := fieldAt v 0x28 2
  let mine (k : Nat) : List Bytes := (l.filter fun q => q.typ == k && q.part == e.part).map (secBytes b)
  { num := e.part, prio := fieldAt v 1 1, name := slice v 4 16, seed := BitVec.ofNat 64 (fieldAt v 0x20 8),
    tiles := (List.zipIdx (maskTiles (fieldAt v 0x14 12))).map fun x => (x.1, BitVec.ofNat 14 (fieldAt v (0x30 + 2 * x.2) 2)),
    mem := (List.range m).map fun i => parseMem (slice v (mo + 8 * i) 8),
    flash := (List.range (fieldAt v 0x2A 2)).map fun i => parseFlash (slice v (mo + 8 * m + 16 * i) 16),
    routes := (mine 4).flatMap fun x => entriesOf x 8 parseRoute, queues := (mine 5).flatMap fun x => entriesOf x 16 parseQueue,
    tenants := (mine 6).flatMap fun x => entriesOf x 16 parseBinding, programs := (mine 7).map parseProgram, services := (mine 8).map parseService }

/-- The image that checked bytes spell. -/
def parseImage (b : Bytes) : Image :=
  let l := imgSecs b
  { partial_ := imgPartial b, target := imgTarget b, id := BitVec.ofNat 64 (fieldAt b 0x18 8), base := BitVec.ofNat 64 (fieldAt b 0x20 8),
    hash := BitVec.ofNat 384 (leNat (sha384 (imgSigned b))),
    clock := ((l.find? (·.typ == 1)).map fun e => parseClock (secBytes b e)).getD {},
    chans := (l.filter (·.typ == 2)).flatMap fun e => entriesOf (secBytes b e) 8 parseChan,
    parts := (l.filter (·.typ == 3)).map (parsePart b l) }

/-! ### The codes 0x0D to 0x17 -/

/-- How many sections of a type one scope may hold (R37). -/
def countLimit (partial_ : Bool) (t : Nat) : Nat :=
  if t == 7 then 64 else if t == 8 then 16 else if partial_ && (t == 1 || t == 2) then 0 else 1

/-- A section goes past the count of its type and scope, counting in directory order. -/
def overCount (b : Bytes) (l : List Sec) (e : Sec) : Bool :=
  (l.filter fun q => q.typ == e.typ && q.part == e.part && q.idx ≤ e.idx).length > countLimit (imgPartial b) e.typ

/-- A section that R37 asks for is there: the node-wide ones, a partition, and each partition's queues. -/
def countsMet (b : Bytes) (l : List Sec) : Bool :=
  (imgPartial b || l.any (·.typ == 1) && l.any (·.typ == 2)) && l.any (·.typ == 3) &&
    (l.filter (·.typ == 3)).all fun e => l.any fun q => q.typ == 5 && q.part == e.part

/-- Two memory extents share a byte. -/
def MemExt.meets (a b : MemExt) : Bool := a.stack == b.stack && a.base < b.base + b.len && b.base < a.base + a.len

/-- An extent's own place (R48, R49). -/
def MemExt.placed (e : MemExt) : Bool := (!e.scan || 8 ≤ e.stack) && e.base + e.len ≤ (if e.stack < 8 then 88 else 96)

/-- No two entries of a list satisfy a relation. -/
def pairFree {α : Type} (r : α → α → Bool) : List α → Bool
  | [] => true
  | x :: l => !l.any (r x) && pairFree r l

/-- What a load is checked against: the partitions that stay, and the target's current definition (R76). -/
structure Against where
  others : List Part
  cur : Option Part
  partial_ : Bool
  alloc : Nat
  deriving DecidableEq, Repr

/-- A partition's tiles as a section gives them: the mask, the count and the owners. -/
def ownOk (g : Against) (b : Bytes) (ps : List Part) (l : List Sec) (e : Sec) : Bool :=
  let v := secBytes b e
  match ps.find? (·.num == e.part) with
  | none => true
  | some p =>
    match e.typ with
    | 3 =>
      fieldAt v 0 1 == e.part && p.tiles.length == fieldAt v 2 1 &&
        !p.tiles.any (fun t => g.others.any (·.owns t.1)) &&
        !p.tiles.any (fun t => (l.filter fun q => q.typ == 3 && q.idx < e.idx).any fun q => ps.any fun o => o.num == q.part && o.owns t.1)
    | 4 => (entriesOf v 8 parseRoute).all fun r => (r.src ≥ 96 || p.owns r.src) && (r.src < 96 || r.dst ≥ 96 || p.owns r.dst)
    | 5 => (entriesOf v 16 parseQueue).all fun q => q.home == 0xFF || p.owns q.home
    | 7 => (parseProgram v).assigns.all fun a => p.owns a.tile
    | _ => true

/-- The partitions whose section of the same type stands earlier in the directory: of two sections that clash the later one is reported
(assumption 122). -/
def partsBefore (l : List Sec) (ps : List Part) (e : Sec) : List Part :=
  ps.filter fun o => l.any fun q => q.typ == e.typ && q.part == o.num && q.idx < e.idx

/-- MEMORY (0x0F): R48, R49, R76. -/
def memOk (g : Against) (bef : List Part) (p : Part) : Bool :=
  p.mem.all MemExt.placed && pairFree MemExt.meets p.mem &&
    !p.mem.any (fun e => bef.any fun o => o.mem.any e.meets) &&
    !p.mem.any (fun e => g.others.any fun o => o.mem.any e.meets) &&
    (match g.cur with
     | some c => p.mem.all fun e => c.mem.any (· == e) || !c.mem.any e.meets
     | none => true)

/-- Gigabytes of flash that partitions define. -/
def flashGB (ps : List Part) : Nat := (ps.flatMap fun p => p.flash.map (·.sizeGB)).sum

/-- FLASH (0x10): R51, R76, R526, and the sum of R52 over the partitions so far. -/
def flashOk (g : Against) (bef : List Part) (p : Part) : Bool :=
  flashGB (g.others ++ bef ++ [p]) ≤ g.alloc &&
  pairFree (fun (a b : FlashExt) => a.id == b.id) p.flash && p.flash.all (fun e => e.nvme || !e.blk4k) &&
    !p.flash.any (fun e => p.num == 31 && e.nvme && 0xFFFE ≤ e.id) &&
    (match g.cur with
     | some c => p.flash.all fun e => (c.flash.find? (·.id == e.id)).all fun o => o.sizeGB == e.sizeGB && o.nvme == e.nvme
     | none => true)

/-- FABRIC (0x11): R43, R44. -/
def fabricOk (ps : List Part) (cs : List ChanDef) : Bool :=
  pairFree (fun (a b : ChanDef) => a.ch == b.ch) cs && cs.all (fun c => c.first % 2 ^ c.width == 0) &&
    pairFree (fun (a b : ChanDef) => a.engine == b.engine && a.first < b.first + 2 ^ b.width && b.first < a.first + 2 ^ a.width) cs &&
    cs.all fun c => c.owner == 0xFE || ps.any (·.num == c.owner)

/-- ROUTE (0x12): R53–R55. -/
def routeOk (rs : List Route) : Bool :=
  rs.all (fun r => (r.waypoint == 0xFF || (r.waypoint != r.src && r.waypoint != r.dst)) && (r.dst < 96 || r.waypoint == 0xFF) && (r.src < 96 || r.dst < 96)) &&
    pairFree (fun (a b : Route) => a.src == b.src && a.dst == b.dst && a.classes &&& b.classes != 0) rs &&
    rs.all fun r => (rs.filter (·.src == r.src)).length ≤ 256

/-- CLOCK (0x13): the pairs of R41. -/
def pairClock (mesh tile : Nat) : Bool := if mesh == 3 then tile != 4 else tile != 6
def clockOk (c : ClockDef) : Bool := pairClock c.meshDiv c.tileDiv && c.partDiv.all fun d => d == 0 || pairClock c.meshDiv d

/-- Bytes of a queue's storage. -/
def QueueDef.span (q : QueueDef) : Nat := 2 ^ (q.depth + q.esize)

/-- QUEUE (0x14): R56, R57. -/
def queuesOk (p : Part) : Bool :=
  pairFree (fun (a b : QueueDef) => a.id == b.id) p.queues &&
    p.queues.all (fun q => if q.home == 0xFF then q.off + q.span ≤ min (2 ^ 32) (((p.mem.filter (!·.scan)).map (·.len)).sum * 2 ^ 30)
      else 0x100000 ≤ q.off && q.off + q.span ≤ 0x400000) &&
    pairFree (fun (a b : QueueDef) => a.home == b.home && a.off < b.off + b.span && b.off < a.off + a.span) p.queues

/-- TENANT (0x15): R58, R59. -/
def tenantsOk (g : Against) (b : Bytes) (bef : List Part) (p : Part) (e : Sec) : Bool :=
  let v := secBytes b e
  (entriesOf v 16 fun x => fieldAt x 1 1).all (· == p.num) && p.tenants.all (fun t => p.services.any (·.index == t.service)) &&
    pairFree (fun (a c : Binding) => a.tenant == c.tenant && a.service == c.service) p.tenants &&
    !p.tenants.any (fun t => (g.others ++ bef).any fun o => o.tenants.any fun u => u.tenant == t.tenant && u.service == t.service) &&
    p.services.all fun s =>
      let n := ((p.tenants.filter (·.service == s.index)).map (·.limit)).sum
      n ≤ (match p.queues.find? (fun q => q.id == s.reqQ && s.kind != 4) with | some q => 2 ^ q.depth | none => 0)

/-- PROGRAM (0x16): R60–R62, over the partition's programs so far. -/
def programsOk (p : Part) : Bool :=
  pairFree (fun (a b : Program) => a.id == b.id) p.programs && p.programs.all (fun g => g.entry < g.code.length) &&
    p.tiles.all fun t =>
      let on := p.programs.filter fun g => g.assigns.any (·.tile == t.1)
      (on.map (·.code.length)).sum ≤ 2 ^ 20 &&
        (List.range 9).all fun c =>
          let here := p.programs.filter fun g => g.assigns.any fun a => a.tile == t.1 && a.coreMask.getLsbD c
          (here.map fun g => g.data.length + g.zeroed).sum ≤ 192 * 1024 &&
            pairFree (fun (a b : BitVec 16) => a &&& b != 0)
              (p.programs.flatMap fun g => (g.assigns.filter fun a => a.tile == t.1 && a.coreMask.getLsbD c).map (·.ctxMask))

/-- Every stage comes after what R64 asks for. -/
def stageOrderOk : List Nat → List Stage → Bool
  | _, [] => true
  | seen, s :: r =>
    (s.code != 3 || seen.contains 2) && (s.code != 4 || seen.contains 3) && (s.code != 5 || seen.contains 4 || seen.contains 2) &&
      stageOrderOk (s.code :: seen) r

/-- SERVICE (0x17): R63–R65. -/
def serviceOk (g : Against) (used : List Nat) (p : Part) (s : Service) : Bool :=
  let q (id kind : Nat) : Option QueueDef := p.queues.find? fun x => x.id == id && x.kind == kind
  let prog (id : Nat) : Bool := p.programs.any (·.id == id)
  let fixed (c : Nat) : Bool := c == 3 || c == 5 || c == 8 || c == 9
  !used.contains s.index && (g.others.all fun o => !o.services.any (·.index == s.index)) &&
    s.stages.all (fun x => if fixed x.code then x.program == 0 else prog x.program) &&
    (if s.kind == 4 then
      s.reqQ == 0xFFFF && s.updQ == 0xFFFF && s.ansQ == 0xFFFF && s.nvme == 0xFFFF &&
        (match s.stages with | [x] => x.code == 10 && s.entryProg == x.program | _ => false)
    else
      s.beam ≤ s.widen && prog s.entryProg && ((s.stages.getLast?).map (·.code)) == some 8 && stageOrderOk [] s.stages &&
        (s.updQ == 0xFFFF && s.kind != 1 || (q s.updQ 1).isSome) &&
        (match q s.reqQ 0, q s.ansQ 2 with
         | some a, some b => a.depth ≤ b.depth && alignUp (96 + 12 * s.maxK) 8 ≤ 2 ^ b.esize
         | _, _ => false))

/-- Fail with the first section of a type whose partition breaks a test. -/
def failPartSec (l : List Sec) (ps : List Part) (t code : Nat) (bad : Sec → Part → Bool) : Chk :=
  failSec l code fun e => e.typ == t && (ps.find? (·.num == e.part)).any (bad e)

/-- The programs of a partition's sections up to one. -/
def programsTo (b : Bytes) (l : List Sec) (e : Sec) : List Program :=
  (l.filter fun q => q.typ == 7 && q.part == e.part && q.idx ≤ e.idx).map fun q => parseProgram (secBytes b q)

/-- The service indices of the sections before one. -/
def servicesBefore (b : Bytes) (l : List Sec) (e : Sec) : List Nat :=
  (l.filter fun q => q.typ == 8 && q.idx < e.idx).map fun q => (parseService (secBytes b q)).index

/-- The first check of a list that fails. -/
def firstFail (l : List (Unit → Chk)) : Chk := l.findSome? fun f => f ()

/-- Every check of R68 after SOURCE, in ascending order of code; `runId` is the running image's id, which a partial image must name. -/
def checkImage (b : Bytes) (hostLen : Option Nat) (revoke : BitVec 4) (svn : Nat) (g : Against) (runId : BitVec 64) : Chk :=
  let l := imgSecs b
  let im := parseImage b
  let ps := im.parts
  let part := imgPartial b
  firstFail [
    fun _ => failIf (fieldAt b 0 4 != 0x54535247) 2,
    fun _ => failIf (crc32c (b.take 0x3C) != fieldAt b 0x3C 4) 3,
    fun _ => failIf (fieldAt b 4 2 != 2 || fieldAt b 6 1 > 1 || (if part then imgTarget b > 31 else imgTarget b != 0xFF) || fieldAt b 8 2 != 0xB1 ||
        fieldAt b 0x10 4 != 0x40 || fieldAt b 0x14 2 == 0 || fieldAt b 0x14 2 > 1024 || (!part && fieldAt b 0x20 8 != 0) || fieldAt b 0x16 2 != 0 ||
        fieldAt b 0x38 4 != 0) 4,
    fun _ => chkLength b hostLen,
    fun _ => failIf (crc32c (slice b 0x40 (16 * fieldAt b 0x14 2)) != fieldAt b 0x34 4) 6,
    fun _ => failIf (!chkKey b revoke) 7,
    fun _ => failIf (!chkSignature b) 8,
    fun _ => failIf (fieldAt b 0xA 2 < svn) 9,
    fun _ => failSec l 0xA fun e => crc32c (secBytes b e) != e.crc,
    fun _ => failSec l 0xB fun e => !secTypeOk b l e,
    fun _ => failSec l 0xC fun e => !secFormatOk b e,
    fun _ => failSec l 0xD fun e => overCount b l e,
    fun _ => failIf (!countsMet b l) 0xD,
    fun _ => failSec l 0xE fun e => !ownOk g b ps l e,
    fun _ => failPartSec l ps 3 0xF fun e p => !memOk g (partsBefore l ps e) p,
    fun _ => failPartSec l ps 3 0x10 fun e p => !flashOk g (partsBefore l ps e) p,
    fun _ => if !part && !fabricOk ps im.chans then some (0x11, (l.find? (·.typ == 2)).map (·.idx)) else none,
    fun _ => failPartSec l ps 4 0x12 fun _ p => !routeOk p.routes,
    fun _ => if !part && !clockOk im.clock then some (0x13, (l.find? (·.typ == 1)).map (·.idx)) else none,
    fun _ => failPartSec l ps 5 0x14 fun _ p => !queuesOk p,
    fun _ => failPartSec l ps 6 0x15 fun e p => !tenantsOk g b (partsBefore l ps e) p e,
    fun _ => failPartSec l ps 7 0x16 fun e p => !programsOk { p with programs := programsTo b l e },
    fun _ => failPartSec l ps 8 0x17 fun e p => !serviceOk g (servicesBefore b l e) p (parseService (secBytes b e)),
    fun _ => failIf (part && im.base != runId) 0x18]

end Sys2Proof.Machine
end

