-- ==== Sys2Proof/Machine/NvmeOps.lean ====
section
/-! DEFINITION. Sys2Proof/Machine/NvmeOps.lean: host port resets, the controller's admin commands, the memory namespace and Execute Program
(R516–R537). What R521–R523 leave to NVMe 2.1 is PRESUMED from it (assumption 30). -/
namespace Sys2Proof.Machine

/-! ### Link and controller (R516, R517, R522, R525) -/

/-- Configuration space goes back to its reset state (R517). -/
def State.clearConfig (s : State) : State := { s with host := { s.host with msixEnabled := false, d3 := false } }

/-- The MSI-X tables go back to their reset state (R517). -/
def State.clearMsix (s : State) : State := { s with host := { s.host with msix := [], pba := [] } }

/-- PERST_N, hot reset or link down (R517). -/
def State.hostReset (s : State) : State :=
  let down := s.host.speed != 0
  let s := ((s.clearNvme false).clearConfig).clearMsix
  let s := { s with host := { s.host with speed := 0, width := 0, flit := false } }
  if down then (s.hostErr 4 |> fun s => { s with host := { s.host with linkDn := s.host.linkDn + 1 } }) else s

/-- A write of CC (R522, R524, R525): what its EN and SHN fields ask for. -/
def State.ccWrite (s : State) (w : BitVec 32) : State :=
  let old := s.host.nvme.cc
  let s := s.modNvme fun n => { n with cc := w }
  if old.getLsbD 0 && !w.getLsbD 0 then s.clearNvme true
  else
    let s := if w.getLsbD 0 then s.nvmeReady else s
    if bitsOf w.toNat 15 14 != 0 && bitsOf old.toNat 15 14 == 0 then
      (s.modNvme fun n => { n with shst := 1, shutAt := s.time.up }).shutCheck
    else s

/-- 100 ms after a shutdown request it is complete, and what is outstanding is treated as after a clear (R525). -/
def State.shutTimeout (s : State) : State :=
  if s.host.nvme.shst != 1 then s
  else
    let s := s.advanceTo (s.host.nvme.shutAt + 100000000)
    (s.discardNvme none).modNvme fun n => { n with shst := 2, cmds := [], aers := [] }

/-! ### Admin commands (R523) -/

/-- Take the next admin command and complete it with what `f` answers: the state, dword 0 and status. -/
def State.admin (s : State) (cid : BitVec 16) (f : State → State × Nat × Nat) : State :=
  match s.fetch 0 with
  | none => s
  | some s =>
    let (s, dw0, st) := f s
    (s.postCqe 0 cid dw0 0 st).shutCheck

/-- I/O queues that the controller supports (R522). -/
def ioQueues : Nat := 128

def State.createSq (s : State) (qid size cq base : Nat) (pc : Bool) : State × Nat × Nat :=
  if qid == 0 || qid > ioQueues || (s.sq? qid).isSome then (s, 0, nvQidInvalid)
  else if size == 0 then (s, 0, nvQSizeBad)
  else if !pc then (s, 0, nvBadField)
  else if cq == 0 || (s.cq? cq).isNone then (s, 0, nvCqInvalid)
  else (s.modNvme fun n => { n with sqs := n.sqs ++ [{ id := qid, cq := cq, size := size + 1, base := base }] }, 0, nvOk)

def State.createCq (s : State) (qid size base iv : Nat) (ien pc : Bool) : State × Nat × Nat :=
  if qid == 0 || qid > ioQueues || (s.cq? qid).isSome then (s, 0, nvQidInvalid)
  else if size == 0 then (s, 0, nvQSizeBad)
  else if !pc then (s, 0, nvBadField)
  else if iv > 128 then (s, 0, nvVectorBad)
  else (s.modNvme fun n => { n with cqs := n.cqs ++ [{ id := qid, size := size + 1, base := base, ien := ien, vector := iv }] }, 0, nvOk)

/-- Delete I/O Submission Queue: its fetched commands are abandoned (R523, R524). -/
def State.deleteSq (s : State) (qid : Nat) : State × Nat × Nat :=
  if qid == 0 || (s.sq? qid).isNone then (s, 0, nvQidInvalid)
  else
    let s := s.discardNvme (some qid)
    (s.modNvme fun n => { n with sqs := n.sqs.filter (·.id != qid), cmds := n.cmds.filter (·.sq != qid) }, 0, nvOk)

def State.deleteCq (s : State) (qid : Nat) : State × Nat × Nat :=
  if qid == 0 || (s.cq? qid).isNone then (s, 0, nvQidInvalid)
  else if s.host.nvme.sqs.any (·.cq == qid) then (s, 0, nvQDelete)
  else (s.modNvme fun n => { n with cqs := n.cqs.filter (·.id != qid) }, 0, nvOk)

/-- The compute and memory namespaces (R526). -/
def computeNs : Nat := 2097151
def memoryNs : Nat := 2097152

/-- NSIDs of the storage namespaces, ascending. -/
def State.nvmNsids (s : State) : List Nat :=
  (s.grist.parts.flatMap fun p => (p.flash.filter (·.nvme)).map fun e => p.num * 65536 + e.id + 1).foldl insNat []

/-- Every active NSID, ascending. -/
def State.activeNs (s : State) : List Nat := (s.nvmNsids.foldl insNat [computeNs, memoryNs])

/-- An Identify structure of 4,096 bytes: the fields the spec gives over bytes it leaves open (R418, R521, R523; assumption 38). -/
def identifyPage (cns csi : Nat) (known : List (Nat × Bytes)) : Bytes :=
  (List.range 4096).map fun i =>
    match known.find? fun e => e.1 ≤ i && i < e.1 + e.2.length with
    | some e => nth e.2 (i - e.1) 0
    | none => Config.identifyByte cns csi i

/-- A list of NSIDs as 1,024 four-byte entries. -/
def nsList (l : List Nat) : Bytes := let b := ((l.take 1024).map (toLE 4)).flatten; b ++ zeros (4096 - b.length)

/-- Identify (R523). -/
def State.identify (s : State) (cns csi nsid : Nat) : Option Bytes :=
  match cns with
  | 0x00 => if csi != 0 then none else (s.nsOf nsid).map fun (_, e) =>
      identifyPage 0 0 [(0, toLE 8 e.lbas), (8, toLE 8 e.lbas), (25, [0]), (26, [0]), (27, [0]), (29, [0]), (128, toLE 2 0 ++ [if e.blk4k then 12 else 9])]
  | 0x01 => some (identifyPage 1 0 [(84, toLE 4 5000000), (88, toLE 4 100000), (259, [7]), (516, toLE 4 2097152), (520, toLE 2 0x8C), (525, [0])])
  | 0x02 => some (nsList (s.activeNs.filter (· > nsid)))
  | 0x05 | 0x06 | 0x07 | 0x08 | 0x1C => some (identifyPage cns csi [])
  | _ => none

/-- The vendor log page 0xC1 (R422). -/
def State.vendorLog (s : State) : Bytes :=
  let car (c : Nat) : Bytes :=
    let k := s.carrier c
    toLE 8 ((k.ident.map (·.serial.toNat)).getD 0) ++ toLE 1 k.state.code ++ [0] ++ toLE 2 (s.meanWear100 c / 12000) ++ toLE 4 (s.meanWear100 c / 100) ++
      toLE 4 (s.maxWear c) ++ toLE 4 k.retired ++ toLE 4 (s.spareLeft * 10 ^ 9 / (2560 * 16384) / 8) ++ zeros 4 ++ toLE 8 k.pagesRead.toNat ++
      toLE 8 k.pagesProg.toNat ++ toLE 8 k.erased.toNat ++ zeros 8
  let members := ((List.range 8).map fun c => if (s.carrier c).state == .online then 2 ^ c else 0).sum
  toLE 2 1 ++ toLE 1 s.fls.state.code ++ toLE 1 members ++ zeros 4 ++ toLE 8 s.spareLeft ++ toLE 1 s.sparePct ++ zeros 7 ++
    toLE 8 s.media.bytesStaged ++ toLE 8 s.media.bytesProg ++ zeros 24 ++ ((List.range 8).map car).flatten ++
    ((List.range 16).map fun i => toLE 8 (if i == 15 then 0 else s.media.errCounts.get 0 i)).flatten ++ zeros 64 ++
    ((List.range (44 * 64)).map fun i => toLE 4 (s.mod.hist.get 0 i)).flatten

/-- The SMART / Health Information log (R421); fields it does not list are open. -/
def State.smartLog (s : State) : Bytes :=
  let kelvin := unsignedOf 16 (s.hotCarrier + 273)
  let used := min 255 (((List.range 8).map fun c => s.meanWear100 c / 12000).foldl max 0)
  let known : List (Nat × Bytes) :=
    [(0, toLE 1 s.critWarn), (1, toLE 2 kelvin), (3, toLE 1 s.sparePct), (4, [10]), (5, toLE 1 used),
     (32, toLE 16 (ceilDiv s.media.readUnits 1000)), (48, toLE 16 (ceilDiv s.media.writeUnits 1000)), (64, toLE 16 s.media.hostReads),
     (80, toLE 16 s.media.hostWrites), (144, toLE 16 s.media.unsafeShutdowns), (160, toLE 16 (s.media.errCounts.get 0 5))]
  (List.range 512).map fun i =>
    match known.find? fun e => e.1 ≤ i && i < e.1 + e.2.length with
    | some e => nth e.2 (i - e.1) 0
    | none => Config.logByte 2 i

/-- Get Log Page (R523): the page's bytes; the Changed Namespace List is cleared by its read. -/
def State.logPage (s : State) (lid : Nat) : Option Bytes :=
  match lid with
  | 0x01 => some ((List.range 4096).map (Config.logByte 1))
  | 0x02 => some s.smartLog
  | 0x04 => some (nsList s.host.nvme.changedNs)
  | 0x05 => some ((List.range 4096).map (Config.logByte 5))
  | 0xC1 => some s.vendorLog
  | _ => none

/-- Set Features (R523). -/
def State.setFeature (s : State) (fid : Nat) (w : BitVec 32) : State × Nat × Nat :=
  let mod (f : NvFeatures → NvFeatures) : State := s.modNvme fun n => { n with feats := f n.feats }
  match fid with
  | 0x04 => (mod fun f => { f with tempThr := w }, 0, nvOk)
  | 0x07 => (s, 0x007F007F, nvOk)
  | 0x08 => (mod fun f => { f with coalesce := w &&& 0xFFFF }, 0, nvOk)
  | 0x09 => if bitsOf w.toNat 15 0 > 128 then (s, 0, nvBadField)
            else (mod fun f => { f with vectorCfg := f.vectorCfg.set 0 (bitsOf w.toNat 15 0) (w &&& 0x00010000) }, 0, nvOk)
  | 0x0B => (mod fun f => { f with asyncCfg := w }, 0, nvOk)
  | _ => (s, 0, nvBadField)

/-- Get Features (R523). -/
def State.getFeature (s : State) (fid : Nat) (w : BitVec 32) : Nat × Nat :=
  let f := s.host.nvme.feats
  match fid with
  | 0x04 => (f.tempThr.toNat, nvOk)
  | 0x07 => (f.queues.toNat, nvOk)
  | 0x08 => (f.coalesce.toNat, nvOk)
  | 0x09 => if bitsOf w.toNat 15 0 > 128 then (0, nvBadField)
            else ((f.vectorCfg.get 0 (bitsOf w.toNat 15 0)).toNat + bitsOf w.toNat 15 0, nvOk)
  | 0x0B => (f.asyncCfg.toNat, nvOk)
  | _ => (0, nvBadField)

/-- Asynchronous Event Request (R523): up to 8 wait; a waiting event answers at once. -/
def State.aer (s : State) (cid : BitVec 16) : State :=
  match s.fetch 0 with
  | none => s
  | some s =>
    match s.host.nvme.events with
    | e :: r => (s.modNvme fun n => { n with events := r }).postCqe 0 cid e.toNat 0 nvOk
    | [] => if s.host.nvme.aers.length ≥ 8 then s.postCqe 0 cid 0 0 nvAerLimit else s.modNvme fun n => { n with aers := n.aers ++ [cid] }

/-! ### The memory namespace (R528, R529) -/

/-- Bytes of the memory namespace. -/
def nvmBytes : Nat := 2 * GiB

/-- Offset and length keep to R529. -/
def memSpanOk (o n : Nat) : Bool := o % 8 == 0 && n % 8 == 0 && 8 ≤ n && n ≤ 2097152 && o + n ≤ nvmBytes

/-- Complete an I/O command at once. -/
def State.ioDone (s : State) (sq : Nat) (cid : BitVec 16) (f : State → State × Nat) : State :=
  match s.fetch sq with
  | none => s
  | some s => let (s, st) := f s; (s.postCqe sq cid 0 0 st).shutCheck

/-- Memory Read. -/
def State.memRead (s : State) (nsid o n dptr : Nat) : State × Nat :=
  if nsid != memoryNs then (s, nvBadNs)
  else if !memSpanOk o n then (s, nvBadField)
  else (s.emit (.hostWrite dptr (s.nvmMem.read o n)), nvOk)

/-- Memory Write. -/
def State.memWrite (s : State) (nsid o n : Nat) (data : Option Bytes) : State × Nat :=
  if nsid != memoryNs then (s, nvBadNs)
  else if !memSpanOk o n then (s, nvBadField)
  else match data with
    | none => (s.hostErr 1, nvDataError)
    | some b => ({ s with nvmMem := s.nvmMem.write o (b.take n) }, nvOk)

/-- Memory Range Set Management, create. -/
def State.rangeCreate (s : State) (nsid rsid : Nat) (ranges : Option (List (BitVec 64 × BitVec 64))) : State × Nat :=
  if nsid != memoryNs then (s, nvBadNs)
  else match ranges with
    | none => (s.hostErr 1, nvDataError)
    | some rs =>
      let l := rs.map fun r => (r.1.toNat, r.2.toNat)
      if rsid == 0 || rsid > 256 || s.host.nvme.ranges.any (·.1 == rsid) || l.isEmpty || l.length > 8 ||
        l.any fun r => r.1 % 8 != 0 || r.2 % 8 != 0 || r.1 + r.2 > nvmBytes then (s, nvBadField)
      else (s.modNvme fun n => { n with ranges := n.ranges ++ [(rsid, l)] }, nvOk)

/-- Memory Range Set Management, delete. -/
def State.rangeDelete (s : State) (nsid rsid : Nat) : State × Nat :=
  if nsid != memoryNs then (s, nvBadNs)
  else if s.host.nvme.ranges.any (·.1 == rsid) then (s.modNvme fun n => { n with ranges := n.ranges.filter (·.1 != rsid) }, nvOk)
  else (s, nvBadField)

/-! ### Execute Program (R526–R534) -/

/-- The service that a program index names (R527). -/
def State.programSvc (s : State) (pind : Nat) : Option (Part × Service) :=
  if pind == 0xFFFF then none
  else s.grist.parts.findSome? fun p => (p.services.find? (·.nvme == pind)).map fun v => (p, v)

/-- Translate a region of a range set to a memory namespace address: it lies within one range (R530, R531). -/
def inRanges : List (Nat × Nat) → Nat → Nat → Option Nat
  | [], _, _ => none
  | r :: l, o, n => if o < r.2 then (if o + n ≤ r.2 then some (r.1 + o) else none) else inRanges l (o - r.2) n

/-- Steps 1 to 6 of R531: the status of the first check that fails, or the two regions and their lengths. -/
def State.execCheck (s : State) (nsid pind rsid : Nat) (param : Option Bytes) : Nat ⊕ (Nat × Nat × Nat × Nat) :=
  if nsid != computeNs then .inl nvBadNs
  else match s.programSvc pind, s.host.nvme.ranges.find? (·.1 == rsid) with
    | none, _ => .inl nvBadField
    | some _, none => .inl nvBadField
    | some (p, v), some (_, rs) =>
      match param with
      | none => .inl nvDataError
      | some b =>
        let ro := fieldAt b 0 8
        let rl := fieldAt b 8 4
        let cap := fieldAt b 12 4
        let ao := fieldAt b 16 8
        match inRanges rs ro rl, inRanges rs ao cap with
        | some ra, some aa =>
          let esize := ((p.queueDef? v.ansQ).map (·.bytes)).getD 0
          if ro % 8 != 0 || rl % 8 != 0 || rl < 64 || rl > 65536 || cap % 8 != 0 || ao % 8 != 0 || !allZero (slice b 0x18 8) ||
            (ra < aa + cap && aa < ra + rl) || cap < esize then .inl nvBadField
          else if (s.nvmMem.byte (ra + 2)).toNat != v.index then .inl nvBadField
          else .inr (ra, rl, aa, cap)
        | _, _ => .inl nvBadField

/-- The request as the port passes it on (R532): a zero stamp and a zero epoch are replaced. -/
def State.substitute (s : State) (b : Bytes) : Bytes × State :=
  let (b, s) := if allZero (slice b 0x10 12) then let (st, s) := s.takeStamp; (patch b 0x10 st.bytes, s) else (b, s)
  (if allZero (slice b 0x1C 4) then patch b 0x1C (toLE 4 s.epoch) else b, s)

/-- Execute Program (R531, R532). A request that needs a stamp waits, unfetched, until the node can issue one (R21). -/
def State.executeProgram (s : State) (sq : Nat) (cid : BitVec 16) (nsid pind rsid : Nat) (param : Option Bytes) : State :=
  match s.execCheck nsid pind rsid param with
  | .inl st =>
    (match s.fetch sq with
      | none => s
      | some s =>
        let s := s.hostErr 3
        let s := if st == nvDataError then s.hostErr 1 else s
        (s.postCqe sq cid 0 0 st).shutCheck)
  | .inr (ra, rl, aa, cap) =>
    let b := s.nvmMem.read ra rl
    if allZero (slice b 0x10 12) && !s.canStamp then s
    else match s.fetch sq with
      | none => s
      | some s =>
        let (b, s) := s.substitute b
        let s := s.modNvme fun n => { n with cmds := n.cmds ++ [{ sq := sq, cid := cid, answerAt := aa, capacity := cap }] }
        (s.takeRequest (.nvme (BitVec.ofNat 16 sq) cid) b).kick

/-- A read from or a completion write to host memory fails (R535). -/
def State.hostFailure (s : State) (kind sq : Nat) (cid : BitVec 16) : State :=
  match kind with
  | 0 => (s.modNvme fun n => { n with cfs := true }).hostErr 0
  | 1 =>
    (match s.fetch sq with
      | none => s
      | some s => (s.hostErr 1).postCqe sq cid 0 0 nvDataError)
  | _ => (s.modNvme fun n => { n with cfs := true }).hostErr 2

end Sys2Proof.Machine
end

