-- ==== Sys2Proof/Machine/PartReset.lean ====
section
/-! DEFINITION. Sys2Proof/Machine/PartReset.lean: partition reset, its end, and core reset (R36, R61, R238, R301, R376, R508, R559, R561, R562). -/
namespace Sys2Proof.Machine

/-- The cores of a partition that it enables. -/
def State.partCores (s : State) (p : Part) : List Nat :=
  (p.tiles.flatMap fun t => (List.range 9).map fun c => 9 * t.1 + c).filter s.coreEnabled

/-- Stop every context of a core: held requests pass (R561), and its waits, slots, entries, reservations and results go. -/
def State.stopContexts (s : State) (p : Part) (core : Nat) : State :=
  (((s.core core).ctxs).map fun e => e.1).foldl (fun (s : State) (i : Nat) =>
    let r : CtxRef := ⟨core, Fin.ofNat 16 i⟩
    let s := match (s.ctx r).held with | some q => s.passRequest q | none => s
    let s := ((s.unwait p r).freeSlotOf r).releaseTaken p r
    s.modCtx r fun c => { Ctx.reset with wait := (if c.wait == .unassigned then .unassigned else .parked), prog := c.prog }) s

/-- Place a partition's code in the SRAM of the tiles that run it (R61). -/
def State.placeCode (s : State) (p : Part) : State :=
  p.tiles.foldl (fun (s : State) (t : Nat × BitVec 14) =>
    (p.tileProgs t.1).foldl (fun (s : State) (g : Program) => s.locWrite (.tile t.1 (p.codeOff t.1 g.id)) g.code) s) s

/-- Clear a core's local SRAM and load its programs' data, with every assigned context at its entry point. -/
def State.freshCore (s : State) (p : Part) (core : Nat) : State :=
  let s := { s with coreSram := s.coreSram.clear (core * 2 ^ 18) (2 ^ 18) }
  (s.loadCoreData p core).startContexts p core

/-- Empty a queue that units or programs serve. -/
def State.emptyQueue (s : State) (p : Part) (q : QueueDef) : State :=
  if q.kind ≤ 2 then s.modQueue p.num q.id fun v => { v with takers := [], posters := [] }
  else s.setQueue p.num q.id QState.reset

/-- The commands, queues and engine state of a partition end without completion (R238, R301, R376, R559). -/
def State.endWork (s : State) (p : Part) : State :=
  let s := (s.abortScans p.num).abortLauters (· == p.num)
  let s := p.tiles.foldl (fun (s : State) (t : Nat × BitVec 14) =>
    let s := s.modGth t.1 fun g => { g with cmd := none, cache := [], cmdCnt := 0, readCnt := 0, coalCnt := 0, rereadCnt := 0, sampleDrop := 0 }
    let s := s.modMtx t.1 fun m => { m with cmd := none, descCnt := 0, macCnt := 0, macHi := 0, busyCyc := 0, stallCyc := 0, holdCyc := 0 }
    s.endDrains t.1) s
  let s := p.queues.foldl (fun (s : State) (q : QueueDef) => s.emptyQueue p q) s
  { s with comp := { s.comp with lends := s.comp.lends.filter fun c => c.part != p.num } }

/-- A partition reset begins (R559, R561): its contexts stop, its commands end, and its lent memory loses its contents. -/
def State.startPartReset (s : State) (p : Part) : State :=
  let s := { s with rst := { s.rst with partBusy := insNat s.rst.partBusy p.num } }
  let s := s.setPstate p.num .reloading
  let s := (s.partCores p).foldl (fun (s : State) (c : Nat) =>
    let s := s.stopContexts p c
    let s := s.setCore c { s.core c with slots := [], slotWait := [], vbusy := none }
    if (s.core c).st == .draining then s.setCore c { s.core c with st := .fenced } else s) s
  let s := (s.endWork p).loseLends fun l => l.lenderPart == p.num
  s.caskEvent p.num 8 (toLE 1 p.num)

/-- Every context restarts at its entry point; the contexts of a fenced core do so when it is unfenced. -/
def State.restartPart (s : State) (p : Part) : State :=
  (s.partCores p).foldl (fun (s : State) (c : Nat) => if (s.core c).st == .testing then s else s.freshCore p c) (s.placeCode p)

/-- The partition reset ends (R561). A retained section that fails its check fails the partition (R36). -/
def State.endPartReset (s : State) (p : Part) (bad : Option Nat) : State :=
  let s := { s with rst := { s.rst with partBusy := s.rst.partBusy.filter (· != p.num) } }
  match bad with
  | some n =>
    let s := { s with grist := { s.grist with err := 0x0A, nosect := false, errSection := BitVec.ofNat 10 n } }
    s.reportThen { cls := 0x05, cause := 0x0A, part := p.num, kind := 8, unit := p.num, loc := n, detail := s.grist.imageId.toNat }
      fun s => s.failPart p.num false
  | none => ((s.restartPart p).setPstate p.num .running).kick

/-- A module reset runs: its hold, and the start sequence after it (R560, R562). -/
def State.modResetRuns (s : State) : Bool :=
  s.clk.phase == .resetHold || (s.rst.cause != 0 && (s.clk.phase == .locking || s.clk.phase == .training))

/-- RST_CTRL.KIND = 2 (R561, R562). -/
def State.partReset (s : State) (n : Nat) : State :=
  if s.modResetRuns || s.rst.partBusy.contains n then s
  else
    let loading := (s.grist.state == .draining || s.grist.state == .applying) && (s.grist.load.any fun l => !l.image.partial_ || l.image.target == n)
    if loading then { s with rst := { s.rst with refused := true } }
    else match s.part? n with
      | some p => if s.pstate n == .running then s.startPartReset p else s
      | none => s

/-- A core reset: a hard fence and unfence, its contexts' fault counts at 0 (R559). The core's fence bits stay as they are. -/
def State.resetCoreNow (s : State) (core : Nat) : State :=
  let s := s.hardFence core
  let s := s.setCore core { s.core core with ctxs := (s.core core).ctxs.map fun e => (e.1, { e.2 with faults := 0, faultAt := [] }) }
  s.unfenceCore core

/-- RST_CTRL.KIND = 1 (R559, R562). -/
def State.coreReset (s : State) (tile core : Nat) : State :=
  let c := 9 * tile + core
  if s.modResetRuns then s
  else if tile ≥ 96 || core ≥ 9 then s
  else match s.ownerOf tile with
    | none => { s with rst := { s.rst with refused := true } }
    | some p =>
      if s.rst.partBusy.contains p.num then s
      else if (s.core c).st == .testing || s.flt.running.any (fun q => q.kind == 1 && q.unit.toNat == c) then
        { s with rst := { s.rst with coreWait := insNat s.rst.coreWait c } }
      else s.resetCoreNow c

end Sys2Proof.Machine
end

