-- ==== Sys2Proof/Machine/GatherWork.lean ====
section
/-! DEFINITION. Sys2Proof/Machine/GatherWork.lean: what the commands do of the gather engines, and what the placement program does with heat samples (R219,
R222–R237, R593). -/
namespace Sys2Proof.Machine

/-- Set GTH_CTRL.PAUSE; back at 0, a command that waits opens its next window (R236). -/
def State.setGthPause (s : State) (tile : Nat) (on : Bool) : State :=
  let s := s.modGth tile fun g => { g with pause := on }
  if on then s else s.openWindow tile

/-- Invalidate the path cache (R229, R236). -/
def State.flushPaths (s : State) (tile : Nat) : State := s.modGth tile fun g => { g with cache := [] }

/-- The gather engine's effective fence state: management bit, data bit, or a test. -/
def State.gatherFenced (s : State) (tile : Nat) : Bool := (s.tile tile).gather || (s.tile tile).gdata

/-- The FENCE record of a gather engine with its capture event (R595). -/
def State.gatherFenceRecord (s : State) (tile : Nat) (fenced : Bool) : State :=
  let t := s.tile tile
  let part := ((s.ownerOf tile).map (·.num)).getD 0xFF
  (s.fenceRecord 3 tile fenced t.gather t.gdata part).caskEvent part (if fenced then 2 else 3) (fencePayload (1248 + tile) t.gather t.gdata)

/-- Change a bit of the gather fence: a change of the effective state ends a running command FAILED or lets the engine serve again, and
is recorded; an unfence that the data bit still holds back is recorded too (R237, R593, R595). -/
def State.setGatherFence (s : State) (tile : Nat) (f : TileRegs → TileRegs) : State :=
  let was := s.gatherFenced tile
  let before := s.tile tile
  let s := s.modTile tile f
  let now := s.gatherFenced tile
  let after := s.tile tile
  let s := if now then s.gatherFail tile else s
  if was != now || (before.gather && !after.gather && after.gdata) || (before.gdata && !after.gdata && after.gather)
  then s.gatherFenceRecord tile now else s

/-- The current version of a table: the descriptor that its directory entry names, its checks passing. -/
def State.curTable (s : State) (p : Part) (id : Nat) : Option Tab :=
  match s.tableHead p id with
  | some off => if s.tableOk p off id then some (parseTab off (s.pmRead p off 512)) else none
  | none => none

/-- Raise a row's heat by one sample, by a store to byte 6 of its entry (R208, R219). -/
def State.heatUp (s : State) (p : Part) (id r queue : Nat) : State :=
  match s.curTable p id with
  | none => s
  | some t =>
    if t.heatQ != queue || r ≥ t.rows then s
    else match s.rowPage p t r with
      | .page o =>
        let e := s.rowEnt p o r
        s.pmSet p (e.at_ + 6) 1 (min 255 (e.heat + 1))
      | _ => s

/-- Apply the oldest heat entry of a queue: each of its samples that is in use (R218, R219). -/
def State.heatApply (s : State) (p : Part) (q : QueueDef) : State :=
  match s.unitTake p q with
  | none => s
  | some (_, b, s) =>
    (List.range 4).foldl (fun (s : State) i =>
      let id := fieldAt b (16 * i + 6) 2
      if id == 0xFFFF then s else s.heatUp p id (fieldAt b (16 * i) 5) q.id) s

/-- The row map pages below a directory page of level `j`, each with bits [39:8] of its rows, ascending. -/
def State.mapPages (s : State) (p : Part) : Nat → Nat → Nat → List (Nat × Nat)
  | 0, off, pre => [(pre, off)]
  | j + 1, off, pre => (List.range 512).flatMap fun i =>
      match pathEntry p (s.pmNum p (off + 8 * i) 8) with
      | .page o => State.mapPages s p j o (pre * 512 + i)
      | _ => []

/-- Every row map page of a table version (R206, R207). -/
def State.rowPages (s : State) (p : Part) (t : Tab) : List (Nat × Nat) :=
  (List.range 32).flatMap fun i =>
    match pathEntry p (s.pmNum p (t.off + 0x100 + 8 * i) 8) with
    | .page o => s.mapPages p t.levels o i
    | _ => []

/-- Halve the heat of every row of a row map page. -/
def State.coolPage (s : State) (p : Part) (page : Nat) : State :=
  (List.range 256).foldl (fun (s : State) i =>
    let a := page + 16 * i + 6
    let h := s.pmNum p a 1
    if h == 0 then s else s.pmSet p a 1 (h / 2)) s

end Sys2Proof.Machine
end

