-- ==== Sys2Proof/Machine/Publish.lean ====
section
/-! DEFINITION. Sys2Proof/Machine/Publish.lean: publication: version images, the PUBLISH record, its seal and the publication stamp (R119, R617, R619,
R621, R622). -/
namespace Sys2Proof.Machine

/-- A publication can be made: stamps are issued, the journal takes seals, and images can be staged. -/
def State.canPublish (s : State) : Bool := s.canStamp && !s.tailFull && s.storageUp && s.fls.state != .readOnly

/-- Write the image of a version that the next journal record will name; its own cover field stays all ones (R619). -/
def State.versionImage (s : State) (p : Part) (ext objKind obj kind id : Nat) (pieces : List (Bool × Nat × Bytes)) : Option (Img × State) :=
  s.writeImage p ext objKind obj kind id Stamp.ones s.dur.nextSeq pieces

/-- Write the images of several versions: kind, id and pieces of each. -/
def State.versionImages (s : State) (p : Part) (ext objKind obj : Nat) : List (Nat × Nat × List (Bool × Nat × Bytes)) → Option (List Img × State)
  | [] => some ([], s)
  | (k, id, ps) :: r =>
    match s.versionImage p ext objKind obj k id ps with
    | none => none
    | some (i, s) =>
      match State.versionImages s p ext objKind obj r with
      | none => none
      | some (l, s) => some (i :: l, s)

/-- The body of a PUBLISH record (R621). -/
def publishBody (is : List Img) : Bytes :=
  toLE 2 is.length ++ zeros 6 ++
    (is.map fun i => toLE 1 i.kind ++ zeros 3 ++ toLE 4 i.id ++ toLE 5 (i.pages.headD 0) ++ toLE 2 i.pages.length ++ zeros 1).flatten

/-- The last steps of R119: the journal record, the publication stamp P, its seal, and P at the publication record. -/
def State.publishNow (s : State) (p : Part) (objKind obj pub : Nat) (is : List Img) : Stamp × State :=
  let (seq, s) := s.journal 0x02 p.num objKind 0 obj (publishBody is)
  let (P, s) := s.partStamp p.num
  let s := s.sealRec seq P
  let s := { s with dur := { s.dur with images := s.dur.images.map fun (i : Img) => if is.any (fun (j : Img) => j.pages == i.pages) then { i with cover := P, seq := seq } else i } }
  (P, s.pmWrite p pub (P.bytes ++ zeros 4))

/-- The append lock of a leaf is held by an update that waits for its mirror (R495). -/
def State.leafLocked (s : State) (part index leaf : Nat) : Bool :=
  s.srch.updates.any fun u => u.part == part && u.index == index && u.ack.isSome &&
    ((u.newAt.any fun e => e.1 == leaf) || (u.oldAt.any fun e => e.1 == leaf))

/-- A place in partition memory that a command may name for new contents. -/
def Part.placeOk (p : Part) (a n align : Nat) : Bool := a % align == 0 && a + n ≤ p.memBytes

/-- Every number of a list differs from the others. -/
def allDistinct : List Nat → Bool
  | [] => true
  | x :: r => !r.contains x && allDistinct r

/-- Distinct numbers of a list, rising. -/
def risingSet (l : List Nat) : List Nat := l.foldl insNat []

end Sys2Proof.Machine
end

