-- ==== Sys2Proof/Machine/Placement.lean ====
section
/-! DEFINITION. Sys2Proof/Machine/Placement.lean: the placement round of an embedding table (R213–R216, R220, R221). Widths are numbered as locations: 1 BF16,
2 INT8, 3 INT4, 4 flash, from wide to narrow. -/
namespace Sys2Proof.Machine

/-- L of a width (R220). -/
def Tab.level (t : Tab) (loc : Nat) : Nat := match loc with | 1 => t.h2 | 2 => t.h1 | 3 => t.h0 | _ => 0

/-- The table allows a width; a row whose source holds a NaN or an infinity is never derived (R211). -/
def Tab.allows (t : Tab) (special : Bool) (loc : Nat) : Bool := t.widths.testBit (loc - 1) && !(special && (loc == 2 || loc == 3))

/-- A row's target (R220). -/
def Tab.target (t : Tab) (special : Bool) (heat : Nat) : Option Nat :=
  let w := ([1, 2, 3, 4].find? fun l => t.level l ≤ heat).getD 4
  match [1, 2, 3, 4].find? fun l => w ≤ l && t.allows special l with
  | some l => some l
  | none => [3, 2, 1].find? fun l => l < w && t.allows special l

/-- A row that a placement round may move. -/
structure RowMove where
  row : Nat
  /-- bits [39:8] of the row index: its row map page -/
  pre : Nat
  ent : RowEnt
  tgt : Nat
  special : Bool
  src : Bytes
  /-- page key of the source read, unless the BF16 copy in memory serves -/
  key : Option Nat
  deriving DecidableEq, Repr

/-- The source row of a present row: its BF16 copy in memory, or the source on flash. -/
def State.rowSource (s : State) (p : Part) (t : Tab) (r : Nat) (e : RowEnt) : Option (Bytes × Option Nat) :=
  if e.loc == 1 then
    let b := s.pmRead p (nth t.base 0 0 + e.slot * rowSize 1 t.dims) (rowSize 1 t.dims)
    if rowOk b 1 r then some (b, none) else none
  else match s.sourceRow p t e with
    | some (b, k) => if rowOk b 1 r then some (b, some k) else none
    | none => none

/-- A source row holds a NaN or an infinity. -/
def specialRow (b : Bytes) (e : Nat) : Bool := (rowVals b e).any fun v => match v with | .fin .. => false | _ => true

/-- A present row that its heat moves, under R220. -/
def State.moveOf (s : State) (p : Part) (t : Tab) (pre page i : Nat) : Option RowMove :=
  let r := pre * 256 + i
  let e := s.rowEnt p page r
  if e.loc == 0 || e.loc > 4 || r ≥ t.rows then none
  else match s.rowSource p t r e with
    | none => none
    | some (b, k) =>
      let sp := specialRow b t.dims
      match t.target sp e.heat with
      | none => none
      | some g =>
        if g < e.loc || (g > e.loc && e.heat < t.level e.loc / 2) then some ⟨r, pre, e, g, sp, b, k⟩ else none

/-- Promotions by falling heat, demotions by rising heat, ties to the lower row index (R221). -/
def orderMoves (l : List RowMove) : List RowMove :=
  let before (a b : RowMove) : Bool :=
    let pa := a.tgt < a.ent.loc
    let pb := b.tgt < b.ent.loc
    if pa && pb then a.ent.heat > b.ent.heat || (a.ent.heat == b.ent.heat && a.row < b.row)
    else if pa || pb then pa
    else a.ent.heat < b.ent.heat || (a.ent.heat == b.ent.heat && a.row < b.row)
  let rec ins (e : RowMove) : List RowMove → List RowMove
    | [] => [e]
    | x :: r => if before e x then e :: x :: r else x :: ins e r
  l.foldl (fun a e => ins e a) []

/-- The slots that a table version names, as (location, slot). -/
def State.slotsOf (s : State) (p : Part) (t : Tab) : List (Nat × Nat) :=
  (s.rowPages p t).flatMap fun e => (List.range 256).filterMap fun i =>
    let x := s.rowEnt p e.2 i
    if 1 ≤ x.loc && x.loc ≤ 3 then some (x.loc, x.slot) else none

/-- The lowest free slot of a tier. -/
def Tab.freeSlot (t : Tab) (used : List (Nat × Nat)) (loc : Nat) : Option Nat :=
  if loc > 3 then some 0 else (List.range (nth t.slots (loc - 1) 0)).find? fun i => !used.contains (loc, i)

/-- Where a move goes: its target, or for a promotion the widest allowed width still wider than the row's own that has a free slot. -/
def Tab.dest (t : Tab) (used : List (Nat × Nat)) (m : RowMove) : Option (Nat × Nat) :=
  match t.freeSlot used m.tgt with
  | some i => some (m.tgt, i)
  | none =>
    if m.tgt < m.ent.loc then
      ([1, 2, 3].filter fun l => l < m.ent.loc && t.allows m.special l).findSome? fun l => (t.freeSlot used l).map fun i => (l, i)
    else none

/-- Choose the moves of a round, at most `n`, each with its new location and slot. -/
def Tab.choose (t : Tab) : List (Nat × Nat) → Nat → List RowMove → List (RowMove × Nat × Nat)
  | _, _, [] => []
  | used, n, m :: r =>
    if n == 0 then []
    else match t.dest used m with
      | none => Tab.choose t used n r
      | some (l, i) => (m, l, i) :: Tab.choose t (if l ≤ 3 then (l, i) :: used else used) (n - 1) r

/-- The directory page that covers an id at `n − k` levels above the row map pages, `k` steps below the root. -/
def State.dirAt (s : State) (p : Part) (t : Tab) : Nat → Nat → Option Nat
  | 0, id => match pathEntry p (s.pmNum p (t.off + 0x100 + 8 * id) 8) with | .page o => some o | _ => none
  | k + 1, id =>
    match State.dirAt s p t k (id / 512) with
    | none => none
    | some o => match pathEntry p (s.pmNum p (o + 8 * (id % 512)) 8) with | .page o => some o | _ => none

/-- Copy the page at `k` steps below the root that covers an id to a new place. -/
def State.copyPage (s : State) (p : Part) (t : Tab) (k id new : Nat) : State :=
  match s.dirAt p t k id with
  | some o => s.pmWrite p new (s.pmRead p o 4096)
  | none => s

/-- Copy the directory pages above the changed pages, level by level up, each naming the new pages below it; the changed top pages, the new
places used in order and the old places given up come back. -/
def State.copyDirs (s : State) (p : Part) (t : Tab) : Nat → List (Nat × Nat) → List Nat → List Nat → Option (List (Nat × Nat) × List Nat × State)
  | 0, ch, _, old => some (ch, old, s)
  | k + 1, ch, pool, old =>
    let ids := risingSet (ch.map fun e => e.1 / 512)
    if pool.length < ids.length then none
    else
      let new := ids.zip pool
      let gone := ids.filterMap fun id => s.dirAt p t k id
      let s := new.foldl (fun (s : State) (e : Nat × Nat) => s.copyPage p t k e.1 e.2) s
      let s := ch.foldl (fun (s : State) (c : Nat × Nat) =>
        match new.find? fun (e : Nat × Nat) => e.1 == c.1 / 512 with
        | some e => s.pmSet p (e.2 + 8 * (c.1 % 512)) 8 (c.2 + 1)
        | none => s) s
      State.copyDirs s p t k new (pool.drop ids.length) (old ++ gone)

/-- Write a moved row at its new width and its entry in the new row map page. -/
def State.writeMove (s : State) (p : Part) (t : Tab) (new : List (Nat × Nat)) (m : RowMove) (loc slot : Nat) : State :=
  let s := match m.key with
    | some k => (s.countRead k (s.defaultStep k)).charge 0x100 p.num 4 1
    | none => s
  let row : Bytes := if loc == 1 then m.src else if loc ≤ 3 then (deriveRow m.src t.dims loc).getD [] else []
  let s := if loc ≤ 3 then s.pmWrite p (nth t.base (loc - 1) 0 + slot * rowSize loc t.dims) row else s
  match new.find? fun (e : Nat × Nat) => e.1 == m.pre with
  | some e =>
    let a := e.2 + 16 * (m.row % 256)
    s.pmWrite p a (toLE 1 loc ++ toLE 5 slot ++ [BitVec.ofNat 8 m.ent.heat, 0])
  | none => s

/-- What a placement round is given: where the new descriptor, the publication record, the release list and the new pages lie. -/
structure PlaceAt where
  desc : Nat
  pub : Nat
  list : Nat
  pages : List Nat
  deriving DecidableEq, Repr

/-- The places a placement round names can be used. -/
def PlaceAt.ok (a : PlaceAt) (p : Part) (listN : Nat) : Bool :=
  p.placeOk a.desc 512 64 && p.placeOk a.pub 16 16 && p.placeOk a.list (8 * listN) 8 && a.pages.all (p.placeOk · 4096 4096) && allDistinct a.pages

/-- The release list (R214). -/
def releaseList (oldPages : List Nat) (ms : List (RowMove × Nat × Nat)) : List Nat :=
  oldPages.map (· + 1) ++ ms.filterMap fun m => if m.1.ent.loc ≤ 3 then some (m.1.ent.loc + 1 + m.1.ent.slot * 256) else none

/-- Publish a table version built over the current one (R119, R213): the descriptor with its root, the release list and the image. -/
def State.publishTable (s : State) (p : Part) (t : Tab) (a : PlaceAt) (root : List (Nat × Nat)) (newPages : List Nat) (rel : List Nat) : Option State :=
  let (made, s) := s.partStamp p.num
  let b := s.pmRead p t.off 512
  let b := patch b 0x18 (toLE 8 t.off)
  let b := patch b 0x48 made.bytes
  let b := root.foldl (fun b (e : Nat × Nat) => patch b (0x100 + 8 * e.1) (toLE 8 (e.2 + 1))) b
  let b := patch b 0xC0 (toLE 8 a.pub ++ Stamp.ones.bytes ++ [0])
  let b := patch b 0xE0 (toLE 8 a.list ++ toLE 4 rel.length ++ zeros 16)
  let b := patch b 0xFC (toLE 4 (crc32c (b.take 0xC0 ++ b.drop 0x100)))
  let s := s.pmWrite p a.desc b
  let s := s.pmWrite p a.list ((rel.map (toLE 8)).flatten)
  match s.versionImages p t.ext 2 t.id [(4, t.id, (false, a.desc, b) :: newPages.map fun o => (false, o, s.pmRead p o 4096))] with
  | none => none
  | some (is, s) =>
    let s := s.pmSet p (tableEntryAt t.id) 8 (a.desc + 1)
    let (P, s) := s.publishNow p 2 t.id a.pub is
    let s := s.pmWrite p (a.desc + 0xC0) (zeros 8 ++ P.bytes)
    let s := s.pmSet p (t.off + 0xD4) 1 (t.flags ||| 1)
    some { s with srch := { s.srch with old := s.srch.old ++ [{ part := p.num, index := 0, kind := 3, id := t.id, header := t.off, until_ := P, pages := [] }] } }

/-- One placement round (R221): the moves, the new pages from the row map pages up, the rows and the new version. A round without a move,
or given too few places, changes nothing. -/
def State.placementRound (s : State) (p : Part) (t : Tab) (a : PlaceAt) : State :=
  let cand := (s.rowPages p t).flatMap fun e => (List.range 256).filterMap fun i => s.moveOf p t e.1 e.2 i
  let kept := (s.srch.old.filter fun o => o.part == p.num && o.kind == 3 && o.id == t.id).map fun o => parseTab o.header (s.pmRead p o.header 512)
  let used := (t :: kept).flatMap (s.slotsOf p)
  let ms := t.choose used t.limit (orderMoves cand)
  let pres := risingSet (ms.map fun m => m.1.pre)
  if ms.isEmpty || !s.canPublish || a.pages.length < pres.length then s
  else
    let new := pres.zip a.pages
    let gone := pres.filterMap fun id => s.dirAt p t t.levels id
    match (new.foldl (fun (s : State) (e : Nat × Nat) => s.copyPage p t t.levels e.1 e.2) s).copyDirs p t t.levels new (a.pages.drop pres.length) gone with
    | none => s
    | some (root, oldPages, s') =>
      let rel := releaseList oldPages ms
      if !a.ok p rel.length then s
      else
        let s' := ms.foldl (fun (s : State) (m : RowMove × Nat × Nat) => s.writeMove p t new m.1 m.2.1 m.2.2) s'
        (s'.publishTable p t a root (a.pages.take oldPages.length) rel).getD s

end Sys2Proof.Machine
end

