-- ==== Sys2Proof/Machine/Racking.lean ====
section
/-! DEFINITION. Sys2Proof/Machine/Racking.lean: racking, split and merge of leaves: triggers, survivors, two-means, new leaf and node versions, forwarding
records (R93, R121–R132, R335, R339, R670). Each publication is one step: no update comes between its cut stamp and its publication, so
the catch-up of R124 is empty. -/
namespace Sys2Proof.Machine

/-! ### Posts and the pace of trigger 6 (R335, R339) -/

/-- Where the refinement record of an index lies (R320). -/
def refineAt (n : Nat) : Nat := 0x100001000 + 512 * n

/-- The entry of a leaf in a table probed from the CRC of its id (R336, R339): the address of its entry, and the first empty one. -/
def State.findEntry (s : State) (p : Part) (base size cap leaf : Nat) : Option Nat × Option Nat :=
  let h := crc32c (toLE 4 leaf) % max 1 cap
  let at_ := (List.range (min 32 cap)).map fun i => base + size * ((h + i) % max 1 cap)
  -- an empty entry does not end the probe: an entry emptied before may leave a gap
  (at_.find? fun a => s.pmNum p a 4 == leaf, at_.find? fun a => s.pmNum p a 4 == 0xFFFFFFFF)

/-- A posted centroid of a leaf: the entry's address, its stamp, and the centroid's bytes (R339). -/
def State.postOf (s : State) (p : Part) (x : Desc) (n leaf : Nat) : Option (Nat × Stamp × Bytes) :=
  if !s.refineOk p n then none
  else
    let r := s.pmRead p (refineAt n) 64
    let base := fieldAt r 0x28 8
    let cap := fieldAt r 0x20 4
    match (s.findEntry p base 32 cap leaf).1 with
    | none => none
    | some a =>
      let i := (a - base) / 32
      some (a, stampAt (s.pmRead p (a + 8) 12) 0, s.pmRead p (base + 32 * cap + i * alignUp (2 * x.dim) 64) (2 * x.dim))

/-- Empty the post of a leaf. -/
def State.dropPost (s : State) (p : Part) (x : Desc) (n leaf : Nat) : State :=
  match s.postOf p x n leaf with
  | some (a, _, _) => s.pmSet p a 4 0xFFFFFFFF
  | none => s

/-- The leaf names an older codebook than the newest ready or live one (R121). -/
def State.oldCb (s : State) (p : Part) (x : Desc) (l : Leaf) : Bool :=
  match s.newestCb p x with
  | some c => (s.cbSlot p x l.cb).made.before (s.cbSlot p x c).made
  | none => false

/-- Leaves with a posted centroid, in post stamp order. -/
def State.postedLeaves (s : State) (p : Part) (n : Nat) : List Nat :=
  let r := s.pmRead p (refineAt n) 64
  let es := (List.range (fieldAt r 0x20 4)).filterMap fun i =>
    let e := s.pmRead p (fieldAt r 0x28 8 + 32 * i) 32
    if fieldAt e 0 4 == 0xFFFFFFFF then none else some (2 ^ 96 - (stampAt e 8).rank, fieldAt e 0 4)
  (sortBy scoreBefore es).map fun e => e.2

/-- The leaf that trigger 6 takes next (R335). -/
def State.nextSix (s : State) (p : Part) (x : Desc) (n : Nat) : Option Nat :=
  match (s.postedLeaves p n).find? fun l => (s.curLeaf p x l).isSome with
  | some l => some l
  | none =>
    let old (l : Nat) : Bool := match s.curLeaf p x l with | some v => s.oldCb p x v | none => false
    let c := s.refn.cursor.get 0 (p.num * 16 + n)
    match ((List.range x.leafN).drop c).find? old with
    | some l => some l
    | none => ((List.range x.leafN).take c).find? old

/-- Rack pace of an index: none without a valid refinement record. -/
def State.rackPace (s : State) (p : Part) (n : Nat) : Option Nat := if s.refineOk p n then some (s.pmNum p (refineAt n + 0xD4) 2) else none

/-- Tokens that trigger 6 holds now, in 10⁻⁹. -/
def State.sixTokens (s : State) (p : Part) (n pace : Nat) : Nat :=
  let (at_, tok) := s.refn.tokens.get (0, 0) (p.num * 16 + n)
  min (pace * 10 ^ 9) (tok + (s.time.up - at_) * pace)

/-- Trigger 6 may act on a leaf now. -/
def State.sixMay (s : State) (p : Part) (x : Desc) (n leaf : Nat) : Bool :=
  match s.rackPace p n with
  | none => true
  | some v => v != 0 && s.sixTokens p n v ≥ 10 ^ 9 && s.nextSix p x n == some leaf

/-- Spend a token and move the cursor on. -/
def State.spendSix (s : State) (p : Part) (n leaf : Nat) : State :=
  match s.rackPace p n with
  | none => s
  | some v =>
    let k := p.num * 16 + n
    { s with refn := { s.refn with tokens := s.refn.tokens.set (0, 0) k (s.time.up, s.sixTokens p n v - 10 ^ 9), cursor := s.refn.cursor.set 0 k (leaf + 1) } }

/-! ### Triggers (R121) -/

/-- The triggers that hold for a leaf, highest first. -/
def State.triggers (s : State) (p : Part) (x : Desc) (n : Nat) (l : Leaf) : List Nat :=
  let t1 := l.delta == x.deltaCap
  let t2 := l.live > x.splitAt
  let t3 := l.delta * 100 ≥ x.deltaTrig * x.deltaCap
  let t4 := l.tombCount ≥ 1 && l.tombCount * 100 ≥ x.tombTrig * (l.body + l.delta)
  let t5 := l.live < x.mergeAt
  let t6 := (s.oldCb p x l || (s.postOf p x n l.id).isSome) && s.sixMay p x n l.id
  let t7 := l.nbrs.any fun m => leState (s.leafEntry p x m) == 2
  ((List.zipIdx [t1, t2, t3, t4, t5, t6, t7]).filter (·.1)).map fun e => e.2 + 1

/-! ### Survivors (R122, R670) -/

/-- A survivor: its slot, record place, record bytes, vector id, and the vector as R91 has it. -/
structure Surv where
  slot : Nat
  page : Nat
  ix : Nat
  rec_ : Bytes
  vid : Nat
  v : List Nat
  deriving DecidableEq, Repr

/-- The survivors of a leaf for a cut stamp, in slot order. -/
def State.survivors (s : State) (p : Part) (x : Desc) (l : Leaf) (cut : Stamp) : List Surv :=
  let dead := s.deadSlots p x l cut
  let slots := (List.range l.body ++ (List.range (s.visibleDelta p l cut)).map (· + x.bodyCap)).filter (!dead.contains ·)
  slots.map fun n =>
    let (pg, ix) := s.recordOf p x l n
    let b := s.flashRead (pageKey p.num x.ext pg) (ix * x.recSize) x.recSize
    { slot := n, page := pg, ix := ix, rec_ := b, vid := fieldAt b 0 6, v := x.vec (elemsOf x.etype (b.drop 16) x.dim) }

/-- Count the reads of the survivors' pages. -/
def State.readSurvivors (s : State) (p : Part) (x : Desc) (l : List Surv) : State :=
  (risingSet (l.map fun e => e.page)).foldl (fun (s : State) pg =>
    let k := pageKey p.num x.ext pg
    (s.countRead k (s.defaultStep k)).charge 0x100 p.num 4 1) s

/-! ### New leaf versions -/

/-- Where the pieces of a new leaf version lie: what the racking program allocated. -/
structure LeafPlace where
  header : Nat
  body : Nat
  delta : Nat
  meta_ : Nat
  tombs : Nat
  prints : Nat
  pageMap : Nat
  posMap : Nat
  recent : Nat
  deriving DecidableEq, Repr

def leafPlace : List Nat → Option LeafPlace
  | [a, b, c, d, e, f, g, h, i] => some ⟨a, b, c, d, e, f, g, h, i⟩
  | _ => none

/-- A code array of `n` codes lies in one scan extent and one bank (R96, R348). -/
def Part.codesOk (p : Part) (a n : Nat) : Bool :=
  scanAddrOk a && rangeOk p { stack := scanAddrStack a, off := scanAddrOff a, count := n, first := 0 }

def LeafPlace.ok (q : LeafPlace) (p : Part) (x : Desc) : Bool :=
  let n := x.bodyCap + x.deltaCap
  p.placeOk q.header x.leafBytes 64 && p.codesOk q.body x.bodyCap && p.codesOk q.delta x.deltaCap && p.placeOk q.meta_ (32 * x.deltaCap) 1 &&
    p.placeOk q.tombs (ceilDiv n 8) 1 && p.placeOk q.prints (2 * n) 1 && p.placeOk q.pageMap (5 * (x.posCap / max 1 x.rpp)) 1 &&
    p.placeOk q.posMap (ceilDiv x.posCap 8) 1 && p.placeOk q.recent 512 1

/-- A new leaf version to be written. -/
structure LeafNew where
  id : Nat
  cb : Nat
  nbrs : List Nat
  cent : Bytes
  parent : Nat
  prev : Nat
  place : LeafPlace
  codes : List Bytes
  prints : List Nat
  pages : List Nat
  /-- positions that hold body entries, ascending -/
  positions : List Nat
  deriving DecidableEq, Repr

/-- The header and state block of a new version, its stamp pending (R96, R119). -/
def LeafNew.header (v : LeafNew) (x : Desc) (pub : Nat) : Bytes :=
  let q := v.place
  let h := toLE 4 v.id ++ toLE 1 v.cb ++ toLE 1 v.nbrs.length ++ toLE 2 v.codes.length ++ toLE 4 v.parent ++ zeros 4 ++ toLE 8 v.prev ++
    toLE 8 q.body ++ toLE 8 q.delta ++ toLE 8 q.meta_ ++ toLE 8 q.tombs ++ toLE 8 q.prints ++ toLE 8 q.pageMap ++ toLE 8 q.posMap ++
    toLE 8 q.recent ++ toLE 2 v.pages.length ++ toLE 2 x.rpp ++ zeros 4 ++
    ((v.nbrs ++ List.replicate (8 - v.nbrs.length) 0xFFFFFFFF).map (toLE 4)).flatten ++ zeros 64
  let st := toLE 8 pub ++ Stamp.ones.bytes ++ toLE 2 0 ++ toLE 2 v.codes.length ++ zeros 4 ++ zeros 32
  h ++ st ++ toLE 4 (crc32c (h ++ v.cent)) ++ v.cent ++ zeros (alignUp (2 * x.dim) 64 - 2 * x.dim)

/-- A bit map of `n` bytes with the given bits set. -/
def bitMap (n : Nat) (bits : List Nat) : Bytes :=
  (List.range n).map fun i => BitVec.ofNat 8 ((List.range 8).foldl (fun a j => a + (if bits.contains (8 * i + j) then 2 ^ j else 0)) 0)

/-- The pieces of a new version: (scan, address, bytes), in the order of its image. -/
def LeafNew.pieces (v : LeafNew) (x : Desc) (pub : Nat) : List (Bool × Nat × Bytes) :=
  let q := v.place
  [(false, q.header, v.header x pub), (true, q.body, v.codes.flatten), (true, q.delta, []), (false, q.meta_, zeros (32 * x.deltaCap)),
   (false, q.tombs, zeros (ceilDiv (x.bodyCap + x.deltaCap) 8)), (false, q.recent, []), (false, q.pageMap, (v.pages.map (toLE 5)).flatten),
   (false, q.posMap, bitMap (ceilDiv x.posCap 8) v.positions)]

/-- Write one piece. -/
def State.putPiece (s : State) (p : Part) (e : Bool × Nat × Bytes) : State :=
  if e.1 then s.locWrite (.dram (scanAddrStack e.2.1) (scanAddrOff e.2.1)) e.2.2 else s.pmWrite p e.2.1 e.2.2

/-- Change the link count of a leaf (R95). -/
def State.linkAdd (s : State) (p : Part) (x : Desc) (id : Nat) (up : Bool) : State :=
  let e := s.leafEntry p x id
  s.setLeafEntry p x id (mkLeafEntry (leState e) (leOff e) (if up then leLinks e + 1 else leLinks e - 1))

/-- Write a new version, its links and its codebook's use; a ready slot becomes live (R90). -/
def State.putLeaf (s : State) (p : Part) (x : Desc) (pub : Nat) (v : LeafNew) : State :=
  let s := (v.pieces x pub).foldl (fun (s : State) e => s.putPiece p e) s
  let s := s.pmWrite p v.place.prints ((v.prints.map (toLE 2)).flatten)
  let s := v.nbrs.foldl (fun (s : State) m => s.linkAdd p x m true) s
  let s := s.cbUse p x v.cb true
  if (s.cbSlot p x v.cb).state == 1 then s.pmSet p (x.cbT + 32 * v.cb) 1 2 else s

/-- Swap a leaf table entry to a new header, keeping its link count. -/
def State.swapLeaf (s : State) (p : Part) (x : Desc) (id st off : Nat) : State :=
  s.setLeafEntry p x id (mkLeafEntry st off (leLinks (s.leafEntry p x id)))

/-- Copy the publication stamp into a version and clear its publication record (R119). -/
def State.stampLeaf (s : State) (p : Part) (a : Nat) (P : Stamp) : State := s.pmWrite p (a + 0xC0) (zeros 8 ++ P.bytes)

/-- Neighbours of a centroid among leaves given with theirs: the nearest, ties to the lower id (R122). -/
def nearestLeaves (n : Nat) (c : List Nat) (l : List (Nat × List Nat)) : List Nat :=
  ((sortBy scoreBefore (l.map fun e => (0xFFFFFFFF - keyOf (sqDist c e.2), e.1))).map fun e => e.2).take n

/-- BF16 bytes of a centroid, and its value. -/
def centBytes (c : List Nat) : Bytes := (c.map fun v => toLE 2 (f2bf v)).flatten
def centVal (b : Bytes) (dim : Nat) : List Nat := (elemsOf 3 b dim).map bf2f

/-- Write survivors' records to fresh pages, RPP to a page (R669), with the leaf id they are written for; the pages come back. -/
def State.writeRun (s : State) (p : Part) (x : Desc) (leaf : Nat) (last : Option Nat) (l : List Surv) : Option (List Nat × State) :=
  match s.takePages p x.ext (ceilDiv l.length (max 1 x.rpp)) last with
  | none => none
  | some (pg, s) =>
    let recs := l.map fun e => patch e.rec_ 8 (toLE 4 leaf)
    let s := (List.zipIdx pg).foldl (fun (s : State) (e : Nat × Nat) =>
      s.stage (pageKey p.num x.ext e.1) 0 (((recs.drop (e.2 * x.rpp)).take x.rpp).flatten) 0) s
    some (pg, s)

/-- A leaf with all its survivors rewritten. -/
def State.rewriteLeaf (s : State) (p : Part) (x : Desc) (id cb parent prev : Nat) (cent : Bytes) (nbrs : List Nat) (q : LeafPlace) (l : List Surv) :
    Option (LeafNew × State) :=
  match s.writeRun p x id none l with
  | none => none
  | some (pg, s) =>
    let c := centVal cent x.dim
    some ({ id := id, cb := cb, nbrs := nbrs, cent := cent, parent := parent, prev := prev, place := q,
            codes := l.map fun e => s.encode p x cb c e.v, prints := l.map fun e => fingerprint e.vid, pages := pg,
            positions := List.range l.length }, s)

/-! ### New interior versions -/

/-- A new version of an interior node. -/
structure NodeNew where
  num : Nat
  level : Nat
  parent : Nat
  entries : List NodeEntry
  deriving DecidableEq, Repr

/-- A place for an interior version: partition memory, or SRAM of an owned tile (R92). -/
def Part.nodePlaceOk (p : Part) (e n : Nat) : Bool :=
  match nodeLoc e with
  | some (.pm o) => e == o + 1 && p.placeOk o (64 + 64 * n) 64
  | some (.tile t o) => e == (NodeLoc.tile t o).entry && p.owns t && 0x100000 ≤ o && o + 64 + 64 * n ≤ 0x400000
  | none => false

/-- The bytes of a node version, its stamp pending (R93). -/
def NodeNew.bytes (v : NodeNew) (prev pub : Nat) : Bytes :=
  let es := (v.entries.map fun e => toLE 4 e.child ++ toLE 4 e.pop ++ e.code).flatten
  let h := toLE 4 v.num ++ toLE 1 v.level ++ [0] ++ toLE 2 v.entries.length ++ toLE 4 v.parent ++ zeros 4 ++ toLE 8 prev
  h ++ toLE 8 pub ++ Stamp.ones.bytes ++ zeros 16 ++ toLE 4 (crc32c (h ++ es)) ++ es

/-- The population-weighted mean of a node's entries (R93). -/
def State.nodeMean (s : State) (p : Part) (x : Desc) (es : List NodeEntry) : List Nat :=
  let tot := (es.map fun e => e.pop).sum
  let w (e : NodeEntry) : Nat := if tot == 0 then 1 else e.pop
  let sum := es.foldl (fun (a : List Nat) (e : NodeEntry) =>
    List.zipWith (fun v c => add32 v (mul32 (int32f (w e)) c)) a (s.reconstruct p x e.code)) (List.replicate x.dim f32zero)
  let d := int32f (if tot == 0 then es.length else tot)
  sum.map fun v => div32 v d

/-- All current nodes from one on, itself first. -/
def State.nodesBelow (s : State) (p : Part) (x : Desc) : Nat → Nat → List Node
  | 0, _ => []
  | fuel + 1, num =>
    match s.curNode p x num with
    | none => []
    | some n => n :: (if n.level ≤ 1 then [] else n.entries.flatMap fun e => State.nodesBelow s p x fuel e.child)

/-- The current nodes of the tree. -/
def State.tree (s : State) (p : Part) (x : Desc) : List Node := s.nodesBelow p x 7 0

/-- The node of a level that lists a child. -/
def parentIn (t : List Node) (level child : Nat) : Option Node := t.find? fun n => n.level == level && n.entries.any (·.child == child)

/-- Live entries of a leaf now. -/
def State.leafLive (s : State) (p : Part) (x : Desc) (id : Nat) : Nat := match s.curLeaf p x id with | some l => l.live | none => 0

/-- Live entries below a node now, from the leaves up. -/
def State.livePop (s : State) (p : Part) (x : Desc) : Nat → Node → Nat
  | 0, _ => 0
  | fuel + 1, n =>
    if n.level ≤ 1 then (n.entries.map fun e => s.leafLive p x e.child).sum
    else (n.entries.map fun e => match s.curNode p x e.child with | some m => State.livePop s p x fuel m | none => 0).sum

/-- Bring the populations of a node's entries up to this publication; entries of `fixed` keep theirs. -/
def State.freshPops (s : State) (p : Part) (x : Desc) (level : Nat) (fixed : List Nat) (es : List NodeEntry) : List NodeEntry :=
  es.map fun e =>
    if fixed.contains e.child then e
    else if level ≤ 1 then { e with pop := s.leafLive p x e.child }
    else { e with pop := match s.curNode p x e.child with | some m => s.livePop p x 7 m | none => 0 }

/-- The lowest free node numbers that are not taken yet. -/
def State.freeNode (s : State) (p : Part) (x : Desc) (taken : List Nat) : Option Nat :=
  (List.range x.nodeN).find? fun n => n != 0 && nodeLoc (s.nodeEntry p x n) == none && !taken.contains n

/-- Divide the entries of a full node (R127): the nearer half stay, the rest leave. -/
def State.divide (s : State) (p : Part) (x : Desc) (es : List NodeEntry) : List NodeEntry × List NodeEntry :=
  let ref : Option NodeEntry := es.foldl (fun (b : Option NodeEntry) e => match b with
    | none => some e
    | some r => if e.pop > r.pop || (e.pop == r.pop && e.child < r.child) then some e else b) none
  let c := match ref with | some r => s.reconstruct p x r.code | none => []
  let keys := es.map fun e => (0xFFFFFFFF - keyOf (sqDist c (s.reconstruct p x e.code)), e.child)
  let sorted := (sortBy scoreBefore keys).filterMap fun k => es.find? fun e => e.child == k.2
  (sorted.take (ceilDiv es.length 2), sorted.drop (ceilDiv es.length 2))

/-- The entry of a node made of given entries. -/
def State.entryFor (s : State) (p : Part) (x : Desc) (num : Nat) (es : List NodeEntry) : NodeEntry :=
  { child := num, pop := (es.map fun e => e.pop).sum, code := s.routeCode p x (s.nodeMean p x es) }

/-- New versions that follow when a node's entries become `es` (R127): the node, and where it overflows a new node and the grandparent's
version, up to a new root. None where the depth would exceed its maximum or no number is free. -/
def State.changeNode (s : State) (p : Part) (x : Desc) (t : List Node) : Nat → Node → List NodeEntry → List Nat → Option (List NodeNew)
  | 0, _, _, _ => none
  | fuel + 1, n, es, taken =>
    if es.length ≤ 256 then some [{ num := n.num, level := n.level, parent := n.parent, entries := es }]
    else
      let (a, b) := s.divide p x es
      if n.num == 0 then
        if n.level + 1 > x.maxDepth then none
        else match s.freeNode p x taken with
          | none => none
          | some i => match s.freeNode p x (i :: taken) with
            | none => none
            | some j =>
              some [{ num := i, level := n.level, parent := 0, entries := a }, { num := j, level := n.level, parent := 0, entries := b },
                    { num := 0, level := n.level + 1, parent := 0xFFFFFFFF, entries := [s.entryFor p x i a, s.entryFor p x j b] }]
      else match s.freeNode p x taken, parentIn t (n.level + 1) n.num with
        | some j, some g =>
          let ges := (s.freshPops p x g.level [n.num] g.entries).map fun e => if e.child == n.num then s.entryFor p x n.num a else e
          match State.changeNode s p x t fuel g (ges ++ [s.entryFor p x j b]) (j :: taken) with
          | none => none
          | some l =>
            -- the parent of the new node is the version that lists it
            let par (c : Nat) : Nat := ((l.find? fun v => v.level == g.level && v.entries.any (·.child == c)).map (·.num)).getD g.num
            some ({ num := n.num, level := n.level, parent := par n.num, entries := a } :: { num := j, level := n.level, parent := par j, entries := b } :: l)
        | _, _ => none

/-- Write new node versions at the places given, one each. -/
def State.putNodes (s : State) (p : Part) (x : Desc) (pub : Nat) (l : List (NodeNew × Nat)) : State :=
  l.foldl (fun (s : State) (e : NodeNew × Nat) =>
    match nodeLoc e.2 with
    | some loc => s.nodeWrite p loc 0 (e.1.bytes (s.nodeEntry p x e.1.num) pub)
    | none => s) s

/-- Swap the interior table entries, and note the versions given up. -/
def State.swapNodes (s : State) (p : Part) (x : Desc) (n : Nat) (P : Stamp) (l : List (NodeNew × Nat)) : State :=
  l.foldl (fun (s : State) (e : NodeNew × Nat) =>
    let old := s.nodeEntry p x e.1.num
    let s := s.pmSet p (x.nodeT + 8 * e.1.num) 8 e.2
    let s := match nodeLoc e.2 with | some loc => s.nodeWrite p loc 0x18 (zeros 8 ++ P.bytes) | none => s
    if nodeLoc old == none then s
    else { s with srch := { s.srch with old := s.srch.old ++ [{ part := p.num, index := n, kind := 1, id := e.1.num, header := old, until_ := P, pages := [] }] } }) s

/-- The image of a node version: its piece's address is the interior table entry that names its place. -/
def NodeNew.image (v : NodeNew) (place prev pub : Nat) : Nat × Nat × List (Bool × Nat × Bytes) :=
  (2, v.num, [(false, place, v.bytes prev pub)])

/-! ### Racking (R122, R123, R670) -/

/-- Can a leaf with its centroid and codebook unchanged keep a survivor's code: a body survivor. -/
def Surv.isBody (e : Surv) (x : Desc) : Bool := e.slot < x.bodyCap

/-- Positions that the body survivors hold. -/
def State.keptPositions (s : State) (p : Part) (x : Desc) (l : Leaf) (sv : List Surv) : List Nat :=
  (sv.filter (·.isBody x)).map fun e => s.positionOf p l e.slot

/-- The new version of a racked leaf: keeping or rewrite (R123). None where the change is abandoned (R670) or no page is free. The old pages
that it no longer uses come back. -/
def State.rackedLeaf (s : State) (p : Part) (x : Desc) (l : Leaf) (cb : Nat) (cent : Bytes) (nbrs : List Nat) (parent : Nat) (q : LeafPlace) (sv : List Surv)
    (bad : List Nat) : Option (LeafNew × List Nat × State) :=
  let delta := sv.filter (!·.isBody x)
  let pages := l.pages + ceilDiv delta.length (max 1 x.rpp)
  let holes := pages * x.rpp - sv.length
  let keep := !(holes * 100 ≥ x.holeLimit * (pages * x.rpp)) && pages * x.rpp ≤ x.posCap
  let oldCent := s.pmRead p (l.at_ + 256) (2 * x.dim)
  let same := cent == oldCent && cb == l.cb
  let unread (e : Surv) : Bool := bad.contains e.page
  let runPages := (List.range l.pages).map fun i => s.pmNum p (l.pageMap + 5 * i) 5
  if !keep then
    if sv.any unread then none
    else match s.rewriteLeaf p x l.id cb parent l.at_ cent nbrs q sv with
      | none => none
      | some (v, s) => some (v, runPages, s)
  else if delta.any unread || (!same && sv.any unread) then none
  else match s.writeRun p x l.id runPages.getLast? delta with
    | none => none
    | some (pg, s') =>
      let c := centVal cent x.dim
      let v : LeafNew :=
        { id := l.id, cb := cb, nbrs := nbrs, cent := cent, parent := parent, prev := l.at_, place := q,
          codes := sv.map fun e => if unread e then s.codeOf x l e.slot else s.encode p x cb c e.v,
          prints := sv.map fun e => if unread e then s.pmNum p (l.prints + 2 * e.slot) 2 else fingerprint e.vid,
          pages := runPages ++ pg,
          positions := s.keptPositions p x l sv ++ (List.range delta.length).map (· + l.pages * x.rpp) }
      some (v, [], s')

/-- Mark an old header superseded, and keep it for the readers that may still bind to it (R118). -/
def State.supersede (s : State) (p : Part) (n : Nat) (l : Leaf) (P : Stamp) (pages : List Nat) : State :=
  let s := s.pmSet p (l.at_ + 0xDB) 1 2
  { s with srch := { s.srch with
      old := s.srch.old ++ [{ part := p.num, index := n, kind := 0, id := l.id, header := l.at_, until_ := P, pages := pages }],
      changed := s.srch.changed.filter (· != (p.num, n, l.id)) } }

/-- Survivors, codebook and parent of a leaf that is to change, when nothing stands in the way. -/
structure RackCtx where
  x : Desc
  l : Leaf
  tree : List Node
  par : Node
  cb : Nat
  deriving DecidableEq, Repr

/-- The leaf of a command, with what every change of it needs; a leaf whose append lock is held waits (R119). -/
def State.rackCtx (s : State) (part index leaf : Nat) : Option (Part × RackCtx) :=
  match s.part? part with
  | none => none
  | some p =>
    if !s.works part || !s.canPublish || s.leafLocked part index leaf then none
    else match s.desc? p index with
      | none => none
      | some x =>
        let t := s.tree p x
        match s.curLeaf p x leaf, parentIn t 1 leaf, s.newestCb p x with
        | some l, some par, some cb => some (p, ⟨x, l, t, par, cb⟩)
        | _, _, _ => none

/-- Centroids of a level-1 node's children, but for some. -/
def State.siblings (s : State) (p : Part) (x : Desc) (n : List NodeEntry) (but : List Nat) : List (Nat × List Nat) :=
  n.filterMap fun e => if but.contains e.child then none else (s.curLeaf p x e.child).map fun l => (e.child, s.leafCent p x l.at_)

/-- Rack a leaf (R122). `place` holds the pieces of the new version, `pub` the publication record, `node` the place of the parent's new
version (used when the centroid changes), `bad` the pages that cannot be read. -/
def State.rackLeaf (s : State) (p : Part) (index : Nat) (c : RackCtx) (q : LeafPlace) (pub node : Nat) (bad : List Nat) : Option State :=
  let x := c.x
  let (cut, s) := s.partStamp p.num
  let sv := s.survivors p x c.l cut
  let post := s.postOf p x index c.l.id
  let oldCent := s.pmRead p (c.l.at_ + 256) (2 * x.dim)
  let cent := match post with | some (_, _, b) => b | none => oldCent
  let nbrs := nearestLeaves x.nbrs (centVal cent x.dim) (s.siblings p x c.par.entries [c.l.id])
  let s := s.readSurvivors p x sv
  match s.rackedLeaf p x c.l c.cb cent nbrs c.par.num q sv bad with
  | none => none
  | some (v, gone, s) =>
    let es := (s.freshPops p x 1 [c.l.id] c.par.entries).map fun (e : NodeEntry) =>
      if e.child == c.l.id then { e with pop := sv.length, code := s.routeCode p x (centVal cent x.dim) } else e
    let nn : List (NodeNew × Nat) := if cent == oldCent then [] else [({ num := c.par.num, level := 1, parent := c.par.parent, entries := es }, node)]
    if nn.any fun e => !p.nodePlaceOk e.2 e.1.entries.length then none
    else
      match s.versionImages p x.ext 1 index ((1, v.id, v.pieces x pub) :: nn.map fun e => e.1.image e.2 (s.nodeEntry p x e.1.num) pub) with
      | none => none
      | some (is, s) =>
        let s := (s.putLeaf p x pub v).putNodes p x pub nn
        let s := s.swapLeaf p x v.id 1 v.place.header
        let (P, s) := s.publishNow p 1 index pub is
        let s := ((s.stampLeaf p v.place.header P).swapNodes p x index P nn).supersede p index c.l P gone
        some (if post.isSome then s.dropPost p x index c.l.id else s)

/-! ### Split (R125) -/

/-- Survivors in vector id order, equal ids in slot order. -/
def byId (l : List Surv) : List Surv :=
  let keys := (sortBy idBefore ((List.zipIdx l).map fun e => (2 ^ 32 - e.2, e.1.vid))).map fun k => 2 ^ 32 - k.1
  keys.filterMap fun i => l[i]?

/-- The mean of vectors in the order given (FP32 sums, one quotient); none of no vector. -/
def meanOf (dim : Nat) (l : List (List Nat)) : Option (List Nat) :=
  if l.isEmpty then none
  else some ((l.foldl (List.zipWith add32) (List.replicate dim f32zero)).map fun v => div32 v (int32f l.length))

/-- Is a vector nearer to the second of two centres; ties go to the first. -/
def nearer2 (a b v : List Nat) : Bool := lt32 (sqDist v b) (sqDist v a)

/-- Rounds of two-means. -/
def twoMeans (dim : Nat) (l : List Surv) : Nat → List Nat × List Nat → List Nat × List Nat
  | 0, c => c
  | n + 1, (a, b) =>
    let side (w : Bool) : List (List Nat) := (l.filter fun e => nearer2 a b e.v == w).map fun e => e.v
    twoMeans dim l n ((meanOf dim (side false)).getD a, (meanOf dim (side true)).getD b)

/-- The starting centres: the lowest id, and the survivor farthest from it. -/
def startCentres (l : List Surv) : Option (List Nat × List Nat) :=
  match l with
  | [] => none
  | a :: _ =>
    let far : Surv := l.foldl (fun (m : Surv) (e : Surv) => if lt32 (sqDist m.v a.v) (sqDist e.v a.v) then e else m) a
    some (a.v, far.v)

/-- Divide survivors by two-means (R125): the two BF16 centroids with their survivors in slot order; none where a side ends empty. -/
def splitSides (x : Desc) (sv : List Surv) : Option ((Bytes × List Surv) × (Bytes × List Surv)) :=
  let l := byId sv
  match startCentres l with
  | none => none
  | some c =>
    let (a, b) := twoMeans x.dim l 8 c
    let ab := centBytes a
    let bb := centBytes b
    let left := sv.filter fun e => !nearer2 (centVal ab x.dim) (centVal bb x.dim) e.v
    let right := sv.filter fun e => nearer2 (centVal ab x.dim) (centVal bb x.dim) e.v
    if left.isEmpty || right.isEmpty then none else some ((ab, left), (bb, right))

/-- The lowest free leaf ids. -/
def State.freeLeaves (s : State) (p : Part) (x : Desc) (n : Nat) : List Nat :=
  ((List.range x.leafN).filter fun i => leState (s.leafEntry p x i) == 0).take n

/-- A forwarding record (R130). -/
def fwdBytes (id cause : Nat) (succ : List Nat) (P : Stamp) (last : Nat) : Bytes :=
  let h := toLE 4 id ++ toLE 1 succ.length ++ toLE 1 cause ++ zeros 2 ++ P.bytes ++ zeros 4 ++ toLE 8 last ++
    ((succ ++ List.replicate (2 - succ.length) 0xFFFFFFFF).map (toLE 4)).flatten ++ zeros 20
  h ++ toLE 4 (crc32c h)

/-- Retire a leaf: its forwarding record, table entry, last version and post (R127, R130, R340). -/
def State.retireLeaf (s : State) (p : Part) (x : Desc) (n : Nat) (l : Leaf) (cause : Nat) (succ : List Nat) (fwd : Nat) (P : Stamp) : State :=
  let s := s.pmWrite p fwd (fwdBytes l.id cause succ P l.at_)
  let s := s.swapLeaf p x l.id 2 fwd
  let run := (List.range l.pages).map fun i => s.pmNum p (l.pageMap + 5 * i) 5
  let s := (s.supersede p n l P run).dropPost p x n l.id
  { s with srch := { s.srch with old := s.srch.old ++ [{ part := p.num, index := n, kind := 2, id := l.id, header := fwd, until_ := P, pages := [] }] } }

/-- Number node places for a list of new versions. -/
def placeNodes (p : Part) (l : List NodeNew) (places : List Nat) : Option (List (NodeNew × Nat)) :=
  if places.length < l.length then none
  else
    let r := l.zip places
    if r.all fun e => p.nodePlaceOk e.2 e.1.entries.length then some r else none

/-- The version among new ones, or of the tree, that lists a child at level 1. -/
def listsLeaf (l : List NodeNew) (child : Nat) : Option NodeNew := l.find? fun v => v.level == 1 && v.entries.any (·.child == child)

/-- A split is left undone: too deep, or a side ends empty (R125, R128). -/
def State.splitFails (s : State) (p : Part) (c : RackCtx) (cut : Stamp) : Bool :=
  match splitSides c.x (s.survivors p c.x c.l cut), s.freeLeaves p c.x 2 with
  | some _, [a, b] =>
    let es := c.par.entries.flatMap fun (e : NodeEntry) => if e.child == c.l.id then [{ e with child := a }, { e with child := b }] else [e]
    (s.changeNode p c.x c.tree 8 c.par es []).isNone
  | _, _ => true

/-- Split a leaf (R125, R127). -/
def State.split (s : State) (p : Part) (index : Nat) (c : RackCtx) (qa qb : LeafPlace) (pub : Nat) (nodes : List Nat) (fwd : Nat) (bad : List Nat) : Option State :=
  let x := c.x
  let (cut, s) := s.partStamp p.num
  let sv := s.survivors p x c.l cut
  if sv.any fun e => bad.contains e.page then none
  else
    let s := s.readSurvivors p x sv
    match splitSides x sv, s.freeLeaves p x 2 with
    | some ((ca, la), (cb, lb)), [ia, ib] =>
      let es := (s.freshPops p x 1 [c.l.id] c.par.entries).flatMap fun (e : NodeEntry) =>
        if e.child == c.l.id then
          [{ child := ia, pop := la.length, code := s.routeCode p x (centVal ca x.dim) }, { child := ib, pop := lb.length, code := s.routeCode p x (centVal cb x.dim) }]
        else [e]
      match s.changeNode p x c.tree 8 c.par es [] with
      | none => none
      | some nl =>
        match placeNodes p nl nodes, listsLeaf nl ia, listsLeaf nl ib with
        | some nn, some pa, some pb =>
          let sib (v : NodeNew) (me other : Nat) (oc : Bytes) : List (Nat × List Nat) :=
            s.siblings p x v.entries [me, other] ++ (if v.entries.any (·.child == other) then [(other, centVal oc x.dim)] else [])
          let na := nearestLeaves x.nbrs (centVal ca x.dim) (sib pa ia ib cb)
          let nb := nearestLeaves x.nbrs (centVal cb x.dim) (sib pb ib ia ca)
          match s.rewriteLeaf p x ia c.cb pa.num 0 ca na qa la with
          | none => none
          | some (va, s) =>
            match s.rewriteLeaf p x ib c.cb pb.num 0 cb nb qb lb with
            | none => none
            | some (vb, s) =>
              let imgs := [(1, ia, va.pieces x pub), (1, ib, vb.pieces x pub), (3, c.l.id, [(false, fwd, fwdBytes c.l.id 1 [ia, ib] Stamp.ones c.l.at_)])] ++
                nn.map fun e => e.1.image e.2 (s.nodeEntry p x e.1.num) pub
              match s.versionImages p x.ext 1 index imgs with
              | none => none
              | some (is, s) =>
                let s := (s.swapLeaf p x ia 1 qa.header).swapLeaf p x ib 1 qb.header
                let s := ((s.putLeaf p x pub va).putLeaf p x pub vb).putNodes p x pub nn
                let s := sv.foldl (fun (s : State) (e : Surv) =>
                  s.dirWrite p x index e.vid (some (if lb.any (·.slot == e.slot) then ib else ia))) s
                let (P, s) := s.publishNow p 1 index pub is
                let s := ((s.stampLeaf p qa.header P).stampLeaf p qb.header P).swapNodes p x index P nn
                some (s.retireLeaf p x index c.l 1 [ia, ib] fwd P)
        | _, _, _ => none
    | _, _ => none

/-! ### Merge (R126) -/

/-- The neighbour that a leaf merges with: the first that shares its parent and whose survivors fit. -/
def State.mergeWith (s : State) (p : Part) (c : RackCtx) (cut : Stamp) : Option Leaf :=
  let mine := (s.survivors p c.x c.l cut).length
  (c.l.nbrs.filterMap fun id => if c.par.entries.any (·.child == id) then s.curLeaf p c.x id else none).find? fun l =>
    mine + (s.survivors p c.x l cut).length ≤ c.x.splitAt

/-- Merge a leaf with its neighbour (R126, R127). -/
def State.merge (s : State) (p : Part) (index : Nat) (c : RackCtx) (q : LeafPlace) (pub : Nat) (nodes : List Nat) (fwdA fwdB : Nat) (bad : List Nat) : Option State :=
  let x := c.x
  let (cut, s) := s.partStamp p.num
  match s.mergeWith p c cut, s.freeLeaves p x 1 with
  | some l2, [id] =>
    let sa := s.survivors p x c.l cut
    let sb := s.survivors p x l2 cut
    let sv := sa ++ sb
    if s.leafLocked p.num index l2.id || sv.any fun e => bad.contains e.page then none
    else
      let s := s.readSurvivors p x sv
      let cent := match meanOf x.dim (sv.map fun e => e.v) with | some m => centBytes m | none => s.pmRead p (c.l.at_ + 256) (2 * x.dim)
      let es := (s.freshPops p x 1 [c.l.id] c.par.entries).filterMap fun (e : NodeEntry) =>
        if e.child == c.l.id then some { child := id, pop := sv.length, code := s.routeCode p x (centVal cent x.dim) }
        else if e.child == l2.id then none else some e
      let nbrs := nearestLeaves x.nbrs (centVal cent x.dim) (s.siblings p x es [id])
      match s.changeNode p x c.tree 8 c.par es [] with
      | none => none
      | some nl =>
        match placeNodes p nl nodes, s.rewriteLeaf p x id c.cb c.par.num 0 cent nbrs q sv with
        | some nn, some (v, s) =>
          let imgs := [(1, id, v.pieces x pub), (3, c.l.id, [(false, fwdA, fwdBytes c.l.id 2 [id] Stamp.ones c.l.at_)]),
            (3, l2.id, [(false, fwdB, fwdBytes l2.id 2 [id] Stamp.ones l2.at_)])] ++ nn.map fun e => e.1.image e.2 (s.nodeEntry p x e.1.num) pub
          match s.versionImages p x.ext 1 index imgs with
          | none => none
          | some (is, s) =>
            let s := s.swapLeaf p x id 1 q.header
            let s := (s.putLeaf p x pub v).putNodes p x pub nn
            let s := sv.foldl (fun (s : State) (e : Surv) => s.dirWrite p x index e.vid (some id)) s
            let (P, s) := s.publishNow p 1 index pub is
            let s := (s.stampLeaf p q.header P).swapNodes p x index P nn
            some ((s.retireLeaf p x index c.l 2 [id] fwdA P).retireLeaf p x index l2 2 [id] fwdB P)
        | _, _ => none
  | _, _ => none

/-! ### Decisions (R121) -/

/-- What a racking decision does with a leaf: 1 rack, 2 split, 3 merge; none where no trigger holds or what it calls for cannot be done and
no lower trigger calls for racking. -/
def State.decision (s : State) (p : Part) (index : Nat) (c : RackCtx) : Option (Nat × Nat) :=
  let ts := s.triggers p c.x index c.l
  let racks := ts.filter fun t => t != 2 && t != 5
  match ts with
  | [] => none
  | 2 :: _ => if s.splitFails p c Stamp.ones then (racks.head?).map fun t => (1, t) else some (2, 2)
  | 5 :: _ => if (s.mergeWith p c Stamp.ones).isNone then (racks.head?).map fun t => (1, t) else some (3, 5)
  | t :: _ => some (1, t)

end Sys2Proof.Machine
end

