-- ==== Sys2Proof/Machine/RackWork.lean ====
section
/-! DEFINITION. Sys2Proof/Machine/RackWork.lean: what the commands do that change the tree of an index and give back what readers no longer see, and the durability
sweep and the trail writer (R118, R121–R132, R216, R620, R623). -/
namespace Sys2Proof.Machine

/-! ### The read floor (R118) -/

/-- Stamps of the active readers of a partition: its queries and its gather commands. -/
def State.readers (s : State) (part : Nat) : List Stamp :=
  (s.srch.queries.filter (·.part == part)).map (·.stamp) ++
    s.gather.filterMap fun e => match e.2.cmd with | some c => if c.part == part then some (stampAt c.desc 8) else none | none => none

/-- The read floor of a partition. -/
def State.readFloor (s : State) (part : Nat) : Stamp :=
  (s.readers part).foldl (fun (m : Stamp) x => if x.before m then x else m) ⟨BitVec.ofNat 64 (s.rack - 50000000), 0, 0⟩

/-- Reclaim one superseded version (R118, R132, R216). A retired leaf id goes free once no link names it. -/
def State.reclaim (s : State) (p : Part) (o : OldVersion) : State :=
  match o.kind, s.desc? p o.index with
  | 0, some x =>
    let l := s.parseLeafAt p o.header
    let s := s.freePages p.num x.ext o.pages
    (l.nbrs.foldl (fun (s : State) m => s.linkAdd p x m false) s).cbUse p x l.cb false
  | 2, some x => s.setLeafEntry p x o.id 0
  | 3, _ =>
    -- the path cache entries tagged with it go, and the release list of its successor has been freed
    { s with gather := s.gather.map fun e => (e.1, if (s.ownerOf e.1).any (fun q => q.num == p.num) then { e.2 with cache := e.2.cache.filter fun c => c.1 != o.header } else e.2) }
  | _, _ => s

/-- May a version be reclaimed under a read floor. -/
def State.reclaimable (s : State) (p : Part) (fl : Stamp) (o : OldVersion) : Bool :=
  o.until_.before fl && (o.kind != 2 || match s.desc? p o.index with | some x => leLinks (s.leafEntry p x o.id) == 0 | none => false)

/-- Clear the release list of the successor of a reclaimed table version: the next older version of the same table, or the current one. -/
def State.clearRelease (s : State) (p : Part) (o : OldVersion) : State :=
  let chain := ((s.srch.old.filter fun v => v.part == p.num && v.kind == 3 && v.id == o.id).map (·.header)) ++ (s.tableHead p o.id).toList
  match chain.find? fun a => s.pmNum p (a + 0x18) 8 == o.header with
  | some a => s.pmSet p (a + 0xE8) 4 0
  | none => s

/-- Take the oldest reclaimable versions away, one at a time. -/
def State.reclaimAll (s : State) (p : Part) (fl : Stamp) : List OldVersion → State
  | [] => s
  | o :: r =>
    let s := if s.reclaimable p fl o then
        let s := { s with srch := { s.srch with old := s.srch.old.erase o } }
        let s := if o.kind == 3 then s.clearRelease p o else s
        s.reclaim p o
      else s
    State.reclaimAll s p fl r

/-- Prune the recent deletes of a leaf (R118). -/
def State.pruneLeaf (s : State) (p : Part) (x : Desc) (fl : Stamp) (id : Nat) : State :=
  match s.curLeaf p x id with
  | none => s
  | some l =>
    let rs := s.recents p l
    let keep := rs.filter fun e => !e.2.before fl
    if keep.length == rs.length then s else s.setRecents p l keep

/-- Pages of the delta stream that a version's delta metadata names. -/
def State.deltaPages (s : State) (p : Part) (l : Leaf) : List Nat := (List.range l.delta).map fun j => s.pmNum p (l.meta_ + 32 * j + 0x18) 5

/-- Free the delta-stream pages of an index that no remaining version names; the page being filled stays. -/
def State.freeDelta (s : State) (p : Part) (n : Nat) (x : Desc) : State :=
  let ds := s.stream p.num n
  let done := ds.pages.dropLast
  if done.isEmpty then s
  else
    let cur := (List.range x.leafN).flatMap fun id => match s.curLeaf p x id with | some l => s.deltaPages p l | none => []
    let old := (s.srch.old.filter fun o => o.part == p.num && o.index == n && o.kind == 0).flatMap fun o => s.deltaPages p (s.parseLeafAt p o.header)
    let used := cur ++ old
    let gone := done.filter (!used.contains ·)
    let s := s.freePages p.num x.ext gone
    { s with srch := { s.srch with streams := s.srch.streams.set DeltaStream.reset (p.num * 16 + n) { ds with pages := ds.pages.filter (!gone.contains ·) } } }

/-- A table whose only version is an empty one that has been reclaimable for a sweep goes free (R216). -/
def State.dropTable (s : State) (p : Part) (fl : Stamp) (id : Nat) : State :=
  match s.curTable p id with
  | some t =>
    let b := s.pmRead p t.off 512
    if t.dims == 0 && !s.srch.old.any (fun o => o.part == p.num && o.kind == 3 && o.id == id) && (s.pubStamp p (stampAt b 0xC8) (fieldAt b 0xC0 8)).before fl
    then s.pmSet p (tableEntryAt id) 8 0 else s
  | none => s

/-- One sweep of a partition (R118). -/
def State.floorSweep (s : State) (p : Part) : State :=
  let fl := s.readFloor p.num
  -- what this sweep reclaims was already without readers, so an emptied table has been reclaimable for one sweep only from the next on
  let s := if p.holdsTables then (List.range 65536).foldl (fun (s : State) id => if s.pmNum p (tableEntryAt id) 8 == 0 then s else s.dropTable p fl id) s else s
  let s := s.reclaimAll p fl (s.srch.old.filter (·.part == p.num))
  (List.range 16).foldl (fun (s : State) n =>
    match s.desc? p n with
    | none => s
    | some x => (((List.range x.leafN).foldl (fun (s : State) id => s.pruneLeaf p x fl id) s).freeDelta p n x).cbFree p x) s

/-! ### Sweep images and the trail (R620, R623) -/

/-- The changeable parts of a leaf (R617). -/
def State.leafSweep (s : State) (p : Part) (x : Desc) (l : Leaf) : List (Bool × Nat × Bytes) :=
  let n := x.bodyCap + x.deltaCap
  [(true, l.deltaCodes, s.locRead (.dram (scanAddrStack l.deltaCodes) (scanAddrOff l.deltaCodes)) (6 * l.delta)), (false, l.meta_, s.pmRead p l.meta_ (32 * l.delta)),
   (false, l.tombs, s.pmRead p l.tombs (ceilDiv n 8)), (false, l.recent, s.pmRead p l.recent (16 * l.recentN)), (false, l.at_ + 0xD4, s.pmRead p (l.at_ + 0xD4) 8)]

/-- The swept parts of an index: its directory log, its descriptor, and the refinement record's fixed part and control block, which are kept
with the descriptor (R341, R617). -/
def State.indexSweep (s : State) (p : Part) (n : Nat) (x : Desc) : List (Bool × Nat × Bytes) :=
  [(false, x.dirLog, s.pmRead p x.dirLog (16 * x.dirCap)), (false, descAt n, s.pmRead p (descAt n) 256)] ++
    (if s.refineOk p n then [(false, refineAt n, s.pmRead p (refineAt n) 0x100)] else [])

/-- The newest image of a leaf or of an index. -/
def State.newestCover (s : State) (part index leaf : Nat) : Option Stamp :=
  let mine := s.dur.images.filter fun (i : Img) => i.part == part && i.objKind == 1 && i.obj == index && i.cover != Stamp.ones &&
    (if leaf == 0xFFFFFFFF then i.kind == 6 else (i.kind == 1 || i.kind == 5) && i.id == leaf)
  mine.foldl (fun (m : Option Stamp) (i : Img) => match m with | none => some i.cover | some v => if v.before i.cover then some i.cover else m) none

/-- Due for a sweep image: changed, and its newest image older than the horizon in force (R620). -/
def State.sweepDue (s : State) (part index leaf : Nat) : Bool :=
  s.srch.changed.contains (part, index, leaf) &&
    match s.newestCover part index leaf with
    | none => true
    | some c => c.time.toNat + s.pwr.horizonUsed.toNat * 10 ^ 9 < s.rack

/-- Write a sweep image with its SWEEP record, sealed with the cover stamp. -/
def State.sweepImage (s : State) (p : Part) (index leaf : Nat) (x : Desc) (kind : Nat) (pieces : List (Bool × Nat × Bytes)) : State :=
  let (cover, s') := s.partStamp p.num
  match s'.writeImage p x.ext 1 index kind (if kind == 5 then leaf else index) cover s'.dur.nextSeq pieces with
  | none => s
  | some (im, s') =>
    let (seq, s') := s'.journal 0x04 p.num 1 0 index (toLE 4 leaf ++ toLE 5 (im.pages.headD 0) ++ toLE 2 im.pages.length ++ zeros 5)
    let s' := s'.sealRec seq cover
    { s' with srch := { s'.srch with changed := s'.srch.changed.filter (· != (p.num, index, leaf)) } }

/-- A record may be programmed: sealed or voided, or 1 ms old (R623). -/
def JRec.ripe (r : JRec) (now : Nat) : Bool := r.sealed.isSome || r.voided || r.at_ + 1000000 ≤ now

/-- Program records in sequence order up to the first that is not ripe; a record programmed without its seal gets a SEAL record later. -/
def trailRun (now : Nat) : List JRec → List JRec
  | [] => []
  | r :: l =>
    if r.inTrail then { r with sealTrail := r.sealTrail || r.sealed.isSome } :: trailRun now l
    else if r.ripe now then { r with inTrail := true, sealTrail := r.sealed.isSome } :: trailRun now l
    else r :: l

/-- Records whose seal came after they were programmed: each gets a SEAL record (R623). -/
def lateSeals (l : List JRec) : List JRec := l.filter fun r => r.inTrail && !r.sealTrail && r.sealed.isSome && r.typ != 7

end Sys2Proof.Machine
end

