-- ==== Sys2Proof/Machine/Recovery.lean ====
section
/-! DEFINITION. Sys2Proof/Machine/Recovery.lean: the recovery of a partition that owns flash extents: images, replay of sealed records, tier rows
and the pages given back (R341, R617–R619, R631–R633). -/
namespace Sys2Proof.Machine

/-- Why a partition's recovery fails (R633): for lack of the reserve or of a complete flush, or because a journal record or an image (with its
first page) cannot be used. -/
inductive RecFail where
  | reserve
  | flush
  | record
  | image (page : Nat)
  deriving DecidableEq, Repr

/-- Images of an object that a sealed record names. -/
def State.sealedImgs (s : State) (p objKind obj : Nat) : List Img :=
  s.dur.images.filter fun (i : Img) => i.part == p && i.objKind == objKind && i.obj == obj && i.cover != Stamp.ones

/-- The newest of some images: the one whose cover stamp orders last. -/
def newestImg (l : List Img) : Option Img :=
  l.foldl (fun (b : Option Img) (i : Img) => match b with
    | none => some i
    | some v => if v.cover.before i.cover then some i else b) none

/-- Images by ascending cover stamp. -/
def insertImg (i : Img) : List Img → List Img
  | [] => [i]
  | v :: r => if i.cover.before v.cover then i :: v :: r else v :: insertImg i r

def byCover (l : List Img) : List Img := l.foldl (fun (a : List Img) (i : Img) => insertImg i a) []

/-- Sealed records by ascending seal. -/
def insertRec (e : JRec) : List JRec → List JRec
  | [] => [e]
  | v :: r => if (e.sealed.getD Stamp.zero).before (v.sealed.getD Stamp.zero) then e :: v :: r else v :: insertRec e r

def bySeal (l : List JRec) : List JRec := l.foldl (fun (a : List JRec) (e : JRec) => insertRec e a) []

/-- A piece of an image lies where the partition has memory (R633). -/
def Part.pieceOk (p : Part) (kind : Nat) (e : Bool × Nat × Bytes) : Bool :=
  if kind == 2 then (match nodeLoc e.2.1 with
    | some (.pm o) => o + e.2.2.length ≤ p.memBytes
    | some (.tile t o) => p.owns t && o + e.2.2.length ≤ 0x400000
    | none => false)
  else if e.1 then e.2.2.isEmpty || (scanAddrOk e.2.1 && p.inScan (scanAddrStack e.2.1) (scanAddrOff e.2.1) e.2.2.length)
  else e.2.1 + e.2.2.length ≤ p.memBytes

/-- An image can be loaded: its pages are readable and its pieces lie within the partition's memory. -/
def Img.usable (i : Img) (p : Part) (ext : Nat) (unread : List Nat) : Bool :=
  !i.pages.any (fun n => unread.contains (pageKey p.num ext n)) && i.pieces.all (p.pieceOk i.kind)

/-- Write the pieces of an image back. -/
def State.loadImg (s : State) (p : Part) (i : Img) : State :=
  if i.kind == 2 then
    i.pieces.foldl (fun (s : State) (e : Bool × Nat × Bytes) => match nodeLoc e.2.1 with
      | some l => s.nodeWrite p l 0 e.2.2
      | none => s) s
  else i.pieces.foldl (fun (s : State) (e : Bool × Nat × Bytes) => s.putPiece p e) s

/-- Address of the first piece. -/
def Img.place (i : Img) : Nat := ((i.pieces.head?).map fun e => e.2.1).getD 0

/-! ### Indexes -/

/-- Load an interior node version: its bytes, its publication stamp, and the table entry. -/
def State.loadNode (s : State) (p : Part) (x : Desc) (i : Img) : State :=
  let s := s.loadImg p i
  let s := match nodeLoc i.place with | some l => s.nodeWrite p l 0x18 (zeros 8 ++ i.cover.bytes) | none => s
  s.pmSet p (x.nodeT + 8 * i.id) 8 i.place

/-- Load a leaf version or a forwarding record. -/
def State.loadLeaf (s : State) (p : Part) (x : Desc) (i : Img) : State :=
  let s := s.loadImg p i
  if i.kind == 3 then
    let b := patch (s.pmRead p i.place 60) 8 i.cover.bytes
    (s.pmWrite p i.place (b ++ toLE 4 (crc32c b))).swapLeaf p x i.id 2 i.place
  else (s.stampLeaf p i.place i.cover).swapLeaf p x i.id 1 i.place

/-- Fingerprints are not imaged: body slots' come from their records, delta slots' from their metadata. -/
def State.loadPrints (s : State) (p : Part) (x : Desc) (l : Leaf) : State :=
  let s := (List.range l.body).foldl (fun (s : State) i =>
    let (pg, ix) := s.recordOf p x l i
    s.pmSet p (l.prints + 2 * i) 2 (fingerprint (leNat (s.flashRead (pageKey p.num x.ext pg) (ix * x.recSize) 6)))) s
  (List.range l.delta).foldl (fun (s : State) j =>
    s.pmSet p (l.prints + 2 * (x.bodyCap + j)) 2 (fingerprint (s.pmNum p (l.meta_ + 32 * j) 6))) s

/-- Count the links and the codebook use of a loaded leaf (R90, R95). -/
def State.loadLinks (s : State) (p : Part) (x : Desc) (l : Leaf) : State :=
  let s := (l.nbrs.foldl (fun (s : State) m => s.linkAdd p x m true) s).cbUse p x l.cb true
  if (s.cbSlot p x l.cb).state == 1 then s.pmSet p (x.cbT + 32 * l.cb) 1 2 else s

/-- Append a replayed entry: the slots between the loaded count and its own were left by attempts that no seal confirms, and are dead. -/
def State.replayAdd (s : State) (p : Part) (x : Desc) (l : Leaf) (b : Bytes) (a : Stamp) : Option State :=
  let slot := fieldAt b 0xC 2
  let j := slot - x.bodyCap
  if slot < x.bodyCap || j < l.delta || j ≥ x.deltaCap then none
  else
    let s := (List.range (j - l.delta)).foldl (fun (s : State) i => s.pmSetBit p l.tombs (x.bodyCap + l.delta + i) true) s
    let s := s.pmSet p (l.at_ + 0xD4) 2 j
    let s := s.appendDelta p x { l with delta := j } (fieldAt b 0 6) (fieldAt b 0x14 5) (fieldAt b 0x19 1) (slice b 0x1C 6)
    some (s.pmWrite p (l.meta_ + 32 * j + 8) a.bytes)

/-- Delete a slot again. The read floor starts at the restart, so older recent deletes may give way. -/
def State.replayDelete (s : State) (p : Part) (l : Leaf) (slot : Nat) (a : Stamp) : State :=
  if s.tomb p l slot then s
  else
    let s := s.pmSetBit p l.tombs slot true
    let rs := s.recents p l
    let s := s.setRecents p l (rs.drop (rs.length - 31) ++ [(slot, a)])
    (s.leafAdd p l 0xD8 true).leafAdd p l 0xD6 false

/-- Apply one sealed UPDATE record (R631 step 6). `cov` gives each leaf's cover stamp, `ix` the index image's. -/
def State.replayRec (s : State) (p : Part) (x : Desc) (n : Nat) (cov : List (Nat × Stamp)) (ix : Stamp) (badRecs : List Nat) (r : JRec) : Option State :=
  let b := r.body
  let a := r.sealed.getD Stamp.zero
  let adds := r.flags.testBit 0
  let found := r.flags.testBit 1 && !r.flags.testBit 2
  let nl := fieldAt b 8 4
  let ol := fieldAt b 0x10 4
  let after (l : Nat) : Option Bool := (cov.find? (·.1 == l)).map fun e => e.2.before a
  let doNew : Option Bool := if adds then after nl else some false
  let doOld : Option Bool := if found && ol != 0xFFFFFFFF then after ol else some false
  match doNew, doOld with
  | some dn, some dd =>
    let dir := ix.before a
    if !dn && !dd && !dir then some s
    else if badRecs.contains r.seq then none
    else
      let s1 : Option State := if !dn then some s else match s.curLeaf p x nl with
        | some l => (s.replayAdd p x l b a).map fun s => s.noteChange p.num n nl
        | none => none
      match s1 with
      | none => none
      | some s =>
        let s := if !dd then s else match s.curLeaf p x ol with
          | some l => (s.replayDelete p l (fieldAt b 0xE 2) a).noteChange p.num n ol
          | none => s
        let s := if !dir then s
          else if adds then (s.dirWrite p x n (fieldAt b 0 6) (some nl)).noteChange p.num n 0xFFFFFFFF
          else if found then (s.dirWrite p x n (fieldAt b 0 6) none).noteChange p.num n 0xFFFFFFFF
          else s
        some s
  | _, _ => none

/-- Replay records in order. -/
def State.replayAll (s : State) (p : Part) (x : Desc) (n : Nat) (cov : List (Nat × Stamp)) (ix : Stamp) (badRecs : List Nat) : List JRec → Option State
  | [] => some s
  | r :: l => match s.replayRec p x n cov ix badRecs r with
    | some s => State.replayAll s p x n cov ix badRecs l
    | none => none

/-- Pages that an index's loaded versions name. -/
def State.indexPages (s : State) (p : Part) (x : Desc) : List Nat :=
  (List.range x.leafN).flatMap fun id => match s.curLeaf p x id with
    | some l => ((List.range l.pages).map fun i => s.pmNum p (l.pageMap + 5 * i) 5) ++ s.deltaPages p l
    | none => []

/-- Load the newest image of each thing of an index, then replay (R631 steps 5 and 6): the state, and the images that were loaded. -/
def State.recoverIndex (s : State) (p : Part) (n : Nat) (unread badRecs : List Nat) : Except RecFail (List Img × State) :=
  let imgs := s.sealedImgs p.num 1 n
  let recs := bySeal (s.dur.journal.filter fun r => r.part == p.num && r.typ == 1 && r.obj == n && r.sealed.isSome && !r.voided)
  match newestImg (imgs.filter (·.kind == 6)) with
  | none => if imgs.isEmpty && recs.isEmpty then .ok ([], s) else .error .record
  | some i6 =>
    let ext := fieldAt (((i6.pieces.find? fun (e : Bool × Nat × Bytes) => e.2.1 == descAt n).map fun e => e.2.2).getD []) 0x10 2
    let slots := (List.range 8).filterMap fun j => newestImg (imgs.filter fun (i : Img) => i.kind == 7 && i.id == j)
    let nodes := (risingSet ((imgs.filter (·.kind == 2)).map (·.id))).filterMap fun id => newestImg (imgs.filter fun (i : Img) => i.kind == 2 && i.id == id)
    let leaves := (risingSet ((imgs.filter fun (i : Img) => i.kind == 1 || i.kind == 3).map (·.id))).filterMap fun id =>
      newestImg (imgs.filter fun (i : Img) => (i.kind == 1 || i.kind == 3) && i.id == id)
    let sweeps := (leaves.filter (·.kind == 1)).filterMap fun (v : Img) =>
      newestImg (imgs.filter fun (i : Img) => i.kind == 5 && i.id == v.id && v.cover.before i.cover)
    let all := i6 :: slots ++ nodes ++ leaves ++ sweeps
    match all.find? fun (i : Img) => !i.usable p ext unread with
    | some i => .error (.image (i.pages.headD 0))
    | none =>
      let s := s.loadImg p i6
      let x := parseDesc (s.pmRead p (descAt n) 256)
      let s := slots.foldl (fun (s : State) (i : Img) => s.loadImg p i) s
      let s := nodes.foldl (fun (s : State) (i : Img) => s.loadNode p x i) s
      let s := leaves.foldl (fun (s : State) (i : Img) => s.loadLeaf p x i) s
      let s := sweeps.foldl (fun (s : State) (i : Img) => s.loadImg p i) s
      let cov := leaves.map fun (v : Img) => (v.id, ((sweeps.find? fun (i : Img) => i.id == v.id).map (·.cover)).getD v.cover)
      let live := (leaves.filter (·.kind == 1)).filterMap fun (i : Img) => s.curLeaf p x i.id
      let s := live.foldl (fun (s : State) (l : Leaf) => (s.loadPrints p x l).loadLinks p x l) s
      match s.replayAll p x n cov i6.cover badRecs recs with
      | none => .error .record
      | some s =>
        let key := p.num * 16 + n
        let fill := ((List.range x.dirCap).filter fun i => s.pmNum p (x.dirLog + 16 * i + 6) 1 != 0).length
        let ds := risingSet ((List.range x.leafN).flatMap fun id => match s.curLeaf p x id with | some l => s.deltaPages p l | none => [])
        .ok (all, { s with srch := { s.srch with
          dirFill := s.srch.dirFill.set 0 key fill,
          streams := s.srch.streams.set DeltaStream.reset key (if ds.isEmpty then {} else { pages := ds, next := x.rpp }) } })

/-! ### Tables -/

/-- Derive a memory row from its source row (R211), a BF16 row by copy. -/
def State.deriveTier (s : State) (p : Part) (t : Tab) (pre page i : Nat) : State :=
  let r := pre * 256 + i
  let e := s.rowEnt p page r
  if e.loc == 0 || e.loc > 3 then s
  else match s.sourceRow p t e with
    | none => s
    | some (b, _) =>
      let row : Bytes := if e.loc == 1 then b else (deriveRow b t.dims e.loc).getD []
      s.pmWrite p (nth t.base (e.loc - 1) 0 + e.slot * rowSize e.loc t.dims) row

/-- Load a table: its images in the order of their seals, each with the pages its version changed; then its tier rows (R631 steps 5 and 7). -/
def State.recoverTable (s : State) (p : Part) (id : Nat) (unread : List Nat) : Except RecFail (List Img × State) :=
  let imgs := byCover (s.sealedImgs p.num 2 id)
  match newestImg imgs with
  | none => .ok ([], s)
  | some top =>
    let ext := fieldAt (((top.pieces.head?).map fun e => e.2.2).getD []) 0xA 2
    match imgs.find? fun (i : Img) => !i.usable p ext unread with
    | some i => .error (.image (i.pages.headD 0))
    | none =>
      let s := imgs.foldl (fun (s : State) (i : Img) => s.loadImg p i) s
      let s := s.pmWrite p (top.place + 0xC0) (zeros 8 ++ top.cover.bytes)
      let s := s.pmWrite p (top.place + 0xE0) (zeros 12)
      let s := s.pmSet p (tableEntryAt id) 8 (top.place + 1)
      let t := parseTab top.place (s.pmRead p top.place 512)
      .ok (imgs, (s.rowPages p t).foldl (fun (s : State) (e : Nat × Nat) =>
        (List.range 256).foldl (fun (s : State) i => s.deriveTier p t e.1 e.2 i) s) s)

/-! ### Partitions -/

/-- Recover every index of a list. -/
def State.recoverIndexes (s : State) (p : Part) (unread badRecs : List Nat) : List Nat → Except RecFail (List Img × State)
  | [] => .ok ([], s)
  | n :: r => match s.recoverIndex p n unread badRecs with
    | .error e => .error e
    | .ok (a, s) => match State.recoverIndexes s p unread badRecs r with
      | .error e => .error e
      | .ok (b, s) => .ok (a ++ b, s)

/-- Recover every table of a list. -/
def State.recoverTables (s : State) (p : Part) (unread : List Nat) : List Nat → Except RecFail (List Img × State)
  | [] => .ok ([], s)
  | n :: r => match s.recoverTable p n unread with
    | .error e => .error e
    | .ok (a, s) => match State.recoverTables s p unread r with
      | .error e => .error e
      | .ok (b, s) => .ok (a ++ b, s)

/-- Give back the pages that no loaded version names, and the images that were not loaded (R631 step 8). -/
def State.reclaimLost (s : State) (p : Part) (loaded : List Img) : State :=
  let keepIdx := (List.range 16).flatMap fun n => match s.desc? p n with
    | some x => (s.indexPages p x ++ (loaded.filter fun (i : Img) => i.objKind == 1 && i.obj == n).flatMap (·.pages)).map (pageKey p.num x.ext)
    | none => []
  let keepTab := (risingSet ((loaded.filter fun (i : Img) => i.objKind == 2).map (·.obj))).flatMap fun id => match s.curTable p id with
    | some t => ((loaded.filter fun (i : Img) => i.objKind == 2 && i.obj == id).flatMap (·.pages)).map (pageKey p.num t.ext)
    | none => []
  let keep := keepIdx ++ keepTab
  let gone := s.srch.used.filter fun k => keyPart k == p.num && !keep.contains k
  let s := gone.foldl (fun (s : State) k => s.dealloc k) s
  { s with srch := { s.srch with used := (s.srch.used.filter fun k => !gone.contains k) },
           dur := { s.dur with images := s.dur.images.filter fun (i : Img) => i.part != p.num || loaded.contains i } }

/-- The report of a failed recovery (R588, R633). The journal region's offset of a record is a value the model does not hold: it is free. -/
def State.recoveryFailed (s : State) (p : Nat) (f : RecFail) : State :=
  let s := s.setPstate p .failed
  match f with
  | .reserve => s.report { cls := 0x14, cause := 0, action := 4, part := p, kind := 8, unit := p, detail := s.pwr.vin.toNat * 1000 }
  | .flush => s.report { cls := 0x14, cause := 1, action := 4, part := p, kind := 8, unit := p, detail := s.pwr.vin.toNat * 1000 }
  | .record =>
    let (v, s) := s.takeFree
    { s with pwr := { s.pwr with errJournal := true } }.report { cls := 0x04, cause := 3, action := 4, part := p, kind := 8, unit := p, loc := v.toNat }
  | .image pg =>
    { s with pwr := { s.pwr with errJournal := true } }.report { cls := 0x04, cause := 3, action := 4, part := p, kind := 8, unit := p, loc := pg }

/-- Recover one partition that owns flash extents: R631 steps 5 to 9, or R633. -/
def State.recoverPart (s : State) (p : Part) (unread badRecs : List Nat) : State :=
  if s.media.reserveLost then s.recoveryFailed p.num .reserve
  else if s.dur.tailLost then s.recoveryFailed p.num .flush
  else
    match s.recoverIndexes p unread badRecs (if p.holdsIndex then List.range 16 else []) with
    | .error e => s.recoveryFailed p.num e
    | .ok (a, s1) =>
      let tabs := if p.holdsTables then risingSet ((s.dur.images.filter fun (i : Img) => i.part == p.num && i.objKind == 2).map (·.obj)) else []
      match s1.recoverTables p unread tabs with
      | .error e => s.recoveryFailed p.num e
      | .ok (b, s2) => (s2.reclaimLost p (a ++ b)).setPstate p.num .running

/-- A partition waits for storage to form before it recovers (R631). -/
def State.awaitsRecovery (s : State) (p : Part) : Bool :=
  p.ownsFlash && s.pstate p.num == .reloading && !s.rst.partBusy.contains p.num && !(s.grist.load.any fun l => l.image.partial_ && l.image.target == p.num)

/-- A restart runs: PWR_STATUS.STATE reads recovering. -/
def State.recovering (s : State) : Bool := s.pwr.state.toNat < 2 && s.grist.parts.any s.awaitsRecovery

/-- Partitions that own flash extents come up: recovered once storage is up, failed where it does not come up (R387, R631); while storage
still forms they stay reloading. -/
def State.recoverPending (s : State) (unread badRecs : List Nat) : State :=
  let ps := s.grist.parts.filter s.awaitsRecovery
  if s.storageUp then ps.foldl (fun (s : State) (p : Part) => s.recoverPart p unread badRecs) s
  else if s.fls.decided || s.fls.state == .failed then ps.foldl (fun (s : State) (p : Part) => s.setPstate p.num .failed) s
  else s

end Sys2Proof.Machine
end

