-- ==== Sys2Proof/Machine/GristLoad.lean ====
section
/-! DEFINITION. Sys2Proof/Machine/GristLoad.lean: the flash store, loading a grist image, applying it, and partial re-grist (R66–R83). -/
namespace Sys2Proof.Machine

/-! ### The flash store (R66, R67, R75) -/

/-- The copies of the store that R67 goes through, K0 first: an absent carrier is skipped, one without power cannot be read. -/
def State.copies (s : State) : List (Option FlashStore) :=
  (List.range 8).filterMap fun c =>
    let k := s.carrier c
    if k.state == .absent then none else some (if k.pgood then some k.store else none)

/-- The store record in force: the first copy that can be read. -/
def State.storeRec (s : State) : FlashStore := (s.copies.reduceOption.head?).getD {}

/-- A slot's bytes: A, or B where `b`. -/
def storeSlot (f : FlashStore) (b : Bool) : Option Bytes := if b then f.slotB else f.slotA

/-- Put an image into a slot. -/
def putSlot (f : FlashStore) (b : Bool) (raw : Bytes) : FlashStore :=
  if b then { f with slotB := some raw } else { f with slotA := some raw }

/-- An overlay slot's bytes. -/
def storeOverlay (f : FlashStore) (p : Nat) : Option Bytes := (f.overlays.find? (·.1 == p)).map (·.2)

/-- Write the store on every present carrier, the record last (R75). A write that fails leaves every record in force. -/
def State.writeStores (s : State) (f : FlashStore → FlashStore) : Bool × State :=
  if s.copies.reduceOption.any (·.failing) then (false, s)
  else (true, (List.range 8).foldl (fun (s : State) (c : Nat) =>
    if (s.carrier c).pgood then s.modCarrier c fun k => { k with store := f k.store } else s) s)

/-! ### Status (R82) -/

/-- The status of a load that has ended, but for its state. -/
def State.loadErr (s : State) (code : Nat) (sec : Option Nat) : State :=
  { s with grist := { s.grist with err := BitVec.ofNat 8 code, nosect := sec.isNone, errSection := BitVec.ofNat 10 (sec.getD 0x3FF) } }

/-- A GO that ends in BUSY or is refused: REFUSED is set, and ERR stays (R82). -/
def State.loadRefused (s : State) : State := { s with grist := { s.grist with refused := true } }

/-- A load begins: what it is, with the fallback flag cleared. -/
def State.beginLoad (s : State) (part : Option Nat) : State :=
  { s with grist := { s.grist with fallback := false, lastPartial := part.isSome, part := (part.map fun p => BitVec.ofNat 5 p).getD s.grist.part } }

/-- A load fails: with no image running every partition is absent (R72), and a running image runs on (R73, R77). -/
def State.failLoad (s : State) (code : Nat) (sec : Option Nat) : State :=
  let s := s.loadErr code sec
  if s.grist.state == .running then s
  else { s with grist := { s.grist with state := .failed, parts := [], pstate := [], admitting := false } }

/-! ### Checks -/

/-- What a full image is checked against. -/
def State.againstFull (s : State) : Against := { others := [], cur := none, partial_ := false, alloc := s.allocatable }

/-- What a partial image of a partition is checked against (R76). -/
def State.againstPart (s : State) (p : Nat) : Against :=
  { others := s.grist.parts.filter (·.num != p), cur := s.part? p, partial_ := true, alloc := s.allocatable }

/-- Check an image where the node expects a full one, or a partial one; the other kind is HEADER_FIELD. -/
def State.checkLoad (s : State) (want : Bool) (b : Bytes) (hostLen : Option Nat) : Chk :=
  let g := if want then s.againstPart (imgTarget b) else s.againstFull
  match checkImage b hostLen s.grist.revoke s.grist.svnMin.toNat g s.grist.imageId with
  | some e => if imgPartial b != want && e.1 > 3 then some (4, none) else some e
  | none => if imgPartial b != want then some (4, none) else none

/-- The first copy that passes every check, with the number of copies tried before it; the last error where none passes (R67). -/
def State.pickCopy (s : State) (want : Bool) (err : Nat × Option Nat) (tried : Nat) : List (Option Bytes) → Except (Nat × Option Nat) (Bytes × Nat)
  | [] => .error err
  | none :: r => State.pickCopy s want (1, none) (tried + 1) r
  | some b :: r => match s.checkLoad want b none with
    | none => .ok (b, tried)
    | some e => State.pickCopy s want e (tried + 1) r

/-! ### Applying (R69, R77, R79) -/

/-- A stack of one of the partition's extents has failed (R377). -/
def State.onFailedStack (s : State) (p : Part) : Bool := p.mem.any fun e => (s.memCtl e.stack).state == 2

/-- One channel as the FABRIC section defines it (R43): its registers keep what they hold. -/
def State.defineChan (s : State) (d : ChanDef) : State :=
  let s := s.modChan d.ch fun k => { k with state := .noFibre, eth := d.eth, width := BitVec.ofNat 2 d.width, engine := BitVec.ofNat 3 d.engine,
                                             first := BitVec.ofNat 4 d.first, owner := BitVec.ofNat 8 d.owner, since := s.time.up }
  if s.fab.fdet.getLsbD d.engine && !s.mod.oeOff.getLsbD d.engine then s.startTraining d.ch else s

/-- Zero a tile's SRAM and the SRAM of its cores (R46, R79). -/
def State.zeroTile (s : State) (t : Nat) : State :=
  { s with tileSram := s.tileSram.clear (t * 2 ^ 22) (2 ^ 22), coreSram := s.coreSram.clear (9 * t * 2 ^ 18) (9 * 2 ^ 18) }

/-- A core of an owned tile as the enables and its fence bits leave it (R45, R62): a context of a fenced core starts when it is unfenced. -/
def State.setUpCore (s : State) (p : Part) (core : Nat) : State :=
  let testing := s.flt.running.any fun q => q.kind == 1 && q.unit.toNat == core
  if !s.coreEnabled core then s.setCore core Core.reset
  else if testing then s.setCore core { Core.reset with st := .testing }
  else if s.coreHeld core || s.underTest 1 core then
    (s.setCore core { Core.reset with st := .fenced }).modTile (tileOf core) fun t => { t with hard := bput t.hard (coreNo core) true }
  else (s.setCore core { Core.reset with st := .running }).freshCore p core

/-- Every core of the partition's tiles. -/
def State.setUpCores (s : State) (p : Part) : State :=
  p.tiles.foldl (fun (s : State) (t : Nat × BitVec 14) =>
    (List.range 9).foldl (fun (s : State) (c : Nat) => s.setUpCore p (9 * t.1 + c)) s) s

/-- How a partition comes up (R69 step 11): failed with an extent on a failed stack, reloading while it owns flash extents and has not been
recovered (R631 step 4), and running otherwise. -/
def State.partUp (s : State) (p : Part) : State :=
  s.setPstate p.num (if s.onFailedStack p then .failed else if p.ownsFlash then .reloading else .running)

/-- The programs that the compute namespace shows (R527). -/
def State.programList (s : State) : List Nat :=
  (s.grist.parts.flatMap fun p => (p.services.filter (·.nvme != 0xFFFF)).map (·.nvme)).foldl insNat []

/-- Report the namespaces that came or went since `old` and `progs` (R418, R527). -/
def State.nsDiff (s : State) (old progs : List Nat) : State :=
  let now := s.nvmNsids
  let diff := (old.filter fun n => !now.contains n) ++ (now.filter fun n => !old.contains n)
  let s := diff.foldl (fun (s : State) (n : Nat) => s.nsChanged n) s
  if s.programList == progs then s else s.nsChanged computeNs

/-- Put a partition's definition in place of its old one. -/
def State.definePart (s : State) (p : Part) : State :=
  let rest := s.grist.parts.filter (·.num != p.num)
  { s with grist := { s.grist with parts := rest.filter (·.num < p.num) ++ [p] ++ rest.filter (·.num > p.num) } }

/-- Apply a full image that has passed its checks (R69). -/
def State.applyFull (s : State) (im : Image) : State :=
  let old := s.nvmNsids
  let progs := s.programList
  let ph : SMap (BitVec 384) := im.parts.foldl (fun (m : SMap (BitVec 384)) (p : Part) => SMap.set m 0 p.num im.hash) []
  let s := { s with grist := { s.grist with clock := im.clock, parts := [], imageId := im.id, hash := im.hash, pstate := [], phash := ph } }
  let s := { s with cap := { cap := im.clock.cap }, cores := [], queues := [], tileSram := [], coreSram := [], fab := { s.fab with buckets := [] } }
  let s := im.parts.foldl State.definePart s
  let s := (s.setHubTaps).setTileTaps
  let s := im.chans.foldl State.defineChan s
  let s := im.parts.foldl (fun (s : State) (p : Part) => p.mem.foldl State.zeroExt s) s
  let s := im.parts.foldl State.placeCode s
  let s := im.parts.foldl State.setUpCores s
  let s := im.parts.foldl State.partUp s
  { s with grist := { s.grist with state := .running, admitting := true, load := none } }.nsDiff old progs

/-- Apply a partial image's sections to its partition (R77 step 3, R79); at start (`atStart`, R70) flash contents stand as they are, and
the partition is recovered after it. -/
def State.applyPart (s : State) (im : Image) (atStart : Bool) : State :=
  match im.parts.head? with
  | none => s
  | some p =>
    let nsOld := s.nvmNsids
    let progs := s.programList
    let old := s.part? p.num
    let s := match old with
      | some o => { (s.startPartReset o) with rst := { s.rst with partBusy := s.rst.partBusy.filter (· != p.num) } }
      | none => s
    let oldTiles := (old.map fun o => o.tiles.map (·.1)).getD []
    let newTiles := p.tiles.map (·.1)
    let oldMem := (old.map (·.mem)).getD []
    let oldIds := (old.map fun o => o.flash.map (·.id)).getD []
    let newIds := p.flash.map (·.id)
    let moved := (oldTiles.filter fun t => !newTiles.contains t) ++ (newTiles.filter fun t => !oldTiles.contains t)
    let s := moved.foldl (fun (s : State) (t : Nat) =>
      (List.range 9).foldl (fun (s : State) (c : Nat) => s.setCore (9 * t + c) Core.reset) (s.zeroTile t)) s
    let s := ((oldMem.filter fun e => !p.mem.contains e) ++ (p.mem.filter fun e => !oldMem.contains e)).foldl State.zeroExt s
    let gone := (oldIds.filter fun i => !newIds.contains i) ++ (newIds.filter fun i => !oldIds.contains i)
    let s := if atStart then s
      else gone.foldl (fun (s : State) (i : Nat) =>
        let s := s.discardExtent p.num i
        { s with srch := { s.srch with used := s.srch.used.filter fun k => !(keyPart k == p.num && keyExt k == i) } }) s
    let s := (old.toList.flatMap (·.queues)).foldl (fun (s : State) (q : QueueDef) => s.setQueue p.num q.id QState.reset) s
    let bound := (old.toList.flatMap (·.tenants)).map fun b => bindKey b.tenant b.service
    let s := { s with fab := { s.fab with buckets := s.fab.buckets.filter fun e => !bound.contains e.1 } }
    let s := s.definePart p
    let s := (newTiles.filter fun t => !oldTiles.contains t).foldl (fun (s : State) (t : Nat) => s.useTap t (tileTap (s.grist.clock.divOf p.num))) s
    let s := ((s.placeCode p).setUpCores p).partUp p
    let s := if !atStart && p.ownsFlash && s.storageUp && !s.onFailedStack p then s.setPstate p.num .running else s
    let s := { s with grist := { s.grist with phash := SMap.set s.grist.phash 0 p.num im.hash } }
    (s.nsDiff nsOld progs).caskEvent p.num 9 (toLE 1 p.num)

/-! ### Loads (R66–R75) -/

/-- Apply the filled overlay slots in ascending partition order (R70). One that fails its checks is skipped, and the status keeps its error. -/
def State.applyOverlays (s : State) : State :=
  (List.range 32).foldl (fun (s : State) (p : Nat) =>
    if (storeOverlay s.storeRec p).isNone then s
    else
      let s := { s with grist := { s.grist with lastPartial := true, part := BitVec.ofNat 5 p } }
      match s.pickCopy true (1, none) 0 (s.copies.map fun f => f.bind fun x => storeOverlay x p) with
      | .error e => s.loadErr e.1 e.2
      | .ok (b, _) => if imgTarget b == p then s.applyPart (parseImage b) true else s.loadErr 4 none) s

/-- A full image has passed its checks with no image running: it is applied, then the overlays, and then the partitions that own flash
extents recover (R69, R70, R631). -/
def State.runFull (s : State) (b : Bytes) (r : Reads) : State :=
  let s := (s.loadErr 0 none).applyFull (parseImage b)
  let s := (s.applyOverlays).recoverPending r.unread r.badRecs
  (s.nvmeReady).kick

/-- The plain stacks hold the node reserve: with one of them failed, or in flush mode, no load starts (R377, R627). -/
def State.loadBarred (s : State) : Bool := s.reserveDown || s.inputStopped

/-- A load is under way (R82 BUSY). -/
def Grist.busy (g : Grist) : Bool := g.state == .loading || g.state == .draining || g.state == .applying

/-- A full load from the flash store: the pending or active slot with its fallback (R67), or the inactive slot alone (R74). -/
def State.loadStore (s : State) (inactive : Bool) (r : Reads) : State :=
  if s.grist.busy || s.grist.state == .running || s.loadBarred then s.loadRefused
  else
    let s := s.beginLoad none
    let f := s.storeRec
    let first := if inactive then !f.activeB else f.pending.getD f.activeB
    let bytes (b : Bool) : List (Option Bytes) := s.copies.map fun x => x.bind fun y => storeSlot y b
    let lost (s : State) : State := if f.pending == some first && !inactive then (s.writeStores fun x => { x with pending := none }).2 else s
    match s.pickCopy false (1, none) 0 (bytes first) with
    | .ok (b, n) =>
      let mark := inactive || f.pending == some first
      let s := if mark then (s.writeStores fun x => { x with activeB := first, pending := if x.pending == some first then none else x.pending }).2 else s
      { s with grist := { s.grist with fallback := n > 0 } }.runFull b r
    | .error e =>
      let s := lost s
      if inactive then s.failLoad e.1 e.2
      else
        let s := { s with grist := { s.grist with fallback := true } }
        match s.pickCopy false (1, none) 0 (bytes !first) with
        | .ok (b, _) => s.runFull b r
        | .error e => s.failLoad e.1 e.2

/-- Write a checked full image into the inactive slot and clear every overlay mark (R73, R75): pending while another image runs, active
where it runs itself. -/
def State.persistFull (s : State) (b : Bytes) (pend : Bool) : State :=
  let slot := !s.storeRec.activeB
  match s.writeStores fun (x : FlashStore) => { putSlot x slot b with
      overlays := [], pending := if pend then some slot else none, activeB := if pend then x.activeB else slot } with
  | (true, s) => s.loadErr 0 none
  | (false, s) => s.loadErr 0x1C none

/-- A full image from outside the node (R73, R74): applied while none runs, stored as pending while one does. -/
def State.loadFull (s : State) (b : Bytes) (hostLen : Option Nat) (persist : Bool) (r : Reads) : State :=
  let s := s.beginLoad none
  match s.checkLoad false b hostLen with
  | some e => s.failLoad e.1 e.2
  | none =>
    if s.grist.state == .running then s.persistFull b true
    else if persist then
      let ok := !s.copies.reduceOption.any (·.failing)
      let s := (s.persistFull b false).runFull b r
      if ok then s else s.loadErr 0x1C none
    else s.runFull b r

/-- Work of a partition is in flight: a request not yet answered, or an entry in one of its queues (R77 step 2). -/
def State.partBusyWith (s : State) (p : Part) : Bool :=
  s.req.reqs.any (·.part == p.num) || p.queues.any fun q => !(s.queue p.num q.id).entries.isEmpty

/-- The drain of a partial re-grist ends without an apply (R78): admission reopens under the old image. -/
def State.drainFailed (s : State) (p : Nat) : State :=
  let up : Bool := match s.part? p with
    | some d => s.pstate p == .reloading && !s.rst.partBusy.contains p && (!d.ownsFlash || s.storageUp)
    | none => false
  let s := { s with grist := { s.grist with state := .running, load := none } }
  (if up then s.setPstate p .running else s).loadErr 0x1A none

/-- A partial image that has passed its checks starts its drain (R77 step 2). -/
def State.startDrainOf (s : State) (b : Bytes) (persist : Bool) : State :=
  let im := parseImage b
  let ms := s.grist.drainMs.toNat
  let s := if s.pstate im.target == .running then s.setPstate im.target .reloading else s
  let s := { s with grist := { s.grist with state := .draining, load := some { image := im, raw := b, persist := persist, drainAt := s.time.up, drainMs := ms } } }
  match s.part? im.target with
  | some p => if ms == 0 && s.partBusyWith p then s.drainFailed im.target else s
  | none => s

/-- The host buffer as GO reads it (R82 SOURCE): its address aligned, its length in bounds and a multiple of 64, and the read successful. -/
def State.hostImage (s : State) (buf : Option Bytes) : Option Bytes :=
  let n := s.grist.hostLen.toNat
  if s.grist.hostAddr.toNat % 64 != 0 || n == 0 || n > 2 ^ 26 || n % 64 != 0 then none
  else match buf with
    | some b => if b.length ≥ n then some (b.take n) else none
    | none => none

/-- GO with SRC 0b10 (R73, R74, R77). -/
def State.goHost (s : State) (persist : Bool) (r : Reads) : State :=
  if s.grist.busy || s.loadBarred then s.loadRefused
  else
    let img := s.hostImage r.buf
    let run := s.grist.state == .running
    let part := (img.map imgPartial).getD false
    if part && !run || !part && run && !persist then s.loadRefused
    else match img with
      | none => (s.beginLoad none).failLoad 1 none
      | some b =>
        if part then
          let s := s.beginLoad (some (imgTarget b % 32))
          match s.checkLoad true b (some b.length) with
          | some e => s.failLoad e.1 e.2
          | none => s.startDrainOf b persist
        else s.loadFull b (some b.length) persist r

/-- GO with SRC 0b11 (R74). -/
def State.goReserved (s : State) : State :=
  if s.grist.busy || s.loadBarred then s.loadRefused else (s.beginLoad none).failLoad 1 none

/-- GRIST_CTRL is written: the fields first, then GO with the values they now hold (R83). -/
def State.gristCtrl (s : State) (v : Word) (r : Reads) : State :=
  let s := { s with grist := { s.grist with src := BitVec.ofNat 2 (bitsOf v.toNat 2 1), persist := v.getLsbD 3, drainMs := BitVec.ofNat 8 (bitsOf v.toNat 15 8) } }
  if !v.getLsbD 0 then s
  else match s.grist.src.toNat with
    | 0 => s.loadStore false r
    | 1 => s.loadStore true r
    | 2 => s.goHost s.grist.persist r
    | _ => s.goReserved

/-! ### The end of a drain (R77–R80) -/

/-- A test holds a unit of one of these tiles (R599). -/
def State.tilesUnderTest (s : State) (tiles : List Nat) : Bool :=
  (s.flt.queue ++ s.flt.running).any fun q =>
    tiles.contains (match q.kind.toNat with | 1 => q.unit.toNat / 9 | 2 => q.unit.toNat / 4 | _ => q.unit.toNat)

/-- The drain has ended: the new sections are applied (R77 step 3), the overlay slot is written (R75), and the load is over. A hardware fault
leaves the partition failed and empty (R80). -/
def State.drainEnd (s : State) (fault : Bool) (r : Reads) : State :=
  match s.grist.load with
  | none => s
  | some l =>
    let t := l.image.target
    let old := s.part? t
    let newTiles := (l.image.parts.head?.map fun p => p.tiles.map (·.1)).getD []
    let released := (old.map fun o => (o.tiles.map (·.1)).filter fun x => !newTiles.contains x).getD []
    if s.grist.state != .draining || old.any s.partBusyWith || s.rst.partBusy.contains t || s.tilesUnderTest released then s
    else if fault then
      let s := match old with
        | some o => { (s.startPartReset o) with rst := { s.rst with partBusy := s.rst.partBusy.filter (· != t) } }
        | none => s
      let s := { s with grist := { s.grist with state := .running, load := none } }
      (s.setPstate t .failed).loadErr 0x1B none
    else
      let s := { s with grist := { s.grist with state := .running, load := none } }
      let s := ((s.applyPart l.image false).recoverPending r.unread r.badRecs).loadErr 0 none
      let s := if !l.persist then s
        else match s.writeStores fun x => { x with overlays := SMap.insert x.overlays t l.raw } with
          | (true, s) => s
          | (false, s) => s.loadErr 0x1C none
      s.kick

/-- The drain outlasts its limit (R78): the clock moves up to it. -/
def State.drainTimeout (s : State) : State :=
  match s.grist.load with
  | none => s
  | some l =>
    if s.grist.state != .draining then s
    else
      let s := s.advanceTo (l.drainAt + l.drainMs * 1000000)
      (s.drainFailed l.image.target).kick

end Sys2Proof.Machine
end

