-- ==== Sys2Proof/Machine/GristWork.lean ====
section
/-! DEFINITION. Sys2Proof/Machine/GristWork.lean: what the commands do of the GRIST block, the firmware update and power capping (R42, R66–R83, R308). -/
namespace Sys2Proof.Machine

/-! ### Power capping (R42, R308) -/

/-- A partition's tile divider can rise by one step within the pairs of R41. -/
def State.canSlow (s : State) (p : Part) : Bool :=
  let d := s.grist.clock.divOf p.num + (s.cap.steps.filter (·.1 == p.num)).length + 1
  d ≤ 6 && pairClock s.grist.clock.meshDiv d

/-- Of two partitions, the one that is slowed first: the higher priority number, then the higher partition number (R42). -/
def slowerOf (a : Option Part) (p : Part) : Option Part :=
  match a with
  | none => some p
  | some q => if p.prio > q.prio || (p.prio == q.prio && p.num > q.num) then some p else some q

/-- The partition that the next step slows. -/
def State.nextSlow (s : State) : Option Part := (s.grist.parts.filter s.canSlow).foldl slowerOf none

/-- A partition's tiles run on the tap of their divider and steps. -/
def State.retap (s : State) (p : Part) : State :=
  let d := s.grist.clock.divOf p.num + (s.cap.steps.filter (·.1 == p.num)).length
  p.tiles.foldl (fun (s : State) (t : Nat × BitVec 14) => s.useTap t.1 (tileTap d)) s

/-- Every matrix engine goes on (R308). -/
def State.resumeMatrix (s : State) : State := (s.matrix.map fun e => e.1).foldl (fun (s : State) (t : Nat) => s.startPhase t) s

/-- A power sample of `mean` watts (R42, R308): steps and the hold come and go at most once every 250 µs. -/
def State.powerSample (s : State) (mean : Nat) : State :=
  if s.grist.state != .running || s.time.up < s.cap.stepAt + 250000 then s
  else if mean > s.cap.cap then
    match s.nextSlow with
    | some p =>
      let s := { s with cap := { s.cap with steps := (p.num, s.grist.clock.divOf p.num) :: s.cap.steps, stepAt := s.time.up } }
      s.retap p
    | none => { s with cap := { s.cap with hold := true } }
  else if mean < s.cap.cap then
    if s.cap.hold then { s with cap := { s.cap with hold := false, stepAt := s.time.up } }.resumeMatrix
    else match s.cap.steps with
      | [] => s
      | (n, _) :: rest =>
        let s := { s with cap := { s.cap with steps := rest, stepAt := s.time.up } }
        match s.part? n with | some p => s.retap p | none => s
  else s

end Sys2Proof.Machine
end

