-- ==== Sys2Proof/Machine/ResetOps.lean ====
section
/-! DEFINITION. Sys2Proof/Machine/ResetOps.lean: the start sequence, module reset and what each reset keeps (R541–R544, R554, R559–R562, R578, R668). -/
namespace Sys2Proof.Machine

/-! ### What a reset leaves -/

/-- A carrier after a reset (R559, R667): its media, identity record and flash store, the change map of its slot and its rebuild stay, and it
is powered and identified again at the start. -/
def Carrier.afterReset (k : Carrier) : Carrier :=
  { k with state := .absent, pwrEn := false, pgood := false, doneBytes := 0, pause75 := false, pause85 := false, foreign := false }

/-- The stamp floor after a module reset that keeps the node reserve (R668): the newest stamp issued, or the floor that stood when none was. -/
def TimeBase.keptFloor (t : TimeBase) : Option Nat := if t.issued then some t.lastTime.toNat else t.floor

/-- What leaves the staging buffers and the journal region without a flush is lost (R630, R633): staged pages and every record not in the
trail, with the images that only such records name. A sealed record among them leaves the trail short. -/
def State.loseReserve (s : State) : State :=
  let lost := s.dur.journal.filter (!·.inTrail)
  let kept := s.dur.journal.filter (·.inTrail)
  let short := lost.any (fun r => r.sealed.isSome && !r.voided) || kept.any fun r => r.sealed.isSome && !r.sealTrail && !r.voided
  let live := s.dur.images.filter fun (i : Img) => !lost.any fun r => r.seq == i.seq
  { s with staged := [],
           media := { s.media with stripes := s.media.stripes.filter fun e => e.2.programmed },
           dur := { s.dur with journal := kept, images := live, tailLost := s.dur.tailLost || short } }

/-- The module reset itself (R559, R560): registers, SRAM and memory outside the node reserve go back to reset; the node reserve, flash, the
oscillator and the PLL locks stay, the root PLL's lock aside after its loss. -/
def State.resetNow (s : State) (cause : BitVec 4) : State :=
  let gone := s.reserveDown || s.media.reserveLost
  let s := if gone then s.loseReserve else s
  let s := s.loseLends fun _ => true
  let fresh := State.reset
  { fresh with
    clk := { phase := .resetHold, oscEn := s.clk.oscEn, refOk := s.clk.refOk, auxLock := s.clk.auxLock, rootLock := s.clk.rootLock,
             mgmtOnAux := cause == 4, oscw := s.clk.oscw, gsrc := s.clk.gsrc, holdover := s.clk.holdover },
    rst := { cause := cause, modCnt := s.rst.modCnt + 1 },
    flt := { ring := s.flt.ring },
    pwr := { vin := s.pwr.vin, state := if s.pwr.state == 1 then 1 else 0 },
    pwrKept := s.pwrKept,
    mod := { mbus := s.mod.mbus, maddr := s.mod.maddr, kOn := ~~~ s.mod.kOff, kOff := s.mod.kOff, alert := s.mod.alert },
    jtag := s.jtag, pins := s.pins,
    time := { up := s.time.up, floor := if gone then none else s.time.keptFloor },
    fab := { fdet := s.fab.fdet, detRaw := s.fab.detRaw },
    comp := { stored := s.comp.stored, lost := s.comp.lost,
              shards := (s.comp.shards.map fun e => (e.1, { Shard.reset with ostamp := e.2.ostamp })).filter fun e => e.2 != Shard.reset },
    media := { s.media with stripes := s.media.stripes.filter fun e => e.2.programmed },
    carriers := s.carriers.map fun e => (e.1, e.2.afterReset),
    staged := s.staged,
    srch := { used := s.srch.used, lastPage := s.srch.lastPage },
    dur := s.dur,
    freeCtr := s.freeCtr, out := s.out, pending := s.pending }

/-- A module reset is requested (R560, R562): discarded while one runs, left until the flush ends while one does, and done now otherwise. -/
def State.moduleReset (s : State) (cause : BitVec 4) : State :=
  if s.modResetRuns || s.pwr.off then s
  else if s.pwr.state == 2 then
    if s.rst.modPend.isSome then s else { s with rst := { s.rst with modPend := some cause } }
  else s.resetNow cause

/-- Power-on reset (R559): everything but flash contents, with what the carriers and the system area hold. The output record, the queue and the
count of free values belong to the model. -/
def State.powerOn (s : State) : State :=
  let fresh := State.reset
  { fresh with
    pwrKept := s.pwrKept,
    mod := { kOff := s.mod.kOff, alert := s.mod.alert },
    pins := s.pins,
    jtag := {},
    time := { up := s.time.up },
    fab := { fdet := s.fab.fdet, detRaw := s.fab.detRaw },
    comp := { stored := s.comp.stored, shards := (s.comp.shards.map fun e => (e.1, { Shard.reset with ostamp := e.2.ostamp })).filter fun e => e.2 != Shard.reset },
    media := { s.media with stripes := s.media.stripes.filter fun e => e.2.programmed },
    carriers := s.carriers.map fun e => (e.1, e.2.afterReset),
    staged := s.staged,
    srch := { used := s.srch.used, lastPage := s.srch.lastPage },
    dur := s.dur,
    pwr := { vin := s.pwr.vin },
    freeCtr := s.freeCtr, out := s.out, pending := s.pending }

/-! ### The start sequence (R541, R542, R560, R578) -/

/-- Domains run on their default taps, and boot firmware has written and locked what the fuses govern (R547, R578). -/
def State.domainsUp (s : State) : State :=
  { s with clk := { s.clk with phase := .training, doms := [], mgmtOnAux := false },
           rst := { s.rst with holdOver := false },
           grist := { s.grist with svnMin := Config.fuseSvnMin, locked := true, revoke := Config.fuseRevoke },
           fab := { s.fab with mac := Config.fuseMac } }

/-- The hold of a module reset ends (R560): the start sequence goes on from the step after the reference check, and the root PLL relocks first
when that was the cause. -/
def State.leaveHold (s : State) : State :=
  if s.clk.rootLock && s.clk.auxLock then s.domainsUp
  else { s with clk := { s.clk with phase := .locking }, rst := { s.rst with holdOver := false } }

/-- The start is tried again after a failed check or lock, at most four times (R542). -/
def State.startRetry (s : State) : State :=
  let n := s.clk.attempts + 1
  { s with clk := { s.clk with attempts := n, phase := if n ≥ 4 then .failed else .delay, refOk := false, auxLock := false, rootLock := false } }

/-- Start-up ends (R66, R355, R488): the stacks are trained, the stored map is taken up, GSRC is read, and the flash store's image loads or the
node waits for GO. -/
def State.startUpEnd (s : State) (r : Reads) : State :=
  let s := (List.range 16).foldl (fun (s : State) (k : Nat) => s.modMem k fun m => if m.state == 0 then { m with state := 1 } else m) s
  let s := { s with clk := { s.clk with phase := .up, gsrc := s.pins.gsrc } }
  let s := s.loadStored
  if s.clk.gsrc then s else if s.loadBarred then s else s.loadStore false r

end Sys2Proof.Machine
end

