-- ==== Sys2Proof/Machine/ClockWork.lean ====
section
/-! DEFINITION. Sys2Proof/Machine/ClockWork.lean: what the commands do of the start sequence, the CLOCK block and the resets (R541–R565). -/
namespace Sys2Proof.Machine

/-! ### The reference and the PLLs (R544, R554) -/

/-- The node runs from its PLLs. -/
def State.clockRuns (s : State) : Bool := s.timeRuns

/-! ### Resets (R559–R562, R653) -/

/-- The boundary-scan instructions that need RESET_N low act as BYPASS once it is high (R653). -/
def Jtag.released (j : Jtag) : Jtag :=
  match j.instr with
  | .extest | .clamp | .highz => { j with instr := .bypass, scan := 0 }
  | _ => j

/-- RST_CTRL is written (R564): the fields first, and then the reset that KIND asks for. -/
def State.rstCtrl (s : State) (v : Word) : State :=
  let s := { s with rst := { s.rst with tile := BitVec.ofNat 7 (bitsOf v.toNat 14 8), core := BitVec.ofNat 4 (bitsOf v.toNat 19 16),
                                        part := BitVec.ofNat 5 (bitsOf v.toNat 28 24) } }
  match bitsOf v.toNat 1 0 with
  | 1 => (s.coreReset s.rst.tile.toNat s.rst.core.toNat).kick
  | 2 => s.partReset s.rst.part.toNat
  | _ => s

end Sys2Proof.Machine
end

