-- ==== Sys2Proof/Machine/TestOps.lean ====
section
/-! DEFINITION. Sys2Proof/Machine/TestOps.lean: watchdogs, fences from the data path, and self-tests (R591–R600, R614). -/
namespace Sys2Proof.Machine

/-- The kinds of unit that a watchdog and a self-test know (R591, R596). -/
inductive UnitKind where
  | core | array | gather
  deriving DecidableEq, Repr

/-- The kind code of R587 and R596. -/
def UnitKind.code : UnitKind → Nat
  | .core => 1 | .array => 2 | .gather => 3

/-- The tile that a unit lies in. -/
def UnitKind.tile (k : UnitKind) (unit : Nat) : Nat :=
  match k with | .core => unit / 9 | .array => unit / 4 | .gather => unit

/-- The unit numbers of a kind. -/
def UnitKind.count : UnitKind → Nat
  | .core => 864 | .array => 384 | .gather => 96

/-- The unit's place in rotation order (R600), by which EVENT records name it. -/
def UnitKind.rot (k : UnitKind) (unit : Nat) : Nat :=
  match k with | .core => unit | .array => 864 + unit | .gather => 1248 + unit

/-- The unit of a test kind code. -/
def testUnitKind (kind : Nat) : Option UnitKind :=
  match kind with | 1 => some .core | 2 => some .array | 3 => some .gather | _ => none

/-- The running image enables the unit in a tile that a partition owns (R45). -/
def State.unitEnabled (s : State) (k : UnitKind) (unit : Nat) : Bool :=
  match k with
  | .core => s.coreEnabled unit
  | .array => s.arrayEnabled (unit / 4) (unit % 4)
  | .gather => (s.enables unit).getLsbD 13

/-- The number of the partition that owns the unit's tile, 0xFF for none. -/
def State.unitPart (s : State) (k : UnitKind) (unit : Nat) : Nat := ((s.ownerOf (k.tile unit)).map (·.num)).getD 0xFF

/-! ### Watchdogs and fences from the data path (R591, R592) -/

/-- Set or clear a unit's data bit, with the records of R595. A gather engine's running command ends when the bit comes to hold it. -/
def State.setData (s : State) (k : UnitKind) (unit : Nat) (b : Bool) : State :=
  match k with
  | .core => s.coreBits unit fun t => { t with data := bput t.data (coreNo unit) b }
  | .array => s.arrayBits (unit / 4) (unit % 4) fun s => s.modMtx (unit / 4) fun m => { m with data := bput m.data (unit % 4) b }
  | .gather => s.setGatherFence unit fun t => { t with gdata := b }

/-- The data path fences a unit: its data bit, and a hard fence with no drain (R592). -/
def State.dataFence (s : State) (k : UnitKind) (unit : Nat) : State :=
  let s := s.setData k unit true
  match k with
  | .core => s.hardFence unit
  | .array => s.hardFenceArray (unit / 4) (unit % 4)
  | .gather => s

/-- The context that a core's watchdog expired for: the one in the vector unit, or the lowest with an access outstanding. -/
def State.hungCtx (s : State) (core : Nat) : Option Ctx :=
  match (s.core core).vbusy with
  | some i => some (s.ctx ⟨core, i⟩)
  | none => ((s.core core).ctxs.find? fun e => !e.2.loads.isEmpty || e.2.outst != 0).map (·.2)

/-- The tag of the work that a unit has hung in, where it has work that a watchdog counts (R591). -/
def State.hungTag (s : State) (k : UnitKind) (unit : Nat) : Option Nat :=
  match k with
  | .core => (s.hungCtx unit).map (·.tenant.toNat)
  | .array => if s.arrayServes (unit / 4) (unit % 4) then ((s.mtx (unit / 4)).cmd.filter (·.running)).map (·.tag.toNat) else none
  | .gather => ((s.gth unit).cmd.filter (·.windowOpen)).map (·.tag.toNat)

/-- A unit's watchdog expires: HANG, and the fence (R591, R592). -/
def State.watchdog (s : State) (k : UnitKind) (unit addr us : Nat) : State :=
  match s.hungTag k unit with
  | none => s
  | some tag =>
    (s.reportThen { cls := 0x10, action := 1, part := s.unitPart k unit, kind := k.code, unit := unit, loc := addr, tag := tag, detail := us }
      fun s => s.dataFence k unit).kick

/-! ### Requests (R596, R598) -/

/-- A request is refused (R598). -/
def State.testRefused (s : State) (kind unit : Nat) : State :=
  { s with flt := { s.flt with refused := true, lastKind := BitVec.ofNat 3 kind, lastUnit := BitVec.ofNat 10 unit, lastResult := 2 } }

/-- An accepted test holds its unit: a running one drains first (R597). -/
def State.holdForTest (s : State) (k : UnitKind) (unit : Nat) (held : Bool) : State :=
  match k with
  | .core => s.startDrain unit
  | .array => if held then s else s.drainArray (unit / 4) (unit % 4)
  | .gather => s

/-- A test of kinds 1 to 3 is accepted, merged with one that waits or runs, or refused. -/
def State.acceptTest (s : State) (k : UnitKind) (unit : Nat) : State :=
  if unit ≥ k.count || !s.unitEnabled k unit then s.testRefused k.code unit
  else if s.underTest k.code unit then s
  else if s.flt.queue.length ≥ 64 then s.testRefused k.code unit
  else
    let held := s.arrayHeld (unit / 4) (unit % 4)
    let q : TestReq := ⟨BitVec.ofNat 3 k.code, BitVec.ofNat 10 unit⟩
    let s := { s with flt := { s.flt with queue := s.flt.queue ++ [q] } }
    s.holdForTest k unit held

/-- A test is requested (R596, R598). Kinds 4 and 5 are the requests of R355 and R385. -/
def State.requestTest (s : State) (kind unit : Nat) : State :=
  match testUnitKind kind with
  | some k => s.acceptTest k unit
  | none =>
    if kind == 4 && unit < 16 then s.trainReq unit
    else if kind == 5 && unit < 32 then s.makeCalDue unit
    else s.testRefused kind unit

/-- FLT_TEST is written (R614). -/
def State.fltTest (s : State) (v : Word) : State :=
  let kind := bitsOf v.toNat 2 0
  let unit := bitsOf v.toNat 17 8
  let s := { s with flt := { s.flt with testKind := BitVec.ofNat 3 kind, testUnit := BitVec.ofNat 10 unit } }
  if v.getLsbD 31 then s.requestTest kind unit else s

/-! ### Running tests (R597–R599) -/

/-- The unit has drained. -/
def State.testReady (s : State) (k : UnitKind) (unit : Nat) : Bool :=
  match k with
  | .core => (s.core unit).st != .running && (s.core unit).st != .draining
  | .array => !s.arrayServes (unit / 4) (unit % 4) && !s.arrayDraining (unit / 4) (unit % 4)
  | .gather => (s.gth unit).cmd.isNone

/-- The tile that a request's unit lies in. -/
def TestReq.tile (q : TestReq) : Option Nat := (testUnitKind q.kind.toNat).map fun k => k.tile q.unit.toNat

/-- The test at the head of the queue starts: its unit has drained, no other unit of its tile is in test, and fewer than eight tests run. -/
def State.testStart (s : State) : State :=
  match s.flt.queue with
  | [] => s
  | q :: rest =>
    match testUnitKind q.kind.toNat with
    | none => s
    | some k =>
      let unit := q.unit.toNat
      if !s.testReady k unit || s.flt.running.length ≥ 8 || s.flt.running.any (fun o => o.tile == q.tile) then s
      else
        let s := { s with flt := { s.flt with queue := rest, running := s.flt.running ++ [q] } }
        match k with
        | .core => if (s.core unit).st == .fenced then s.setCore unit { s.core unit with st := .testing } else s
        | _ => s

/-- The hold of a test ends: the unit serves again where neither bit holds it (R275, R310, R597). A core is left hard-fenced whatever the test
found (R274). -/
def State.testRelease (s : State) (k : UnitKind) (unit : Nat) : State :=
  match k with
  | .core =>
    let k := s.core unit
    let s := if k.st == .testing then s.setCore unit { k with st := .fenced } else s
    let s := s.modTile (tileOf unit) fun t => { t with hard := bput t.hard (coreNo unit) true }
    s.unfenceCore unit
  | .array => s.releaseArray (unit / 4) (unit % 4)
  | .gather => s

/-- A core reset that waited for the test is performed (R562, R599). -/
def State.waitedReset (s : State) (core : Nat) : State :=
  if s.rst.coreWait.contains core then
    ({ s with rst := { s.rst with coreWait := s.rst.coreWait.filter (· != core) } }).resetCoreNow core
  else s

/-- A test ends (R593, R597). -/
def State.testEnd (s : State) (k : UnitKind) (unit : Nat) (pass : Bool) (pattern : Nat) : State :=
  let q : TestReq := ⟨BitVec.ofNat 3 k.code, BitVec.ofNat 10 unit⟩
  if !s.flt.running.contains q then s
  else
    let flt := { s.flt with running := s.flt.running.filter (· != q), lastKind := q.kind, lastUnit := q.unit, lastResult := (if pass then 0 else 1) }
    let s := { s with flt := flt }
    let part := s.unitPart k unit
    let s := if pass then s
      else s.report { cls := 0x11, action := 1, part := part, kind := k.code, unit := unit, loc := pattern, detail := k.code }
    let s := s.setData k unit (!pass)
    let s := s.caskEvent part 4 (toLE 2 (k.rot unit) ++ [BitVec.ofNat 8 (b2n pass)])
    let s := s.testRelease k unit
    let s := if k == .core then s.waitedReset unit else s
    s.kick

/-! ### Rotation (R600) -/

/-- The unit at a place of the rotation order. -/
def rotUnit (n : Nat) : UnitKind × Nat :=
  if n < 864 then (.core, n) else if n < 1248 then (.array, n - 864) else (.gather, n - 1248)

/-- The first enabled unit at or after a place, in rotation order, wrapping. -/
def State.nextRot (s : State) (pos : Nat) : Option Nat :=
  ((List.range 1344).map fun i => (pos + i) % 1344).find? fun n => s.unitEnabled (rotUnit n).1 (rotUnit n).2

/-- The unit's partition is being re-gristed, or another unit of it is in test. -/
def State.rotSkips (s : State) (k : UnitKind) (unit : Nat) : Bool :=
  let p := s.unitPart k unit
  (s.grist.load.any fun l => l.image.target == p) ||
    s.flt.running.any fun q =>
      match testUnitKind q.kind.toNat with
      | some j => s.unitPart j q.unit.toNat == p && !(j == k && q.unit.toNat == unit)
      | none => false

/-- A rotation interval has passed: the next unit's test is requested, or skipped. -/
def State.testRotation (s : State) : State :=
  if s.flt.period == 0 || !s.regsLive || s.pwr.state.toNat ≥ 2 then s
  else match s.nextRot s.flt.rotPos.toNat with
    | none => s
    | some n =>
      let (k, unit) := rotUnit n
      let s := { s with flt := { s.flt with rotPos := BitVec.ofNat 11 ((n + 1) % 1344) } }
      if s.rotSkips k unit then s else s.acceptTest k unit

end Sys2Proof.Machine
end

