-- ==== Sys2Proof/Machine/CaskOps.lean ====
section
/-! DEFINITION. Sys2Proof/Machine/CaskOps.lean: the cask log: capture, its base, and replay (R605–R616). -/
namespace Sys2Proof.Machine

/-! ### Capture (R605, R609, R615) -/

/-- The captured or replayed partitions that the running image defines, ascending. -/
def State.caskParts (s : State) : List Part := s.grist.parts.filter fun p => s.cask.capParts.toNat.testBit p.num

/-- What the memory base of a partition exports: its partition memory, then its scan extents (R605 step 5). -/
def Part.memBase (p : Part) : List CaskBase :=
  (if p.memBytes == 0 then [] else [.general p.num 0 p.memBytes]) ++ p.scans.map fun e => .scan p.num e.stack (e.base * GiB) (e.len * GiB)

/-- The flash base of a partition: every logical page whose current copy was programmed before the cut, as it stands (R605 step 7). -/
def State.flashBase (s : State) (p : Part) (c : Stamp) : List CaskBase :=
  s.media.map.filterMap fun (k, n) =>
    if keyPart k != p.num then none
    else match (s.media.stripes.find? (·.1 == n)).map (·.2) with
      | some x => if x.programmed && x.stamp.before c then some (.flash p.num (keyExt k) (keyPage k) (Memory.read s.media.data (k * 16384) 16384)) else none
      | none => none

/-- The body of BEGIN (R607). -/
def State.beginBody (s : State) (ps : List Part) : Bytes :=
  toLE 4 s.epoch ++ toLE 4 s.cask.capParts.toNat ++ s.cask.capId.bytes ++ (s.media.ordering ++ zeros 16).take 16 ++ toLE 48 s.grist.hash.toNat ++
    ps.flatMap fun p => toLE 1 p.num ++ zeros 7 ++ toLE 8 p.seed.toNat ++ toLE 48 (s.grist.phash.get 0 p.num).toNat

/-- Steps 2 to 5 of R605, once the captured partitions have drained: the cut stamp, the partition resets, BEGIN, and the base set out for export. The
map that the node holds follows BEGIN as an EVENT, from which a replay takes it (R611). -/
def State.captureCut (s : State) : State :=
  let ps := s.caskParts
  if s.cask.state != 1 || s.cask.cut || !s.canStamp || ps.any s.partBusyWith then s
  else
    let (c, s) := s.takeStamp
    let base := ps.flatMap Part.memBase ++ ps.flatMap fun p => s.flashBase p c
    let s := { s with cask := { s.cask with capId := c, base := base } }
    let s := ps.foldl (fun (s : State) (p : Part) => if s.pstate p.num == .running then s.startPartReset p else s) s
    let s := ({ s with cask := { s.cask with cut := true } }).caskPut 0x01 0xFF 0xFFFF (s.beginBody ps)
    if s.comp.map.isSome then s.caskEvent 0xFF 7 (toLE 2 s.comp.node.toNat ++ zeros 6 ++ s.comp.raw) else s

/-- The collector is a node entry of kind 2 (R606). -/
def State.isCollector (s : State) (n : Nat) : Bool := s.comp.map.any fun m => m.nodes.any fun e => e.id == n && e.kind == 2

/-- CASK_CTRL.START with MODE 1 (R605). -/
def State.captureStart (s : State) : State :=
  if !s.isCollector s.cask.collector.toNat then { s with cask := { s.cask with err := 5 } }
  else
    let k := { s.cask with state := 1, err := 0, capParts := s.cask.parts, capCollector := s.cask.collector, cut := false, segSeq := 0, cur := [], ring := [],
                           base := [], todo := [] }
    ({ s with cask := k }).captureCut

/-- The export of the memory base completes: admission reopens, and the flash base follows (R605 steps 6 and 7). A capture that still drained
cuts now when it can. -/
def State.baseExportEnd (s : State) : State :=
  if s.cask.state != 1 then s
  else if !s.cask.cut then s.captureCut
  else if s.cask.base.any CaskBase.isMem then s
  else ({ s with cask := { s.cask with state := 2 } }).kick

/-- CASK_CTRL.STOP (R609, R615, R616). -/
def State.caskStop (s : State) : State :=
  match s.cask.state.toNat with
  | 1 | 2 =>
    let s := if s.capturing 0xFF then (s.caskPut 0x0D 0xFF 0xFFFF []).caskClose else s
    ({ s with cask := { s.cask with state := 5, base := [] } }).kick
  | 4 => { s with cask := { s.cask with state := 5, todo := [] } }
  | _ => s

/-! ### Replay (R610, R611) -/

/-- CASK_CTRL.START with MODE 2 (R610). -/
def State.replayStart (s : State) : State :=
  { s with cask := { s.cask with state := 4, err := 0, capParts := s.cask.parts, nextSeg := 0, begun := false, todo := [], cur := [], ring := [], base := [] } }

/-- A replay error ends the replay with its code and a CAPTURE record (R588, R615). -/
def State.replayError (s : State) (code : Nat) : State :=
  let s := { s with cask := { s.cask with state := 5, err := BitVec.ofNat 4 code, todo := [] } }
  s.report { cls := 0x15, cause := code, kind := 10, loc := s.cask.nextSeg.toNat, detail := code }

/-- The whole records of a segment's used bytes (R606); none where one is malformed. -/
def parseRecs (seg : Nat) : Nat → Bytes → Nat → Option (List ReplayRec)
  | _, [], _ => some []
  | 0, _ :: _, _ => none
  | fuel + 1, b, off =>
    let n := fieldAt b 2 2
    if n < 16 || n % 8 != 0 || b.length < n then none
    else
      let r : ReplayRec := { typ := fieldAt b 0 1, part := fieldAt b 4 1, source := fieldAt b 6 2, rack := fieldAt b 8 8, body := slice b 16 (n - 16),
                             seg := seg, off := off }
      (parseRecs seg fuel (b.drop n) (off + n)).map fun l => r :: l

/-- One segment of the feed (R606, R610): its format, its sequence, and its records, the first of them BEGIN. -/
def State.feedSegment (s : State) (b : Bytes) : State :=
  if s.cask.state != 4 then s
  else
    let used := fieldAt b 12 4
    if fieldAt b 0 4 != 0x4B534143 || fieldAt b 4 2 != 1 || used > 65472 then s.replayError 3
    else if fieldAt b 8 4 != s.cask.nextSeg.toNat then s.replayError 2
    else match parseRecs s.cask.nextSeg.toNat 4096 (slice b 64 used) 64 with
      | none => s.replayError 3
      | some l =>
        let bad := s.cask.nextSeg == 0 && match l with | r :: _ => r.typ != 1 | [] => true
        if bad then s.replayError 3
        else { s with cask := { s.cask with nextSeg := s.cask.nextSeg + 1, bytes := s.cask.bytes + 65536, todo := s.cask.todo ++ l } }

/-- BEGIN (R610): the image must be the recorded one; the replayed partitions start as the captured ones did after their reset. -/
def State.feedBegin (s : State) (b : Bytes) : State :=
  if slice b 36 48 != toLE 48 s.grist.hash.toNat then s.replayError 1
  else s.caskParts.foldl (fun (s : State) (p : Part) => (s.startPartReset p).endPartReset p none) { s with cask := { s.cask with begun := true } }

/-- A recorded request that was admitted (R611): with its recorded T_a, unpoliced, its answer compared and not sent. -/
def State.feedRequest (s : State) (ch ta : Nat) (d : Bytes) : State :=
  match s.binding (rqTenant d) (rqSvc d) with
  | none => s
  | some (p, _) =>
    match p.service? (rqSvc d) with
    | none => s
    | some v =>
      match p.queueDef? (v.queueFor (rqKind d)) with
      | none => s
      | some q =>
        let cls := if isUpdateKind (rqKind d) then 3 else 2
        (s.enrol (.fabric (Fin.ofNat 128 ch) 0xFFFF cls (BitVec.ofNat 8 (rqTenant d)) 0) d p v q ta ta true 0).kick

/-- A recorded INPUT (R611): a request takes its recorded status, and a message of another node its effect. -/
def State.feedInput (s : State) (b : Bytes) : State :=
  let status := fieldAt b 2 1
  let ch := fieldAt b 4 2
  let m := b.drop 16
  let d := m.take (rqLen m)
  if isRequestKind (rqKind d) then
    if status == 0 then s.feedRequest ch (fieldAt b 8 8) d
    else if status == 0xFE then s
    else { s with disp := { s.disp with refuseCnt := s.disp.refuseCnt + 1, lastStatus := BitVec.ofNat 8 status, lastTenant := BitVec.ofNat 8 (rqTenant d),
                                        lastService := BitVec.ofNat 6 (rqSvc d) } }
  else if rqKind d == 0x81 then (s.peerArrived ch (fieldAt d 0x28 2) d true).kick
  else
    let src := (s.comp.map.bind fun x => (x.lends.find? fun l => l.id == fieldAt d 0x40 2).map (·.borrower)).getD 0xFFFF
    (s.nodeMsg src d).kick

/-- Set or clear a unit's management bit as its own register write would. -/
def State.setMgmt (s : State) (k : UnitKind) (unit : Nat) (b : Bool) : State :=
  match k with
  | .core => if (s.tile (tileOf unit)).core.getLsbD (coreNo unit) == b then s else if b then s.fenceCore unit else s.unfenceReq unit
  | .array => if b then s.fenceArray (unit / 4) (unit % 4) else s.unfenceArray (unit / 4) (unit % 4)
  | .gather => s.setGatherFence unit fun t => { t with gather := b }

/-- A unit's data bit. -/
def State.dataBit (s : State) (k : UnitKind) (unit : Nat) : Bool :=
  match k with
  | .core => (s.tile (tileOf unit)).data.getLsbD (coreNo unit)
  | .array => (s.mtx (unit / 4)).data.getLsbD (unit % 4)
  | .gather => (s.tile unit).gdata

/-- A recorded fence or unfence (R611): both bits as recorded; a data bit that rises fences hard. -/
def State.feedFence (s : State) (k : UnitKind) (unit : Nat) (mgmt data : Bool) : State :=
  let s := if s.dataBit k unit == data then s else if data then s.dataFence k unit else s.setData k unit false
  let s := s.setMgmt k unit mgmt
  match k with
  | .core => s.unfenceCore unit
  | .array => s.releaseArray (unit / 4) (unit % 4)
  | .gather => s

/-- A recorded test (R611): its result stands in the data bit, and a core comes out of it hard-fenced (R274). -/
def State.feedTest (s : State) (k : UnitKind) (unit : Nat) (pass : Bool) : State :=
  let s := s.setData k unit (!pass)
  match k with
  | .core => (s.hardFence unit).unfenceCore unit
  | .array => s.releaseArray (unit / 4) (unit % 4)
  | .gather => s

/-- The node takes its identifier and its map from the log (R611); its own stored map stays. -/
def State.feedMap (s : State) (id : Nat) (raw : Bytes) : State :=
  match parseMap raw with
  | none => s
  | some m =>
    let old := s.comp.map
    let s := { s with time := { s.time with node := BitVec.ofNat 16 id },
                      comp := { s.comp with node := BitVec.ofNat 16 id, map := some m, raw := raw, confirmed := true } }
    s.assignRoles old

/-- A recorded EVENT (R607, R611). Error records, carrier and link states are what the lab module's own units show. -/
def State.feedEvent (s : State) (b : Bytes) : State :=
  let d := b.drop 8
  let u := rotUnit (fieldAt d 0 2)
  match fieldAt b 0 2 with
  | 2 | 3 => (s.feedFence u.1 u.2 ((fieldAt d 2 1).testBit 0) ((fieldAt d 2 1).testBit 1)).kick
  | 4 => (s.feedTest u.1 u.2 (fieldAt d 2 1 == 1)).kick
  | 7 => (s.feedMap (fieldAt d 0 2) (d.drop 8)).kick
  | 8 =>
    let p := fieldAt d 0 1
    (match s.part? p with
      | some x => if s.replaying p then (s.startPartReset x).endPartReset x none else s
      | none => s)
  | _ => s

/-- A BASE record (R607, R610): memory is written, and flash pages are staged. -/
def State.feedBase (s : State) (part : Nat) (b : Bytes) : State :=
  let a := fieldAt b 8 8
  let data := b.drop 16
  if fieldAt b 0 1 == 1 then s.stage (pageKey part (a / 2 ^ 48) (a % 2 ^ 40)) 0 data 0
  else if scanAddrOk a then s.locWrite (.dram (scanAddrStack a) (scanAddrOff a)) data
  else match s.part? part with
    | some p => s.pmWrite p a data
    | none => s

/-- A flash page of the base waits for room in its staging buffer (R393). -/
def State.feedWaits (s : State) (r : ReplayRec) : Bool :=
  r.typ == 0x0B && fieldAt r.body 0 1 == 1 && s.stagingFull (pageKey r.part (fieldAt r.body 8 8 / 2 ^ 48) (fieldAt r.body 8 8 % 2 ^ 40))

/-- The effect of a record that the hub replays. -/
def State.feedRec (s : State) (r : ReplayRec) : State :=
  match r.typ with
  | 0x01 => s.feedBegin r.body
  | 0x02 => s.feedInput r.body
  | 0x07 => s.feedEvent r.body
  | 0x0B => s.feedBase r.part r.body
  | 0x0C => s.replayError 4
  | 0x0D => if s.cask.todo.isEmpty then { s with cask := { s.cask with state := 5 } } else s
  | _ => s

/-- A record that an operation, a unit or an answer must meet before the replay goes on past it. -/
def ReplayRec.waits (r : ReplayRec) : Bool := [3, 4, 5, 6, 9, 0x0A].contains r.typ

/-- The replay reaches its next records (R611): rack time goes forward to each, and each that the hub replays has its effect. -/
def State.replayRun : Nat → State → State
  | 0, s => s
  | fuel + 1, s =>
    if s.cask.state != 4 then s
    else match s.cask.todo with
      | [] => s
      | r :: _ =>
        if r.waits || s.feedWaits r then s
        else State.replayRun fuel (((s.consume r).advanceToRack r.rack).feedRec r)

/-- The replay goes as far as it can. -/
def State.replayOn (s : State) : State := s.replayRun s.cask.todo.length

/-- The segments of a feed buffer. -/
def segmentsOf (b : Bytes) : List Bytes := (List.range (b.length / 65536)).map fun i => slice b (65536 * i) 65536

/-- CASK_FEED.GO (R610, R615): `buf` is what the host returned, none where the read failed. A buffer that breaks R615 is an error of format. -/
def State.caskFeed (s : State) (buf : Option Bytes) : State :=
  if s.cask.state != 4 then s
  else
    let n := s.cask.hostLen.toNat
    let ok := n % 65536 == 0 && s.cask.hostAddr.toNat % 64 == 0
    match buf with
    | some b => if ok && b.length == n then ((segmentsOf b).foldl State.feedSegment s).replayOn else s.replayError 3
    | none => s.replayError 3

/-! ### Registers (R615, R616) -/

/-- CASK_CTRL is written: MODE, then START and STOP. -/
def State.caskCtrl (s : State) (v : Word) : State :=
  let s := { s with cask := { s.cask with mode := v.extractLsb' 0 2 } }
  let busy := s.cask.state == 1 || s.cask.state == 2 || s.cask.state == 4 || s.cask.state == 6
  let s := if v.getLsbD 2 && !busy then
      (match s.cask.mode.toNat with | 1 => s.captureStart | 2 => s.replayStart | _ => s)
    else s
  if v.getLsbD 3 then s.caskStop else s

end Sys2Proof.Machine
end

