-- ==== Sys2Proof/Machine/CaskCmds.lean ====
section
/-! DEFINITION. Sys2Proof/Machine/CaskCmds.lean: the commands of the cask log (R605–R616). -/
namespace Sys2Proof.Machine

/-- BASE_EXPORT_END (R605). -/
def execBaseExportEnd (s : State) : Res := settled s.baseExportEnd

end Sys2Proof.Machine
end

