-- ==== Sys2Proof/Machine/ClockCmds.lean ====
section
/-! DEFINITION. Sys2Proof/Machine/ClockCmds.lean: the commands of the start sequence, the CLOCK block and the resets (R541–R565). -/
namespace Sys2Proof.Machine

/-! ### Start (R541, R542, R66) -/

/-- SEQUENCER_RESET_RELEASE (R541, R650): the straps are sampled and OSC_EN rises. The carrier rails, on since the converters started, are
counted from here (R644). -/
def execSequencerResetRelease (s : State) : Res :=
  if s.clk.phase != .held || s.pwr.off then settled s
  else settled { s with
    clk := { s.clk with phase := .delay, oscEn := true, oscw := s.pins.oscw },
    mod := { s.mod with mbus := s.pins.mbus, maddr := s.pins.maddr, kOn := ~~~ s.mod.kOff } }

/-- START_DELAY_END (R542). -/
def execStartDelayEnd (s : State) : Res :=
  settled (if s.clk.phase == .delay then { s with clk := { s.clk with phase := .checking } } else s)

/-- REFERENCE_CHECK_END (R542): the measured frequency lies within its limits, or not. -/
def execReferenceCheckEnd (ok : Bool) (s : State) : Res :=
  if s.clk.phase != .checking then settled s
  else if ok then settled { s with clk := { s.clk with phase := .locking, refOk := true } }
  else settled s.startRetry

/-- PLL_LOCK (R542): both PLLs lock and the domains go to their default taps; `locked` is false where 1 ms after the delay they have not. A PLL
that lost lock in service locks again. -/
def execPllLock (locked : Bool) (s : State) : Res :=
  match s.clk.phase with
  | .locking =>
    if locked then settled { s with clk := { s.clk with rootLock := true, auxLock := true } }.domainsUp
    else if s.rst.cause == 4 then settled s else settled s.startRetry
  | .training | .up => settled (if locked then { s with clk := { s.clk with rootLock := true, auxLock := true } } else s)
  | _ => settled s

/-- START_UP_END (R66). -/
def execStartUpEnd (reads : Reads) (s : State) : Res := settled (if s.clk.phase == .training then s.startUpEnd reads else s)

/-! ### The reference and the PLLs (R544, R554) -/

/-- REFERENCE_LOSS (R544). -/
def execReferenceLoss (s : State) : Res :=
  if !s.clockRuns then settled s
  else settled ({ s with clk := { s.clk with refLost := true, holdover := true } }.report { cls := 0x0C, cause := 3, kind := 10 })

/-- REFERENCE_RETURN (R544). -/
def execReferenceReturn (s : State) : Res := settled { s with clk := { s.clk with holdover := false } }

/-- ROOT_PLL_LOSS (R554). -/
def execRootPllLoss (s : State) : Res :=
  if !s.clockRuns then settled s
  else
    let s := { s with clk := { s.clk with rootLock := false, mgmtOnAux := true } }
    let s := (List.range 16).foldl (fun (s : State) (k : Nat) => s.useTap (99 + k) 8) (s.useTap 163 9)
    let s := s.report { cls := 0x0C, kind := 9, unit := 163, loc := 163 }
    settled (s.moduleReset 4)

/-- AUX_PLL_LOSS (R563). -/
def execAuxPllLoss (s : State) : Res :=
  if !s.clockRuns then settled s
  else settled ({ s with clk := { s.clk with auxLock := false, auxUnlock := true } }.report { cls := 0x0C, cause := 4, kind := 9, unit := 164, loc := 164 })

/-! ### Taps and gates (R552, R557) -/

/-- TAP_READY (R552). -/
def execTapReady (dom : Fin 165) (s : State) : Res := settled (s.tapReady dom.val)

/-- TAP_TIMEOUT (R552). -/
def execTapTimeout (dom : Fin 165) (s : State) : Res := settled (s.tapTimeout dom.val)

/-! ### Resets (R559–R562, R653) -/

/-- RESET_N (R560): the contact has been low for 10 µs. -/
def execResetN (s : State) : Res := settled ({ s with pins := { s.pins with resetN := false } }.moduleReset 1)

/-- RESET_N_RELEASE (R653): a held module reset whose 1 ms is over goes on with the start sequence. -/
def execResetNRelease (s : State) : Res :=
  let s := { s with pins := { s.pins with resetN := true }, jtag := s.jtag.released }
  settled (if s.clk.phase == .resetHold && s.rst.holdOver then s.leaveHold else s)

/-- RESET_HOLD_END (R560): the 1 ms hold is over; RESET_N low holds the domains on (R653). -/
def execResetHoldEnd (s : State) : Res :=
  if s.clk.phase != .resetHold then settled s
  else if s.pins.resetN then settled s.leaveHold
  else settled { s with rst := { s.rst with holdOver := true } }

/-- MANAGEMENT_RESET_REQUEST (R560). -/
def execManagementResetRequest (s : State) : Res := settled (if s.regsLive then s.moduleReset 3 else s)

/-- PARTITION_RESET_END (R561); `bad` is the first retained section that fails its check (R36). -/
def execPartitionResetEnd (part : Fin 32) (bad : Option (Fin 1024)) (s : State) : Res :=
  if !s.rst.partBusy.contains part.val then settled s
  else match s.part? part.val with
    | some p => settled (s.endPartReset p (bad.map (·.val)))
    | none => settled s

end Sys2Proof.Machine
end

