-- ==== Sys2Proof/Machine/ComposeWork.lean ====
section
/-! DEFINITION. Sys2Proof/Machine/ComposeWork.lean: what the commands do of composition, mirrors, lending and metering (R486–R515). A node-to-node message is
named by its source node and its body (R509). -/
namespace Sys2Proof.Machine

/-- Search nodes of the map that a link of this node reaches. -/
def State.reachable (s : State) : List Nat :=
  match s.comp.map with
  | none => []
  | some m => (m.nodes.filter fun n => n.kind == 0 && n.id != s.me && !(s.linksTo n.id).isEmpty).map (·.id)

/-- A held request's limit passes: it is refused BUSY (R492, R500); `n` is its place among the held requests. -/
def State.holdTimeout (s : State) (n : Nat) (claim : Bool) (limit : Nat) : State :=
  match s.req.held[n]? with
  | none => s
  | some h =>
    if h.claim != claim then s
    else
      let s := s.advanceTo (h.since + limit)
      let s := { s with req := { s.req with held := s.req.held.eraseIdx n } }
      if h.discard then s else s.refuse h.src h.data stBusy

/-- One shard's claim is repeated (R499): the pool owns where it now may, else CLAIM goes to the previous owner. -/
def State.repeatClaim (s : State) (x : MapShard) : State :=
  let s := s.tryOwn x
  if (s.shard x.id).role == .claiming && x.previous != 0xFFFF && x.previous != s.me then
    s.sendNode x.previous 0x22 (toLE 2 x.id ++ zeros 2 ++ toLE 4 s.epoch)
  else s

/-- METER_SNAP (R514): the selected set's counters and wrap bits are copied, and its wrap bits cleared. -/
def State.meterSnap (s : State) : State :=
  let n := min s.meter.sel.toNat 288
  let m := s.meter.sets.get MeterSet.reset n
  { s with meter := { s.meter with snap := m.cnt, snapWrap := m.wrap, sets := s.meter.sets.set MeterSet.reset n { m with wrap := 0 } } }

end Sys2Proof.Machine
end

