-- ==== Sys2Proof/Machine/ComposeCmds.lean ====
section
/-! DEFINITION. Sys2Proof/Machine/ComposeCmds.lean: the commands of composition, mirrors, lending and metering (R486–R515). A node-to-node message is
named by its source node and its body (R509). -/
namespace Sys2Proof.Machine

/-- MAP_FETCH (R489): its body names the epoch wanted. -/
def execMapFetch (src : BitVec 16) (wanted : BitVec 32) (s : State) : Res :=
  settled (((s.sawEpoch wanted.toNat src.toNat).mapFetched src.toNat).fetchNow)

/-- MAP_OFFER (R486, R490). -/
def execMapOffer (_src : BitVec 16) (map : Bytes) (s : State) : Res := settled (s.offerMap (some map))

/-- MAP_FETCH_REPEAT (R489): 1 ms after the last MAP_FETCH, while the epoch is still wanted. -/
def execMapFetchRepeat (s : State) : Res :=
  match s.comp.wanted with
  | some (_, n) =>
    if n == 0xFFFF then settled s
    else
      let s := s.advanceTo (s.comp.fetchAt - 1 + 1000000)
      settled ({ s with comp := { s.comp with fetchAt := 0 } }).fetchNow
  | none => settled s

/-- CONFIRM_FETCH (R490): every 10 ms while the held map is unconfirmed. -/
def execConfirmFetch (s : State) : Res :=
  if s.comp.map.isNone || s.mapConfirmed then settled s
  else
    let s := s.advanceTo (s.comp.confirmAt + 10000000)
    let s := { s with comp := { s.comp with confirmAt := s.time.up } }
    settled (s.reachable.foldl (fun s n => s.sendNode n 0x20 (toLE 4 s.epoch ++ zeros 4)) s)

/-- EPOCH_HOLD_TIMEOUT (R492). -/
def execEpochHoldTimeout (held : Nat) (s : State) : Res := settled (s.holdTimeout held false 2000000)

/-- CLAIM_HOLD_TIMEOUT (R500). -/
def execClaimHoldTimeout (held : Nat) (s : State) : Res := settled (s.holdTimeout held true 5000000)

/-- CLAIM (R501). -/
def execClaim (src : BitVec 16) (shard : BitVec 16) (epoch : BitVec 32) (s : State) : Res :=
  settled (s.claimed src.toNat shard.toNat epoch.toNat).kick

/-- CLAIM_REPLY (R499, R504): result 0 YIELD, 1 KEEP, 2 NONE. -/
def execClaimReply (src : BitVec 16) (shard : BitVec 16) (result : BitVec 8) (epoch : BitVec 32) (stamp : BitVec 96) (s : State) : Res :=
  settled (s.claimReplied src.toNat shard.toNat result.toNat epoch.toNat (stampAt (toLE 12 stamp.toNat) 0))

/-- CLAIM_REPEAT (R499): every 1 ms for every shard claimed and not owned. -/
def execClaimRepeat (s : State) : Res :=
  match s.comp.map with
  | none => settled s
  | some m =>
    if !s.mapConfirmed || !m.shards.any (fun x => (s.shard x.id).role == .claiming) then settled s
    else
      let s := s.advanceTo (s.comp.claimAt + 1000000)
      let s := { s with comp := { s.comp with claimAt := s.time.up } }
      settled (m.shards.foldl State.repeatClaim s)

/-- MIRROR_UPDATE (R496); the body is R509's. -/
def execMirrorUpdate (src : BitVec 16) (body : Bytes) (s : State) : Res := settled (s.rowIn src 0x24 body)

/-- MIRROR_APPLY (R496). -/
def execMirrorApply (shard : Fin 1024) (s : State) : Res := settled (s.mirrorApply shard.val)

/-- MIRROR_ACK (R495). -/
def execMirrorAck (src : BitVec 16) (shard : Fin 1024) (stamp : BitVec 96) (s : State) : Res :=
  settled (s.rowIn src 0x25 (toLE 2 shard.val ++ zeros 6 ++ toLE 12 stamp.toNat ++ zeros 4))

/-- MIRROR_SYNC (R498); the body is R509's. -/
def execMirrorSync (src : BitVec 16) (body : Bytes) (s : State) : Res := settled (s.rowIn src 0x26 body)

/-- MIRROR_ACK_TIMEOUT (R497). -/
def execMirrorAckTimeout (shard : Fin 1024) (s : State) : Res := settled (s.mirrorLate shard.val)

/-- LEND_READ (R507); the body is R509's. -/
def execLendRead (src : BitVec 16) (body : Bytes) (s : State) : Res := settled (s.rowIn src 0x28 body)

/-- LEND_WRITE (R507). -/
def execLendWrite (src : BitVec 16) (body : Bytes) (s : State) : Res := settled (s.rowIn src 0x29 body)

/-- LEND_REPLY (R506). -/
def execLendReply (src : BitVec 16) (body : Bytes) (s : State) : Res := settled (s.rowIn src 0x2A body)

/-- LEND_COMMAND (R505). -/
def execLendCommand (part : Fin 32) (s : State) : Res := settled (s.lendCommand part.val)

/-- LEND_TIMEOUT (R506). -/
def execLendTimeout (tag : Nat) (s : State) : Res := settled (s.lendLate tag)

end Sys2Proof.Machine
end

