-- ==== Sys2Proof/Machine/CoreCmds.lean ====
section
/-! DEFINITION. Sys2Proof/Machine/CoreCmds.lean: the commands of the general cores: instructions of the current context, the events that wake
contexts, and fences (R177–R184, R239–R278). -/
namespace Sys2Proof.Machine

/-! ### Sort instructions -/

/-- AB_KEYF (R179). -/
def execAbKeyf (core : Fin 864) (vd vs2 : Fin 32) (s : State) : Res :=
  settled (s.issue core fun p r => s.abKey p r (encR 0 vs2.val 0 0 vd.val 0x5B) false vd vs2)

/-- AB_KEYR (R179). -/
def execAbKeyr (core : Fin 864) (vd vs2 : Fin 32) (s : State) : Res :=
  settled (s.issue core fun p r => s.abKey p r (encR 1 vs2.val 0 0 vd.val 0x5B) true vd vs2)

/-- AB_CX (R180). -/
def execAbCx (core : Fin 864) (vk vp : Fin 32) (ki pj : Fin 8) (m : Bool) (s : State) : Res :=
  settled (s.issue core fun p r => s.abCx p r (encR (ki.val * 16 + pj.val * 2 + b2n m) 0 vp.val 1 vk.val 0x5B) vk vp ki pj m)

/-- AB_CXP (R181). -/
def execAbCxp (core : Fin 864) (vka vpa vkb vpb : Fin 32) (d m : Bool) (s : State) : Res :=
  settled (s.issue core fun p r => s.abCross p r (encR (b2n d * 64 + b2n m * 32 + vpb.val) vkb.val vpa.val 2 vka.val 0x5B) false vka vpa vkb vpb d m)

/-- AB_MX (R181). -/
def execAbMx (core : Fin 864) (vka vpa vkb vpb : Fin 32) (d m : Bool) (s : State) : Res :=
  settled (s.issue core fun p r => s.abCross p r (encR (b2n d * 64 + b2n m * 32 + vpb.val) vkb.val vpa.val 5 vka.val 0x5B) true vka vpa vkb vpb d m)

/-- AB_DROP (R182). -/
def execAbDrop (core : Fin 864) (rd vk vp rs1 : Fin 32) (s : State) : Res :=
  settled (s.issue core fun p r => s.abDrop p r (encR vp.val vk.val rs1.val 3 rd.val 0x5B) rd vk vp rs1)

/-- AB_BND (R183). -/
def execAbBnd (core : Fin 864) (vk vp rs1 rs2 : Fin 32) (s : State) : Res :=
  settled (s.issue core fun p r => s.abBnd p r (encR vp.val rs2.val rs1.val 4 vk.val 0x5B) vk vp rs1 rs2)

/-! ### The control group -/

/-- AB_QTAKE (R252). -/
def execAbQtake (core : Fin 864) (rd rs1 rs2 : Fin 32) (s : State) : Res := settled (s.issue core fun p r => s.abQtake p r rd rs1 rs2)

/-- AB_QTAKE_WAKE (R252): an entry of the queue goes to the context that waits longest. -/
def execAbQtakeWake (part : Fin 32) (queue : BitVec 16) (s : State) : Res :=
  settled (match s.part? part.val with | some p => s.qtakeWake p queue.toNat | none => s)

/-- AB_QPUT (R253). A context's loads and stores are performed at its instructions, but for stores held at a busy bank, which both settings of
rl wait for: the copy sees every earlier store. -/
def execAbQput (core : Fin 864) (rd rs1 rs2 : Fin 32) (_rl : Bool) (s : State) : Res := settled (s.issue core fun p r => s.abQput p r rd rs1 rs2)

/-- AB_QPUT_WAKE (R253). -/
def execAbQputWake (part : Fin 32) (queue : BitVec 16) (s : State) : Res :=
  settled (match s.part? part.val with | some p => s.qputWake p queue.toNat | none => s)

/-- AB_QREL (R254). -/
def execAbQrel (core : Fin 864) (rs1 : Fin 32) (s : State) : Res := settled (s.issue core fun p r => s.abQrel p r rs1)

/-- AB_YIELD (R257). -/
def execAbYield (core : Fin 864) (s : State) : Res := settled (s.issue core fun p r => s.abYield p r)

/-- AB_WAITW (R258). -/
def execAbWaitw (core : Fin 864) (rd rs1 rs2 : Fin 32) (s : State) : Res := settled (s.issue core fun p r => s.abWaitw p r rd rs1 rs2)

/-- WAITW_WAKE (R258). -/
def execWaitwWake (core : Fin 864) (ctx : Fin 16) (s : State) : Res :=
  settled (match s.corePart core.val with | some p => s.waitwWake p ⟨core.val, ctx⟩ | none => s)

/-- WAITW_LIMIT (R258). -/
def execWaitwLimit (core : Fin 864) (ctx : Fin 16) (s : State) : Res :=
  settled (match s.corePart core.val with | some p => s.waitwLimit p ⟨core.val, ctx⟩ | none => s)

/-- AB_STAMP (R259). -/
def execAbStamp (core : Fin 864) (rs1 : Fin 32) (s : State) : Res := settled (s.issue core fun p r => s.abStamp p r rs1)

/-- STAMP_ARRIVES (R259). -/
def execStampArrives (core : Fin 864) (ctx : Fin 16) (s : State) : Res :=
  settled (match s.corePart core.val with | some p => s.stampArrives p ⟨core.val, ctx⟩ | none => s)

/-- AB_RAND (R260). -/
def execAbRand (core : Fin 864) (rd rs1 rs2 : Fin 32) (s : State) : Res := settled (s.issue core fun p r => s.abRand p r rd rs1 rs2)

/-- AB_TENANT (R261). -/
def execAbTenant (core : Fin 864) (rs1 : Fin 32) (s : State) : Res := settled (s.issue core fun p r => s.abTenant p r rs1)

/-- AB_VACQ (R249). -/
def execAbVacq (core : Fin 864) (s : State) : Res := settled (s.issue core fun p r => s.abVacq p r (encR 5 0 0 3 0 0x7B))

/-- VACQ_GRANT (R249). -/
def execVacqGrant (core : Fin 864) (s : State) : Res := settled (match s.corePart core.val with | some p => s.vacqGrant p core.val | none => s)

/-- AB_VREL (R249). -/
def execAbVrel (core : Fin 864) (s : State) : Res := settled (s.issue core fun p r => s.abVrel p r)

/-- AB_FDONE (R262). -/
def execAbFdone (core : Fin 864) (s : State) : Res := settled (s.issue core fun p r => s.abFdone p r (encR 7 0 0 3 0 0x7B))

/-! ### Instructions of the RV64 profile, as the words that a context issues -/

/-- LOAD (R247). -/
def execLoad (core : Fin 864) (word : BitVec 32) (s : State) : Res :=
  presented (wordKind word.toNat == .load) <|
  settled (s.runWord core word)

/-- STORE (R263). -/
def execStore (core : Fin 864) (word : BitVec 32) (s : State) : Res :=
  presented (wordKind word.toNat == .store) <|
  settled (s.runWord core word)

/-- AMO (R267). -/
def execAmo (core : Fin 864) (word : BitVec 32) (s : State) : Res :=
  presented (wordKind word.toNat == .amo) <|
  settled (s.runWord core word)

/-- LR (R267). -/
def execLr (core : Fin 864) (word : BitVec 32) (s : State) : Res :=
  presented (wordKind word.toNat == .lr) <|
  settled (s.runWord core word)

/-- SC (R267). -/
def execSc (core : Fin 864) (word : BitVec 32) (s : State) : Res :=
  presented (wordKind word.toNat == .sc) <|
  settled (s.runWord core word)

/-- FENCE (R263). -/
def execFence (core : Fin 864) (word : BitVec 32) (s : State) : Res :=
  presented (wordKind word.toNat == .fence) <|
  settled (s.runWord core word)

/-- FENCE_I (R267): a no-op. -/
def execFenceI (core : Fin 864) (s : State) : Res := settled (s.issue core fun p r => s.retire p r 4)

/-- ECALL (R268). -/
def execEcall (core : Fin 864) (s : State) : Res := settled (s.issue core fun p r => s.trap p r 8 0)

/-- EBREAK (R268): no debugger is part of the node. -/
def execEbreak (core : Fin 864) (s : State) : Res := settled (s.issue core fun p r => s.trap p r 3 (s.ctx r).pc.toNat)

/-- RV_INSTRUCTION (R239). -/
def execRvInstruction (core : Fin 864) (word : BitVec 32) (s : State) : Res := settled (s.runWord core word)

/-- ACCESS_RESULT_ARRIVES (R246). -/
def execAccessResultArrives (core : Fin 864) (ctx : Fin 16) (s : State) : Res := settled (s.resultArrives ⟨core.val, ctx⟩)

/-- DIVIDE_DONE (R247). -/
def execDivideDone (core : Fin 864) (ctx : Fin 16) (s : State) : Res :=
  settled (match (s.ctx ⟨core.val, ctx⟩).wait with | .unit_ => s.wake ⟨core.val, ctx⟩ | _ => s)

/-- VECTOR_UNIT_FREE (R248). -/
def execVectorUnitFree (core : Fin 864) (s : State) : Res :=
  settled (match s.corePart core.val with | some p => s.vectorFree p core.val | none => s)

/-! ### Fences of a core (R271–R278) -/

/-- CORE_DRAIN_END (R273). -/
def execCoreDrainEnd (core : Fin 864) (s : State) : Res := settled (s.softFence core.val)

/-- CORE_DRAIN_LIMIT (R273). -/
def execCoreDrainLimit (core : Fin 864) (s : State) : Res := settled (s.drainLimit core.val)

end Sys2Proof.Machine
end

