-- ==== Sys2Proof/Machine/FabricCmds.lean ====
section
/-! DEFINITION. Sys2Proof/Machine/FabricCmds.lean: the commands of the optical fabric and the rack time base (R442–R481) . A channel is 0–127. -/
namespace Sys2Proof.Machine

/-! ### Fibres and training (R442–R444) -/

/-- FIBRE_DETECT (R443): the detect has been active for 50 ms. An engine that a thermal trip keeps off does not transmit (R660). -/
def execFibreDetect (engine : Fin 8) (s : State) : Res :=
  let e := engine.val
  let s := { s with fab := { s.fab with fdet := bput s.fab.fdet e true, detRaw := bput s.fab.detRaw e true } }
  if s.mod.oeOff.getLsbD e then settled s
  else settled ((s.chansOn e).foldl (fun s c => if (s.chan c).state == .noFibre then s.startTraining c else s) s)

/-- FIBRE_REMOVED (R442): the engine's transmitters go off and its channels down. -/
def execFibreRemoved (engine : Fin 8) (s : State) : Res :=
  let s := { s with fab := { s.fab with fdet := bput s.fab.fdet engine.val false, detRaw := bput s.fab.detRaw engine.val false } }
  settled ((s.chansOn engine.val).foldl State.darken s)

/-- LINK_TRAINED (R443): training completes; a Galmel link enters Init, an Ethernet channel is up. -/
def execLinkTrained (ch : Fin 128) (s : State) : Res :=
  let c := ch.val
  if (s.chan c).state != .training then settled s
  else settled (if (s.chan c).eth then s.comeUp c else s.enterInit c)

/-- TRAINING_TIMEOUT (R444): a channel not up 2 s after training began, Init included where R451 says so, is failed. -/
def execTrainingTimeout (ch : Fin 128) (s : State) : Res :=
  let c := ch.val
  let k := s.chan c
  if k.state == .training || k.state == .init then
    let s := s.advanceTo (k.since + 2000000000)
    let s := s.modChan c fun k => { k with state := .failed, since := s.time.up, ctl := [] }
    settled (s.report { cls := 0x0B, kind := 7, unit := c, loc := k.peer.toNat, detail := k.reinit.toNat })
  else settled s

/-- TRAINING_RETRY (R444): 10 s later a failed channel whose detect is active trains again. -/
def execTrainingRetry (ch : Fin 128) (s : State) : Res :=
  let c := ch.val
  let k := s.chan c
  if k.state == .failed && s.fab.fdet.getLsbD k.engine.toNat then settled ((s.advanceTo (k.since + 10000000000)).startTraining c) else settled s

/-- LOCK_LOSS (R444, R453): an up channel returns to Training. -/
def execLockLoss (ch : Fin 128) (s : State) : Res :=
  if (s.chan ch.val).state == .up then settled (s.leaveUp ch.val .training) else settled s

/-! ### Complete messages (R449, R454, R474–R479) -/

/-- DATA_FRAME (R448–R450, R454, R455); `errored` when the PCS marks it. -/
def execDataFrame (ch : Fin 128) (frame : Bytes) (errored : Bool) (s : State) : Res :=
  presented (errored || frameKind frame == .other) <|
  settled (s.galmelIn ch.val frame errored)

/-- CREDIT (R456). -/
def execCredit (ch : Fin 128) (frame : Bytes) (s : State) : Res :=
  presented (frameKind frame == .credit) <|
  settled (s.galmelIn ch.val frame false)

/-- INIT (R451). -/
def execLinkInit (ch : Fin 128) (frame : Bytes) (s : State) : Res :=
  presented (frameKind frame == .init) <|
  settled (s.galmelIn ch.val frame false)

/-- INIT_ACK (R451). -/
def execInitAck (ch : Fin 128) (frame : Bytes) (s : State) : Res :=
  presented (frameKind frame == .ack) <|
  settled (s.galmelIn ch.val frame false)

/-- KEEPALIVE (R452). -/
def execKeepalive (ch : Fin 128) (frame : Bytes) (s : State) : Res :=
  presented (frameKind frame == .keepalive) <|
  settled (s.galmelIn ch.val frame false)

/-- TIME (R464): the PTP message goes to the boundary clock; what it measures arrives as PTP_SYNC. -/
def execTimeFrame (ch : Fin 128) (frame : Bytes) (s : State) : Res :=
  presented (frameKind frame == .time) <|
  settled (s.galmelIn ch.val frame false)

/-- ETHERNET_FRAME (R460–R462); the frame's bytes run from the destination address to the FCS. -/
def execEthernetFrame (ch : Fin 128) (frame : Bytes) (s : State) : Res := settled (s.etherIn ch.val frame)

/-! ### Link timers (R451, R452, R456, R462) -/

/-- INIT_REPEAT (R451). -/
def execInitRepeat (ch : Fin 128) (s : State) : Res := if (s.chan ch.val).state == .init then settled (s.sendInit ch.val) else settled s

/-- KEEPALIVE_SEND (R452): 10 µs with no frame sent. -/
def execKeepaliveSend (ch : Fin 128) (s : State) : Res :=
  let k := s.chan ch.val
  if k.state == .up && !k.eth then
    settled ((s.advanceTo (k.lastTx + 10000)).sendCtl ch.val 3 (linkPayload 3 k.width.toNat k.incarnation.toNat 0))
  else settled s

/-- LINK_RX_TIMEOUT (R452): 100 µs with no frame received. -/
def execLinkRxTimeout (ch : Fin 128) (s : State) : Res :=
  let k := s.chan ch.val
  if k.state == .up && !k.eth then settled ((s.advanceTo (k.lastRx + 100000)).reinit ch.val) else settled s

/-- CREDIT_SEND (R456). -/
def execCreditSend (ch : Fin 128) (s : State) : Res :=
  let k := s.chan ch.val
  if k.state == .up && !k.eth then settled (s.sendCredit ch.val) else settled s

/-- REASSEMBLY_TIMEOUT (R462): an Ethernet-mode message incomplete 1 ms after its first segment is dropped. -/
def execReassemblyTimeout (ch : Fin 128) (src : BitVec 16) (cls : BitVec 3) (mid : BitVec 16) (s : State) : Res :=
  let k := s.chan ch.val
  if !k.eth then settled s
  else
    let same (r : Reasm) : Bool := r.src == src && r.cls == cls && r.mid == mid
    match k.reasm.find? same with
    | none => settled s
    | some r =>
      let s := s.advanceTo (r.since + 1000000)
      let s := s.modChan ch.val fun k => { k with reasm := k.reasm.filter (!same ·) }
      settled ((s.freeUnits ch.val cls.toNat r.units).rxDropped ch.val (some 2))

/-! ### Egress (R470–R473) -/

/-- EGRESS_SELECT (R470). -/
def execEgressSelect (ch : Fin 128) (s : State) : Res := settled (s.egress ch.val)

/-- SHAPER_ELIGIBLE (R472): the clock moves to the time at which the queue's credit is 0 again, and the channel selects. -/
def execShaperEligible (ch : Fin 128) (queue : Fin 8) (s : State) : Res :=
  let q := (nth (s.chan ch.val).queues queue.val {}).credited s.time.up
  if q.rate == 0 || q.credit ≥ 0 then settled (s.egress ch.val)
  else settled ((s.advance (ceilDiv (-q.credit).toNat q.rate.toNat)).egress ch.val)

/-! ### The time base (R464–R468) -/

/-- PTP_SYNC (R467). -/
def execPtpSync (ch : Fin 128) (master : BitVec 64) (offset freq : Int) (s : State) : Res :=
  if (s.chan ch.val).state == .up then settled (s.synced ch.val master.toNat offset freq) else settled s

/-- SYNC_TIMEOUT (R466): no sync message for 3 intervals of 2⁻⁴ s. -/
def execSyncTimeout (s : State) : Res :=
  let s := s.advanceTo (s.time.syncAt + 187500000)
  let st := match s.time.state with | .locked => TimeState.holdover | t => t
  settled { s with time := { s.time with state := st, via := false, port := 0x7F, good := 0, slew := 0 } }

/-- SYNC_INTERVAL (R464, R466): the clock sends its messages of a kind (0 sync, 1 announce, 2 delay request) on each port. At an announce
interval with no master on a channel the node serves as its own where FAB_TIME_CTRL.SELF allows. -/
def execSyncInterval (kind : Fin 3) (s : State) : Res :=
  let ups := (s.fab.chans.filter fun e => e.2.state == .up).map fun e => e.1
  let s := ups.foldl (fun s c => s.emit (.ptp c kind.val)) s
  if kind.val != 1 || s.time.via then settled s
  else if s.fab.self then (if s.time.state == .locked then settled s else settled ((s.lockTo s.time.setTo.toNat)))
  else if s.time.state == .locked then settled { s with time := { s.time with state := .holdover } }
  else settled s

end Sys2Proof.Machine
end

