-- ==== Sys2Proof/Machine/FlashWork.lean ====
section
/-! DEFINITION. Sys2Proof/Machine/FlashWork.lean: what the commands do of the flash channels, the lauter engines, the carriers and the storage
namespaces (R381–R437, R661). -/
namespace Sys2Proof.Machine

/-- The stream of a number: 0 steep, 1 hot, 2 cold (R395). -/
def streamNo (n : Fin 3) : Stream := if n.val == 0 then .steep else if n.val == 1 then .hot else .cold

end Sys2Proof.Machine
end

