-- ==== Sys2Proof/Machine/FlashCmds.lean ====
section
/-! DEFINITION. Sys2Proof/Machine/FlashCmds.lean: the commands of the flash channels, the lauter engines, the carriers and the storage
namespaces (R381–R437, R661). -/
namespace Sys2Proof.Machine

/-- RESCORE (R407): the lauter dispatcher takes the next RESCORE command. -/
def execRescore (s : State) : Res := settled (s.dispatchLauter 1)

/-- FETCH (R407). -/
def execFetch (s : State) : Res := settled (s.dispatchLauter 2)

/-- WRITE (R407). -/
def execLauterWrite (s : State) : Res := settled (s.dispatchLauter 3)

/-- DEALLOCATE (R407). -/
def execDeallocate (s : State) : Res := settled (s.dispatchLauter 4)

/-- LAUTER_COMPLETE (R411). -/
def execLauterComplete (cmd : Nat) (s : State) : Res := settled (s.lauterComplete cmd).smart

/-- LAUTER_RESULT_RETURN (R164). -/
def execLauterResultReturn (cmd : Nat) (s : State) : Res := settled (s.lauterReturn cmd)

/-- PAGE_READ_DONE (R403): a read of a command's page ends; `mapFail` where the flash map page it needed failed its CRC (R401). -/
def execPageReadDone (cmd : Nat) (part : Fin 32) (ext : BitVec 16) (page : BitVec 40) (decoded mapFail : Bool) (s : State) : Res :=
  let k := pageKey part.val ext.toNat page.toNat
  let s := if mapFail then s.mapPageFailed k else s
  settled (s.pageReadDone cmd k decoded).smart

/-- STRIPE_REBUILD (R405): `ok` where all seven other pages decoded. -/
def execStripeRebuild (cmd : Nat) (part : Fin 32) (ext : BitVec 16) (page : BitVec 40) (ok : Bool) (s : State) : Res :=
  settled (s.rebuildDone cmd (pageKey part.val ext.toNat page.toNat) ok).smart

/-- STRIPE_CLOSE (R394): filled, or its oldest page has waited CLOSE_US, up to which the clock moves. -/
def execStripeClose (stream : Fin 3) (s : State) : Res :=
  let st := streamNo stream
  match s.peekPos st with
  | none => settled s
  | some (b, pg) =>
    if !s.storageUp then settled s
    else if ((s.gatherStripe st (parityPos b pg)).filter Option.isSome).length == 7 then settled (s.closeStripe st)
    else match s.closeDue st with
      | none => settled s
      | some t => settled ((s.advanceTo t).closeStripe st)

/-- PROGRAM_DONE (R400): `failing` lists the positions whose program status failed. -/
def execProgramDone (stripe : Nat) (failing : List (Fin 8)) (s : State) : Res :=
  settled ((s.programDone stripe (distinct (failing.map (·.val)))).stagingFreed).smart

/-- ERASE_DONE (R400). -/
def execEraseDone (block : Nat) (failing : List (Fin 8)) (s : State) : Res :=
  settled (if s.pwr.state.toNat < 2 then (s.eraseDone block (failing.map (·.val))).smart else s)

/-- DIE_TIMEOUT (R400). -/
def execDieTimeout (ch : Fin 32) (target : Fin 16) (s : State) : Res := settled (s.dieTimeout ch.val target.val).smart

/-- KILNING (R396). -/
def execKilning (s : State) : Res := settled s.kiln

/-- GARBAGE_COLLECTION (R397). -/
def execGarbageCollection (s : State) : Res := settled s.collect

/-- WEAR_LEVELLING (R398). -/
def execWearLevelling (s : State) : Res := settled s.levelWear

/-- PATROL (R399). -/
def execPatrol (part : Fin 32) (ext : BitVec 16) (page : BitVec 40) (step : Fin 11) (s : State) : Res :=
  settled (s.patrol (pageKey part.val ext.toNat page.toNat) step.val).smart

/-- CALIBRATION (R385). -/
def execCalibration (ch : Fin 32) (forced : Bool) (s : State) : Res := settled (s.calibrate ch.val forced)

/-- CAL_LATE (R385). -/
def execCalLate (ch : Fin 32) (s : State) : Res := settled (s.calLate ch.val)

/-- CARRIER_PRESENT (R426). -/
def execCarrierPresent (carrier : Fin 8) (s : State) : Res :=
  let c := carrier.val
  if s.pwr.state.toNat ≥ 2 || s.pwr.off then settled s
  else match (s.carrier c).state with
    | .absent | .lost => settled (((s.modCarrier c fun k => { k with present := true }).setEn c true).setCar c .powering)
    | _ => settled s

/-- CARRIER_PGOOD_TIMEOUT (R426). -/
def execCarrierPgoodTimeout (carrier : Fin 8) (s : State) : Res :=
  let c := carrier.val
  match (s.carrier c).state with
  | .powering => settled (((s.setEn c false).setCar c .failed).reportCarrier c 0 0)
  | _ => settled s

/-- CARRIER_IDENTIFIED (R426): the identity record as read, whether the channels trained, and the carrier's flash store. -/
def execCarrierIdentified (carrier : Fin 8) (record : Option Bytes) (trained : Bool) (store : FlashStore) (s : State) : Res :=
  settled (s.carrierIdentified carrier.val record trained store).smart

/-- SET_FORMATION (R387): while storage is down or forming. `unread` lists the journal and image pages that cannot be read, `badRecs` the sequence
numbers of journal records whose check fails, for the recovery that follows where storage comes up (R631). -/
def execSetFormation (unread badRecs : List Nat) (s : State) : Res :=
  match s.fls.state with
  | .down | .forming => settled (s.setFormation.smart.recoverPending unread badRecs)
  | _ => settled s

/-- ADOPTION_EXPIRY (R427): 600 s after it was armed. -/
def execAdoptionExpiry (s : State) : Res :=
  if s.fls.adopt then
    let s := s.advanceTo (s.fls.adoptAt + 600000000000)
    settled { s with fls := { s.fls with adopt := false } }
  else settled s

/-- CARRIER_LOSS (R430): presence or PGOOD drops, or a channel of the carrier fails. -/
def execCarrierLoss (carrier : Fin 8) (presence : Bool) (channel : Option (Fin 4)) (s : State) : Res :=
  let c := carrier.val
  let s := match channel with
    | some i => (((s.modFlashCh (4 * c + i.val) fun k => { k with failed := true }).countErr 9).flsErr 4).report
        { cls := 0x09, cause := 4, kind := 5, unit := 4 * c + i.val }
    | none => s
  let s := s.loseCarrier c .lost
  settled (if presence then s.modCarrier c fun k => { k with present := false } else s).smart

/-- REBUILD_COMPLETE (R433). -/
def execRebuildComplete (carrier : Fin 8) (s : State) : Res := settled (s.rebuildComplete carrier.val).smart

/-- PRESS_BEGIN (R661). -/
def execPressBegin (carrier : Fin 8) (s : State) : Res :=
  let c := carrier.val
  if s.buttonsLive then
    settled { s with mod := { s.mod with pressed := bput s.mod.pressed c true, event := bput s.mod.event c true, pressAt := s.mod.pressAt.set 0 c s.time.up } }
  else settled s

/-- SHORT_PRESS (R661): released within 4 s. -/
def execShortPress (carrier : Fin 8) (s : State) : Res :=
  let c := carrier.val
  if s.buttonsLive && s.mod.pressed.getLsbD c && s.time.up < s.mod.pressAt.get 0 c + 4000000000 then settled (s.shortPress c).smart else settled s

/-- BUTTON_HOLD (R661): the press reaches 4 s, up to which the clock moves. -/
def execButtonHold (carrier : Fin 8) (s : State) : Res :=
  let c := carrier.val
  if s.buttonsLive && s.mod.pressed.getLsbD c then settled (s.buttonHold c).smart else settled s

/-- PRSNT_N_HIGH (R425). -/
def execPrsntNHigh (carrier : Fin 8) (s : State) : Res := settled (s.prsntHigh carrier.val)

/-- CARRIER_SENSOR_READ (R435): the carrier's two sensors, °C. -/
def execCarrierSensorRead (carrier : Fin 8) (a b : BitVec 8) (s : State) : Res := settled (s.carrierSensors carrier.val a b)

/-- CARRIER_ALERT (R435, R664): Kc_ALERT_N is low, and the sensors are read at once. -/
def execCarrierAlert (carrier : Fin 8) (a b : BitVec 8) (s : State) : Res :=
  settled (({ s with mod := { s.mod with alert := bput s.mod.alert carrier.val true } }).carrierSensors carrier.val a b)

/-- MAP_CHECKPOINT (R617): a changed flash map page is rewritten. -/
def execMapCheckpoint (page : Nat) (s : State) : Res :=
  if s.storageUp && s.pwr.state.toNat < 2 then settled { s with dur := { s.dur with mapDirty := s.dur.mapDirty.set 0 page 0 } } else settled s

/-- NVME_READ (R419): `bad` lists the pages that decode at no ladder step. -/
def execNvmeRead (sq cid : BitVec 16) (nsid : BitVec 32) (slba : BitVec 64) (nlb : BitVec 16) (dptr : BitVec 64) (bad : List Nat) (s : State) : Res :=
  presented (sq != 0) <|
  settled (s.nvmRead sq.toNat cid nsid.toNat slba.toNat (nlb.toNat + 1) (some dptr.toNat) bad)

/-- NVME_WRITE (R419): `data` is what the host's buffers hold, none where reading them failed. -/
def execNvmeWrite (sq cid : BitVec 16) (nsid : BitVec 32) (slba : BitVec 64) (nlb : BitVec 16) (data : Option Bytes) (s : State) : Res :=
  presented (sq != 0) <|
  settled (s.nvmWrite sq.toNat cid nsid.toNat slba.toNat (nlb.toNat + 1) data)

/-- NVME_FLUSH (R419). -/
def execNvmeFlush (sq cid : BitVec 16) (nsid : BitVec 32) (s : State) : Res :=
  presented (sq != 0) <|
  settled (s.nvmFlush sq.toNat cid nsid.toNat)

/-- NVME_WRITE_ZEROES (R419). -/
def execNvmeWriteZeroes (sq cid : BitVec 16) (nsid : BitVec 32) (slba : BitVec 64) (nlb : BitVec 16) (s : State) : Res :=
  presented (sq != 0) <|
  settled (s.nvmZero sq.toNat cid nsid.toNat slba.toNat (nlb.toNat + 1))

/-- DATASET_MANAGEMENT (R419). -/
def execDatasetManagement (sq cid : BitVec 16) (nsid : BitVec 32) (dealloc : Bool) (ranges : Option (List (BitVec 32 × BitVec 64))) (s : State) : Res :=
  presented (sq != 0) <|
  settled (s.nvmDsm sq.toNat cid nsid.toNat dealloc ranges)

/-- NVME_VERIFY (R419). -/
def execNvmeVerify (sq cid : BitVec 16) (nsid : BitVec 32) (slba : BitVec 64) (nlb : BitVec 16) (bad : List Nat) (s : State) : Res :=
  presented (sq != 0) <|
  settled (s.nvmRead sq.toNat cid nsid.toNat slba.toNat (nlb.toNat + 1) none bad)

end Sys2Proof.Machine
end

