-- ==== Sys2Proof/Machine/GatherCmds.lean ====
section
/-! DEFINITION. Sys2Proof/Machine/GatherCmds.lean: the commands of the gather engines, and what the placement program does with heat samples (R219,
R222–R237, R593). -/
namespace Sys2Proof.Machine

/-- GATHER_POOL (R222–R226). -/
def execGatherPool (tile : Fin 96) (s : State) : Res := settled (s.gatherTake tile.val)

/-- GATHER_READ_RETIRE (R228, R230, R231). -/
def execGatherReadRetire (tile : Fin 96) (s : State) : Res := settled (s.gatherRetire tile.val)

/-- GATHER_COMPLETE (R233, R234). -/
def execGatherComplete (tile : Fin 96) (s : State) : Res := settled (s.gatherComplete tile.val)

/-- HEAT_APPLY (R219): the placement program takes the oldest entry of a heat queue. -/
def execHeatApply (part : Fin 32) (queue : BitVec 16) (s : State) : Res :=
  settled <| match s.part? part.val with
    | none => s
    | some p =>
      if !s.works p.num then s
      else match p.queueDef? queue.toNat with
        | some q => if q.kind == 3 then s.heatApply p q else s
        | none => s

/-- HEAT_DECAY (R219): once every decay period; a period of 0 means no decay. -/
def execHeatDecay (part : Fin 32) (table : BitVec 16) (s : State) : Res :=
  settled <| match s.part? part.val with
    | none => s
    | some p =>
      if !s.works p.num then s
      else match s.curTable p table.toNat with
        | none => s
        | some t => if t.decay == 0 then s else (s.rowPages p t).foldl (fun (s : State) e => s.coolPage p e.2) s

end Sys2Proof.Machine
end

