-- ==== Sys2Proof/Machine/GristCmds.lean ====
section
/-! DEFINITION. Sys2Proof/Machine/GristCmds.lean: the commands of the GRIST block, the firmware update and power capping (R42, R66–R83, R308). -/
namespace Sys2Proof.Machine

/-- REGRIST_DRAIN_END (R77–R80); `fault` when a hardware fault stops the apply step. -/
def execRegristDrainEnd (fault : Bool) (reads : Reads) (s : State) : Res := settled (s.drainEnd fault reads)

/-- DRAIN_TIMEOUT (R78). -/
def execDrainTimeout (s : State) : Res := settled s.drainTimeout

/-- PLDM_FIRMWARE_UPDATE (R75): the image that the update delivered, as a GO with PERSIST = 1. -/
def execPldmFirmwareUpdate (image : Bytes) (reads : Reads) (s : State) : Res :=
  if !s.regsLive then settled s
  else if s.grist.busy || s.loadBarred then settled s.loadRefused
  else settled (s.loadFull image none true reads)

/-! ### Power capping (R42, R308) -/

/-- POWER_SAMPLE (R308): the mean of the last interval, in watts. -/
def execPowerSample (mean : BitVec 16) (s : State) : Res := settled (s.powerSample mean.toNat)

end Sys2Proof.Machine
end

