-- ==== Sys2Proof/Machine/HostCmds.lean ====
section
/-! DEFINITION. Sys2Proof/Machine/HostCmds.lean: the commands of the host port (R516–R537). -/
namespace Sys2Proof.Machine

/-- PCIE_LINK_UP (R516): the link trains at a speed and width, and the host's configuration says whether MSI-X is enabled (assumption 39). -/
def execPcieLinkUp (speed : BitVec 3) (width : BitVec 5) (flit msix : Bool) (s : State) : Res :=
  presented (linkOk speed.toNat width.toNat) <|
  settled { s with
    pins := { s.pins with perstN := true }
    host := { s.host with speed := speed, width := width, flit := flit || speed == 6, d3 := false, msixEnabled := msix } }

/-- PERST (R517): 0 PERST_N asserted, 1 hot reset, 2 link down. -/
def execPerst (kind : Fin 3) (s : State) : Res :=
  let s := s.hostReset
  settled (if kind.val == 0 then { s with pins := { s.pins with perstN := false } } else s)

/-- FLR (R517). -/
def execFlr (s : State) : Res := settled ((s.clearNvme false).clearConfig).clearMsix

/-- D3HOT_ENTRY (R517): as CC.EN = 0 would. -/
def execD3hotEntry (s : State) : Res :=
  let s := s.clearNvme true
  settled { s with host := { s.host with d3 := true } }

/-- SHUTDOWN_TIMEOUT (R525). -/
def execShutdownTimeout (s : State) : Res := settled s.shutTimeout

/-- CREATE_IO_SQ (R523); `size` is the 0's-based count that the command carries. -/
def execCreateIoSq (cid queue size cq : BitVec 16) (base : BitVec 64) (contiguous : Bool) (s : State) : Res :=
  settled (s.admin cid fun s => s.createSq queue.toNat size.toNat cq.toNat base.toNat contiguous)

/-- CREATE_IO_CQ (R523, R537). -/
def execCreateIoCq (cid queue size vector : BitVec 16) (base : BitVec 64) (interrupts contiguous : Bool) (s : State) : Res :=
  settled (s.admin cid fun s => s.createCq queue.toNat size.toNat base.toNat vector.toNat interrupts contiguous)

/-- DELETE_IO_SQ (R523). -/
def execDeleteIoSq (cid queue : BitVec 16) (s : State) : Res := settled (s.admin cid fun s => s.deleteSq queue.toNat)

/-- DELETE_IO_CQ (R523). -/
def execDeleteIoCq (cid queue : BitVec 16) (s : State) : Res := settled (s.admin cid fun s => s.deleteCq queue.toNat)

/-- IDENTIFY (R523). -/
def execIdentify (cid : BitVec 16) (cns csi : BitVec 8) (nsid : BitVec 32) (dptr : BitVec 64) (s : State) : Res :=
  settled (s.admin cid fun s => match s.identify cns.toNat csi.toNat nsid.toNat with
    | some b => (s.emit (.hostWrite dptr.toNat b), 0, nvOk)
    | none => (s, 0, if cns == 0 then nvBadNs else nvBadField))

/-- GET_LOG_PAGE (R523): `len` bytes from `off` on. -/
def execGetLogPage (cid : BitVec 16) (lid : BitVec 8) (off : BitVec 64) (len : BitVec 32) (dptr : BitVec 64) (s : State) : Res :=
  settled (s.admin cid fun s => match s.logPage lid.toNat with
    | some b =>
      let s := s.emit (.hostWrite dptr.toNat (slice b off.toNat len.toNat))
      (if lid == 4 then s.modNvme fun n => { n with changedNs := [] } else s, 0, nvOk)
    | none => (s, 0, nvBadLog))

/-- SET_FEATURES (R523): command dword 11. -/
def execSetFeatures (cid : BitVec 16) (fid : BitVec 8) (value : BitVec 32) (s : State) : Res :=
  settled (s.admin cid fun s => s.setFeature fid.toNat value).smartTemp

/-- GET_FEATURES (R523). -/
def execGetFeatures (cid : BitVec 16) (fid : BitVec 8) (value : BitVec 32) (s : State) : Res :=
  settled (s.admin cid fun s => (s, s.getFeature fid.toNat value))

/-- ASYNC_EVENT_REQUEST (R523). -/
def execAsyncEventRequest (cid : BitVec 16) (s : State) : Res := settled (s.aer cid)

/-- NVME_ABORT (R534): an Execute Program passes to admission in the step that fetches it, so no command is left to cancel: not aborted. -/
def execNvmeAbort (cid _sq _target : BitVec 16) (s : State) : Res := settled (s.admin cid fun s => (s, 1, nvOk))

/-- EXECUTE_PROGRAM (R531): its parameter data, none where reading it failed. -/
def execExecuteProgram (sq cid : BitVec 16) (nsid : BitVec 32) (program rsid : BitVec 16) (param : Option Bytes) (s : State) : Res :=
  presented (sq != 0) <|
  settled (s.executeProgram sq.toNat cid nsid.toNat program.toNat rsid.toNat param)

/-- PROGRAM_ACTIVATION_MANAGEMENT (R527): 0 reports the activation state, 1 activates, 2 deactivates. -/
def execProgramActivationManagement (sq cid : BitVec 16) (nsid : BitVec 32) (program : BitVec 16) (op : Fin 3) (s : State) : Res :=
  presented (sq != 0) <|
  match s.fetch sq.toNat with
  | none => settled s
  | some s =>
    let st := if nsid.toNat != computeNs then nvBadNs else if (s.programSvc program.toNat).isNone || op.val == 2 then nvBadField else nvOk
    settled ((s.postCqe sq.toNat cid (if op.val == 0 && st == nvOk then 1 else 0) 0 st).shutCheck)

/-- LOAD_PROGRAM (R527). -/
def execLoadProgram (sq cid : BitVec 16) (s : State) : Res :=
  presented (sq != 0) <|
  settled (s.ioDone sq.toNat cid fun s => (s, nvBadOpcode))

/-- MEMORY_READ (R529). -/
def execMemoryRead (sq cid : BitVec 16) (nsid : BitVec 32) (off : BitVec 64) (len : BitVec 32) (dptr : BitVec 64) (s : State) : Res :=
  presented (sq != 0) <|
  settled (s.ioDone sq.toNat cid fun s => s.memRead nsid.toNat off.toNat len.toNat dptr.toNat)

/-- MEMORY_WRITE (R529). -/
def execMemoryWrite (sq cid : BitVec 16) (nsid : BitVec 32) (off : BitVec 64) (len : BitVec 32) (data : Option Bytes) (s : State) : Res :=
  presented (sq != 0) <|
  settled (s.ioDone sq.toNat cid fun s => s.memWrite nsid.toNat off.toNat len.toNat data)

/-- MEMORY_RANGE_SET_CREATE (R529): ranges as (start, length). -/
def execMemoryRangeSetCreate (sq cid : BitVec 16) (nsid : BitVec 32) (rsid : BitVec 16) (ranges : Option (List (BitVec 64 × BitVec 64))) (s : State) : Res :=
  presented (sq != 0) <|
  settled (s.ioDone sq.toNat cid fun s => s.rangeCreate nsid.toNat rsid.toNat ranges)

/-- MEMORY_RANGE_SET_DELETE (R529). -/
def execMemoryRangeSetDelete (sq cid : BitVec 16) (nsid : BitVec 32) (rsid : BitVec 16) (s : State) : Res :=
  presented (sq != 0) <|
  settled (s.ioDone sq.toNat cid fun s => s.rangeDelete nsid.toNat rsid.toNat)

/-- HOST_READ_FAILURE (R535): 0 a submission queue entry, 1 a list or data of command `cid`, 2 the write of a completion queue entry. -/
def execHostReadFailure (kind : Fin 3) (sq cid : BitVec 16) (s : State) : Res := settled (s.hostFailure kind.val sq.toNat cid)

/-- AGGREGATION_TIME (R537): a completion queue's coalesced entries raise their interrupt. -/
def execAggregationTime (queue : BitVec 16) (s : State) : Res :=
  match s.cq? queue.toNat with
  | some c => settled (if c.coalesced > 0 && !s.irqStopped then (s.setCq { c with coalesced := 0 }).fireIrq c.vector else s)
  | none => settled s

end Sys2Proof.Machine
end

