-- ==== Sys2Proof/Machine/JtagCmds.lean ====
section
/-! DEFINITION. Sys2Proof/Machine/JtagCmds.lean: the instructions of the test access port (R652, R653). A command loads an instruction and shifts
its data register once: `captured` is what the scanned contacts show, `shifted` what the tester shifts in. -/
namespace Sys2Proof.Machine

/-- Load an instruction with what its data register scans out. -/
def State.jtagLoad (s : State) (i : JtagInstr) (scan : BitVec 1368) : State := { s with jtag := { s.jtag with instr := i, scan := scan } }

/-- The IDCODE that the test access port reads (R580, R652). -/
def idcode : BitVec 1368 := 0x248165A7

/-- Bypass: one bit that captures 0. -/
def State.jtagBypass (s : State) : State := s.jtagLoad .bypass 0

/-- The contacts are the tester's only while RESET_N is low; else the instruction acts as BYPASS (R653). -/
def State.whileReset (s : State) (f : State → State) : State := if s.pins.resetN then s.jtagBypass else f s

/-- The boundary register is captured, scanned out and loaded anew. -/
def State.boundaryScan (s : State) (i : JtagInstr) (captured shifted : BitVec 1368) : State :=
  let s := s.jtagLoad i captured
  { s with jtag := { s.jtag with boundary := shifted } }

/-- EXTEST (R652, R653): the boundary register drives the contacts. -/
def execExtest (captured shifted : BitVec 1368) (s : State) : Res := settled (s.whileReset fun s => s.boundaryScan .extest captured shifted)

/-- SAMPLE_PRELOAD (R652). -/
def execSamplePreload (captured shifted : BitVec 1368) (s : State) : Res := settled (s.boundaryScan .samplePreload captured shifted)

/-- IDCODE (R652). -/
def execIdcode (s : State) : Res := settled (s.jtagLoad .idcode idcode)

/-- CLAMP (R652, R653): the boundary register holds the contacts, and the bypass register scans. -/
def execClamp (s : State) : Res := settled (s.whileReset fun s => s.jtagLoad .clamp 0)

/-- HIGHZ (R652, R653). -/
def execHighz (s : State) : Res := settled (s.whileReset fun s => s.jtagLoad .highz 0)

/-- BYPASS (R652): the all-ones code, and every code without an instruction. -/
def execBypass (code : BitVec 8) (s : State) : Res :=
  presented (bypassCode code.toNat) <|
  settled s.jtagBypass

end Sys2Proof.Machine
end

