-- ==== Sys2Proof/Machine/MatrixCmds.lean ====
section
/-! DEFINITION. Sys2Proof/Machine/MatrixCmds.lean: the commands of the matrix engines (R282, R283, R298, R310–R314). -/
namespace Sys2Proof.Machine

/-- MATRIX (R282, R289): the engine takes the next descriptor, unless its op is MATRIX_ACC. -/
def execMatrix (tile : Fin 96) (s : State) : Res := settled (s.matrixTake tile.val fun op => op != 2)

/-- MATRIX_ACC (R282, R289). -/
def execMatrixAcc (tile : Fin 96) (s : State) : Res := settled (s.matrixTake tile.val fun op => op == 2)

/-- MATRIX_PHASE_END (R283). -/
def execMatrixPhaseEnd (tile : Fin 96) (s : State) : Res := settled (s.phaseEnd tile.val)

/-- MATRIX_COMPLETE (R298, R299). -/
def execMatrixComplete (tile : Fin 96) (s : State) : Res := settled (s.matrixComplete tile.val)

/-- ARRAY_DRAIN_LIMIT (R311): the clock moves up to the limit when the array still drains. -/
def execArrayDrainLimit (array : Fin 384) (s : State) : Res := settled (s.arrayLimit (array.val / 4) (array.val % 4))

end Sys2Proof.Machine
end

