-- ==== Sys2Proof/Machine/MemCmds.lean ====
section
/-! DEFINITION. Sys2Proof/Machine/MemCmds.lean: the commands of the memory stacks and mash stacks (R345, R352–R380) and the return of a
standard walk's scan (R162). A mash stack is named 0–7 for S08–S15. -/
namespace Sys2Proof.Machine

/-- PER_BANK_REFRESH (R352, R353); `busBusy` when accesses already issued occupy the pseudo-channel's command bus. -/
def execPerBankRefresh (stack : Fin 16) (bank : Fin 1024) (busBusy : Bool) (s : State) : Res := settled (s.refreshDue stack.val bank.val busBusy)

/-- REFRESH_WINDOW (R354, R355); `trained` is the outcome of a retraining that the window carries. -/
def execRefreshWindow (stack : Fin 16) (ch : Fin 32) (trained : Bool) (s : State) : Res := settled (s.refreshWindow stack.val ch.val trained)

/-- STACK_TEMP_READOUT (R345). -/
def execStackTempReadout (stack : Fin 16) (temp : BitVec 8) (s : State) : Res := settled (s.stackTemp stack.val temp)

/-- PARITY_ERROR (R345). -/
def execParityError (stack : Fin 16) (again : Bool) (s : State) : Res := settled (s.parityError stack.val again)

/-- STACK_FAIL (R377, R378): the controller stops receiving responses. -/
def execStackFail (stack : Fin 16) (s : State) : Res := settled (if (s.memCtl stack.val).state == 2 then s else s.failStack stack.val 0)

/-- START (R358). -/
def execStartOp (mash : Fin 8) (bank : Fin 1024) (s : State) : Res := settled (s.modBank (8 + mash.val) bank.val Bank.startOp)

/-- CONTINUE (R358). -/
def execContinueOp (mash : Fin 8) (bank : Fin 1024) (s : State) : Res := settled (s.modBank (8 + mash.val) bank.val Bank.continueOp)

/-- ABORT (R358). -/
def execAbortOp (mash : Fin 8) (bank : Fin 1024) (s : State) : Res := settled (s.modBank (8 + mash.val) bank.val Bank.abortOp)

/-- CHUNK_END (R361). -/
def execChunkEnd (mash : Fin 8) (bank : Fin 1024) (s : State) : Res := settled (s.chunkEnd (8 + mash.val) bank.val)

/-- SCAN (R364, R365): the dispatcher takes the next command. -/
def execScan (s : State) : Res := settled s.dispatchScan

/-- SCAN_COMPLETE (R368). -/
def execScanComplete (mash : Fin 8) (cmd : Nat) (s : State) : Res := settled (s.scanComplete (8 + mash.val) cmd)

/-- SCAN_RESULT_RETURN (R162): a standard walk's result. -/
def execScanResultReturn (mash : Fin 8) (cmd : Nat) (s : State) : Res := settled (s.scanReturn (8 + mash.val) cmd)

end Sys2Proof.Machine
end

