-- ==== Sys2Proof/Machine/PlacementCmds.lean ====
section
/-! DEFINITION. Sys2Proof/Machine/PlacementCmds.lean: the placement round of an embedding table (R213–R216, R220, R221). Widths are numbered as locations: 1 BF16,
2 INT8, 3 INT4, 4 flash, from wide to narrow. -/
namespace Sys2Proof.Machine

/-- PLACEMENT_ROUND (R221). The placement program chooses where the new structures lie: the operands name free memory. -/
def execPlacementRound (part : Fin 32) (table : BitVec 16) (desc pub list : Nat) (pages : List Nat) (s : State) : Res :=
  settled <| match s.part? part.val with
    | none => s
    | some p =>
      if !s.works p.num then s
      else match s.curTable p table.toNat with
        | none => s
        | some t => if t.dims == 0 then s else s.placementRound p t ⟨desc, pub, list, pages⟩

end Sys2Proof.Machine
end

