-- ==== Sys2Proof/Machine/PowerOps.lean ====
section
/-! DEFINITION. Sys2Proof/Machine/PowerOps.lean: input loss, flush mode, the return of power, and the thermal limits (R625–R637, R640–R644, R657–R660). -/
namespace Sys2Proof.Machine

/-! ### Records -/

/-- A POWER record with the bus voltage in mV (R588); its cause is the bit of the error register that the event set. -/
def State.reportPower (s : State) (cause kind unit : Nat) : State :=
  s.report { cls := 0x14, cause := cause, kind := kind, unit := unit, detail := s.pwr.vin.toNat * 1000 }

/-- A THERMAL record: sensor number and reading in °C (R588). -/
def State.reportThermal (s : State) (i : Nat) : State :=
  let (kind, unit) : Nat × Nat := if i < 16 then (4, i) else (10, 0)
  s.report { cls := 0x13, kind := kind, unit := unit, loc := i, detail := unsignedOf 64 (s.tempOf i) }

/-- The bus voltage as measured. -/
def State.setVin (s : State) (v : BitVec 10) : State := { s with pwr := { s.pwr with vin := v } }

/-! ### Flush mode (R626–R630) -/

/-- A channel with its transmitter off: no fibre is lit, and what it held is discarded. -/
def Chan.dark (k : Chan) (now : Nat) : Chan :=
  if k.state == .undefined then k
  else { k with state := .noFibre, txOn := false, peer := 0xFFFF, since := now, reasm := [], ctl := [], timeq := [], held := List.replicate 8 0,
                queues := k.queues.map fun q => { q with msgs := [], headTag := none, wasHeld := false } }

/-- Steps 2 and 3 of R627: contexts, engines, scans and lauter commands stop and post nothing, requests and answers are lost, the optics go
dark, the mash stacks lose their contents, and what ran in the background leaves its previous state in force. A load, a test and a capture
end (R81, R599, R609). -/
def State.stopService (s : State) : State :=
  let s := s.loseLends fun _ => true
  let testing := !(s.flt.queue ++ s.flt.running).isEmpty
  let lastTest := s.flt.running.head?.orElse fun _ => s.flt.queue.head?
  { s with
    cores := [], gather := s.gather.map fun e => (e.1, { e.2 with cmd := none, cache := [] }),
    matrix := s.matrix.map fun e => (e.1, { e.2 with cmd := none }),
    queues := [], req := { next := s.req.next }, srch := { used := s.srch.used, lastPage := s.srch.lastPage },
    disp := { s.disp with fill := 0 },
    comp := { s.comp with lends := [] },
    fls := { s.fls with cmds := [] },
    mem := s.mem.map fun e => (e.1, { e.2 with cmds := [], banks := [] }),
    dram := (List.range 8).foldl (fun (m : Memory) (i : Nat) => Memory.clear m (dramKey (8 + i) 0) stackBytes) s.dram,
    fab := { s.fab with chans := s.fab.chans.map fun e => (e.1, e.2.dark s.time.up), waiting := [] },
    grist := { s.grist with load := none, state := if s.grist.busy then .running else s.grist.state },
    flt := { s.flt with queue := [], running := [], lastResult := if testing then 3 else s.flt.lastResult,
                        lastKind := (lastTest.map (·.kind)).getD s.flt.lastKind, lastUnit := (lastTest.map (·.unit)).getD s.flt.lastUnit },
    cask := { s.cask with state := if s.cask.state == 1 || s.cask.state == 2 || s.cask.state == 4 then 5 else s.cask.state } }

/-- The flushed state begins (R627 step 6): the carrier rails go off. -/
def State.enterFlushed (s : State) : State :=
  let s := (List.range 8).foldl (fun (s : State) (c : Nat) => s.setEn c false) s
  { s with pwr := { s.pwr with state := 3 }, mod := { s.mod with kOn := 0 } }

/-- Once the flush is over, the module reset of R630 runs when its conditions hold (R643, R659), and otherwise one that was requested during
the flush (R562). -/
def State.afterFlush (s : State) : State :=
  if s.pwr.state != 3 || s.pwr.off then s
  else if s.pwr.returned && s.pwr.tripped.isEmpty && s.pins.pwrFailN then s.resetNow 5
  else match s.rst.modPend with
    | some c => s.resetNow c
    | none => s

/-- Bytes of the flush set (R628): the tail, the staged pages with their valid maps, the error records not saved, and the end record. -/
def State.flushBytes (s : State) : Nat :=
  let tail := ((s.dur.journal.filter (!·.inTrail)).map JRec.len).sum
  let recs := (s.flt.ring.filter fun r => r.seq.toNat ≥ s.flt.savedTo.toNat).length
  tail + s.staged.length * (16384 + 128 + 64) + min (64 * recs) (4 * 2 ^ 20) + 64

/-- A flush trigger (R625–R627): the flush stamp, the stop of service, and the flushed state at once where no storage can take a flush. -/
def State.flushTrigger (s : State) (drill trip bus : Bool) : State :=
  if s.pwr.state.toNat ≥ 2 || s.pwr.off then s
  else
    let (f, s) := s.stampOrZero
    let s := if trip then s else s.reportPower 0 10 0
    let s := s.stopService
    let up := s.fls.state == .ready || s.fls.state == .degraded || s.fls.state == .rebuilding
    let s := { s with pwr := { s.pwr with state := 2, trigAt := s.time.up, drill := drill, trip := trip, empty := !up, returned := !bus, flushStamp := f } }
    if up then s
    else
      let k := { s.pwrKept with cnt := s.pwrKept.cnt + 1, last := 3, us := 0, mib := 0, stamp := f }
      let s := { s with pwrKept := k, pwr := { s.pwr with flushCnt := s.pwr.flushCnt + 1, last := 3, lastUs := 0, lastMib := 0 } }
      s.enterFlushed.afterFlush

/-- The end record has programmed (R627 step 6): the outcome is kept in the system area. -/
def State.flushComplete (s : State) : State :=
  if s.pwr.state != 2 || s.pwr.off then s
  else
    let us := BitVec.ofNat 32 ((s.time.up - s.pwr.trigAt) / 1000)
    let mib := BitVec.ofNat 16 (ceilDiv s.flushBytes (2 ^ 20))
    let last : BitVec 3 := if s.pwr.drill then 4 else 1
    let k := { s.pwrKept with cnt := s.pwrKept.cnt + 1, last := last, us := us, mib := mib, stamp := s.pwr.flushStamp }
    let s := { s with pwrKept := k,
                      pwr := { s.pwr with flushCnt := s.pwr.flushCnt + 1, last := last, lastUs := us, lastMib := mib },
                      flt := { s.flt with savedTo := s.flt.head },
                      media := { s.media with stripes := s.media.stripes.filter fun e => e.2.programmed },
                      dur := { s.dur with flushed := some (s.pwr.flushStamp, true), flushStaged := s.staged.map fun (e : Nat × Staged) => e.1 } }
    s.enterFlushed.afterFlush

/-- The bus has reached 400 V (R630): without an end record the flush is incomplete, and what the flush area does not hold is lost. -/
def State.collapse (s : State) : State :=
  if s.pwr.off then s
  else
    let whole := s.pwr.state == 3 && !s.pwr.empty
    let us := BitVec.ofNat 32 ((s.time.up - s.pwr.trigAt) / 1000)
    let s := if s.pwr.state == 2 then
        { s with pwrKept := { s.pwrKept with cnt := s.pwrKept.cnt + 1, last := 2, us := us, mib := 0, stamp := s.pwr.flushStamp },
                 dur := { s.dur with flushed := some (s.pwr.flushStamp, false) } }
      else s
    let s := if whole then s else s.loseReserve
    { s with pwr := { s.pwr with off := true }, clk := { s.clk with phase := .held } }

/-! ### Thermal limits (R657–R660) -/

/-- Throttle and trip levels of a sensor in °C (R657); the carriers' are those of R435. -/
def thermLevels (i : Nat) : Nat × Nat :=
  if i < 16 then (95, 105) else if i < 19 then (100, 115) else if i < 27 then (75, 85) else if i < 43 then (75, 85) else (105, 120)

/-- The sensors whose levels act on the cap and the flush: stacks, dies and the converter. -/
def coreSensors : List Nat := List.range 19 ++ [43]

/-- Every such sensor reads at least 5 °C below its throttle level. -/
def State.allCool (s : State) : Bool := coreSensors.all fun i => s.tempOf i + 5 ≤ ((thermLevels i).1 : Int)

/-- Some such sensor reads at or above its throttle level. -/
def State.someHot (s : State) : Bool := coreSensors.any fun i => s.tempOf i ≥ ((thermLevels i).1 : Int)

/-- The bin of a temperature (R423). -/
def tempBin (t : Int) : Nat := if t < -8 then 0 else if t ≥ 116 then 63 else ((t + 10) / 2).toNat

/-- One second at a reading (R423); counts saturate. -/
def State.countTemp (s : State) (i : Nat) (t : BitVec 8) : State :=
  let k := i * 64 + tempBin t.toInt
  { s with mod := { s.mod with hist := s.mod.hist.modify 0 k fun n => min (n + 1) 0xFFFFFFFF } }

/-- Throttling ends once every sensor is cool and the image's cap is back (R658). -/
def State.endThrottle (s : State) : State :=
  if s.mod.therm == 1 && s.allCool && s.cap.cap == s.grist.clock.cap then
    { s with mod := { s.mod with therm := 0, warm := s.mod.warm.filter fun i => !coreSensors.contains i } }
  else s

/-- A stack, die or converter sensor is compared (R658): throttling begins with a record. -/
def State.throttleCheck (s : State) (i : Nat) : State :=
  if s.tempOf i ≥ ((thermLevels i).1 : Int) then
    if s.mod.warm.contains i then s
    else
      let s := { s with mod := { s.mod with warm := insNat s.mod.warm i } }
      let s := if s.mod.therm == 0 then { s with mod := { s.mod with therm := 1, err := bput s.mod.err 0 true } } else s
      s.reportThermal i
  else s

/-- An optical engine is compared (R660). -/
def State.engineCheck (s : State) (e : Nat) : State :=
  let i := 19 + e
  let t := s.tempOf i
  if t ≥ 85 && !s.mod.oeOff.getLsbD e then
    let s := { s with mod := { s.mod with oeOff := bput s.mod.oeOff e true, oeHot := true, err := bput s.mod.err 2 true, warm := insNat s.mod.warm i } }
    (s.chansOn e).foldl State.darken (s.reportThermal i)
  else if t ≥ 75 then
    if s.mod.warm.contains i then s else { s with mod := { s.mod with warm := insNat s.mod.warm i } }.reportThermal i
  else { s with mod := { s.mod with warm := s.mod.warm.filter (· != i) } }

/-- The sensors at or above their trip levels (R659). -/
def State.trips (s : State) : List Nat := coreSensors.filter fun i => s.tempOf i ≥ ((thermLevels i).2 : Int)

/-- Every sensor is read (R423, R657): a reading that no sensor gave leaves the last one. -/
def State.thermalSample (s : State) (temps : List (BitVec 8)) : State :=
  if s.pwr.off then s
  else
    let s := (List.zipIdx (temps.take 44)).foldl (fun (s : State) (x : BitVec 8 × Nat) =>
      if 27 ≤ x.2 && x.2 < 43 && !(s.carrier ((x.2 - 27) / 2)).pgood then s else (s.setTemp x.2 x.1).countTemp x.2 x.1) s
    if s.pwr.state == 3 then
      let left := s.pwr.tripped.filter fun i => s.tempOf i ≥ ((thermLevels i).1 : Int)
      { s with pwr := { s.pwr with tripped := left } }.afterFlush
    else if s.pwr.state == 2 then { s with pwr := { s.pwr with tripped := s.pwr.tripped.filter fun i => s.tempOf i ≥ ((thermLevels i).1 : Int) } }
    else
      let s := (List.range 8).foldl (fun (s : State) (c : Nat) =>
        if (s.carrier c).pgood then s.carrierSensors c (s.mod.now.get 0 (27 + 2 * c)) (s.mod.now.get 0 (28 + 2 * c)) else s) s
      let s := (List.range 8).foldl State.engineCheck s
      let s := (coreSensors.foldl State.throttleCheck s).endThrottle
      match s.trips with
      | [] => s
      | i :: rest =>
        let s := s.reportThermal i
        let s := { s with mod := { s.mod with therm := 2, err := bput s.mod.err 1 true }, pwr := { s.pwr with tripped := i :: rest } }
        s.flushTrigger false true false

/-- Every 100 ms while the module throttles (R658): 5 % of the image's cap, rounded down, less or more, between 600 W and the cap. -/
def State.throttleStep (s : State) : State :=
  if s.mod.therm != 1 then s
  else
    let full := s.grist.clock.cap
    let step := full / 20
    if s.someHot then { s with cap := { s.cap with cap := min s.cap.cap (max 600 (s.cap.cap - step)) } }
    else if s.allCool then { s with cap := { s.cap with cap := min full (s.cap.cap + step) } }.endThrottle
    else s

/-- An engine that was too hot reads 70 °C or less (R660): its channels train again where its fibre is detected. -/
def State.engineCool (s : State) (e : Nat) (t : BitVec 8) : State :=
  let s := s.setTemp (19 + e) t
  if !s.mod.oeOff.getLsbD e || t.toInt > 70 then s
  else
    let off := bput s.mod.oeOff e false
    let s := { s with mod := { s.mod with oeOff := off, oeHot := off != 0 } }
    if s.fab.fdet.getLsbD e then (s.chansOn e).foldl (fun (s : State) (c : Nat) => if (s.chan c).state == .noFibre then s.startTraining c else s) s else s

/-- The hourly save (R423): carrier histories into the identity records, the others into the system area. -/
def State.saveHist (s : State) : State :=
  let s := (List.range 8).foldl (fun (s : State) (c : Nat) =>
    if (s.carrier c).pgood then
      let lo := (27 + 2 * c) * 64
      s.modCarrier c fun k => { k with hist := (s.mod.hist.within lo (lo + 128)).map fun e => (e.1 - lo, e.2) }
    else s) s
  if s.storageUp then { s with media := { s.media with hist := s.mod.hist.without (27 * 64) (43 * 64) } } else s

end Sys2Proof.Machine
end

