-- ==== Sys2Proof/Machine/PowerWork.lean ====
section
/-! DEFINITION. Sys2Proof/Machine/PowerWork.lean: what the commands do of the POWER and MODULE blocks (R625–R637, R640–R644, R657–R667). Voltages are in V. -/
namespace Sys2Proof.Machine

/-- One more input power loss that ran flush mode (R421). -/
def State.countLoss (s : State) : State :=
  if s.pwr.state.toNat < 2 && !s.pwr.off then { s with media := { s.media with unsafeShutdowns := s.media.unsafeShutdowns + 1 } } else s

/-- PWR_CTRL.DRILL holds 0x464C (R636, R637): without effect while a flush, the flushed state or a restart runs. -/
def State.drillKey (s : State) (v : BitVec 16) : State :=
  if v == 0x464C && s.pwr.state.toNat < 2 && !s.recovering then s.flushTrigger true false false else s

/-- MOD_LOCATE is written (R664, R666): the locate bits, and a lamp test of 3 s that begins again with each write of 1. -/
def State.modLocate (s : State) (v : Word) : State :=
  let s := { s with mod := { s.mod with locModule := v.getLsbD 0, locCarrier := BitVec.ofNat 8 (bitsOf v.toNat 15 8) } }
  if v.getLsbD 16 then { s with mod := { s.mod with lampUntil := s.time.up + 3000000000 } } else s

/-- MAX_CLR (R581, R586). -/
def State.maxClr (s : State) : State := { s with disp := { s.disp with max := s.disp.fill } }

end Sys2Proof.Machine
end

