-- ==== Sys2Proof/Machine/PowerCmds.lean ====
section
/-! DEFINITION. Sys2Proof/Machine/PowerCmds.lean: the commands of the POWER and MODULE blocks (R625–R637, R640–R644, R657–R667). Voltages are in V. -/
namespace Sys2Proof.Machine

/-- INPUT_LOW (R625). -/
def execInputLow (vin : BitVec 10) (s : State) : Res :=
  presented (vin.toNat < 700) <|
  let s := s.setVin vin
  if s.pwr.off || s.pwr.state != 0 then settled s
  else settled ({ s with pwr := { s.pwr with state := 1, errLow := true } }.reportPower 0 10 0)

/-- INPUT_LOW_END (R625). -/
def execInputLowEnd (vin : BitVec 10) (s : State) : Res :=
  presented (720 < vin.toNat) <|
  let s := s.setVin vin
  settled (if s.pwr.state == 1 then { s with pwr := { s.pwr with state := 0 } } else s)

/-- BUS_FLUSH_TRIGGER (R625, R627). While a flush runs it only tells that the bus is low. -/
def execBusFlushTrigger (vin : BitVec 10) (s : State) : Res :=
  presented (vin.toNat < 680) <|
  let s := s.setVin vin
  let s := { s with pwr := { s.pwr with returned := false } }
  settled (s.countLoss.flushTrigger false false true)

/-- PWR_FAIL (R643). -/
def execPwrFail (s : State) : Res :=
  let s := { s with pins := { s.pins with pwrFailN := false } }
  settled (s.countLoss.flushTrigger false false false)

/-- PWR_FAIL_RELEASE (R643): high for 100 ms. -/
def execPwrFailRelease (s : State) : Res := settled { s with pins := { s.pins with pwrFailN := true } }.afterFlush

/-- FLUSH_COMPLETE (R627). -/
def execFlushComplete (s : State) : Res := settled s.flushComplete

/-- BUS_COLLAPSE (R630). -/
def execBusCollapse (vin : BitVec 10) (s : State) : Res :=
  presented (vin.toNat ≤ 400) <|
  settled (s.setVin vin).collapse

/-- INPUT_RETURN (R630): above 740 V for 100 ms in a flush or in the flushed state. -/
def execInputReturn (vin : BitVec 10) (s : State) : Res :=
  presented (740 < vin.toNat) <|
  let s := s.setVin vin
  if s.pwr.off || s.pwr.state.toNat < 2 then settled s
  else settled { s with pwr := { s.pwr with returned := true } }.afterFlush

/-- CONVERTER_START (R640). -/
def execConverterStart (vin : BitVec 10) (s : State) : Res :=
  presented (740 < vin.toNat) <|
  settled (if s.pwr.off then (s.setVin vin).powerOn else s.setVin vin)

/-- BUS_HIGH (R640). -/
def execBusHigh (vin : BitVec 10) (s : State) : Res :=
  presented (870 < vin.toNat) <|
  let s := s.setVin vin
  if s.pwr.off then settled s
  else settled ({ s with mod := { s.mod with err := bput s.mod.err 5 true } }.reportPower 5 10 0)

/-- CARRIER_OVERCURRENT (R644): the output goes off and the carrier is failed. -/
def execCarrierOvercurrent (carrier : Fin 8) (s : State) : Res :=
  let c := carrier.val
  if s.pwr.off || !s.mod.kOn.getLsbD c then settled s
  else
    let s := { s with mod := { s.mod with kOn := bput s.mod.kOn c false, kOff := bput s.mod.kOff c true, kTrip := bput s.mod.kTrip c true, err := bput s.mod.err 3 true } }
    let s := s.reportPower 3 6 c
    match (s.carrier c).state with
    | .online | .rebuilding | .removal => settled ((s.loseCarrier c .failed).stagingFreed).smart
    | _ => settled ((s.setEn c false).setCar c .failed)

/-- CARRIER_POWER_EXCESS (R644): the carriers together drew `watts` over 1 s. -/
def execCarrierPowerExcess (watts : BitVec 8) (s : State) : Res :=
  presented (150 < watts.toNat) <|
  if s.pwr.off then settled s
  else settled ({ s with mod := { s.mod with cpwr := watts, err := bput s.mod.err 4 true } }.reportPower 4 10 0)

/-- THERMAL_SAMPLE (R423, R657–R660): the readings of sensors 0, 1, …, in order. -/
def execThermalSample (temps : List (BitVec 8)) (s : State) : Res :=
  presented (temps.length == 44) <|
  settled (s.thermalSample temps)

/-- THROTTLE_STEP (R658). -/
def execThrottleStep (s : State) : Res := settled s.throttleStep

/-- OE_COOL (R660). -/
def execOeCool (engine : Fin 8) (temp : BitVec 8) (s : State) : Res :=
  presented (temp.toInt ≤ 70) <|
  settled (s.engineCool engine.val temp)

/-- TEMPERATURE_HISTORY_SAVE (R423). -/
def execTemperatureHistorySave (s : State) : Res := settled s.saveHist

end Sys2Proof.Machine
end

