-- ==== Sys2Proof/Machine/RackCmds.lean ====
section
/-! DEFINITION. Sys2Proof/Machine/RackCmds.lean: the commands that change the tree of an index and give back what readers no longer see, and the durability
sweep and the trail writer (R118, R121–R132, R216, R620, R623). -/
namespace Sys2Proof.Machine

/-- RACKING (R122): the racking program racks a leaf when R121 calls for it. `place` lists the new version's header, body codes, delta codes,
delta metadata, tombstone map, fingerprints, page map, position map and recent-delete list. -/
def execRacking (part : Fin 32) (index : Fin 16) (leaf : BitVec 32) (place : List Nat) (pub node : Nat) (bad : List Nat) (s : State) : Res :=
  settled <| match s.rackCtx part.val index.val leaf.toNat, leafPlace place with
    | some (p, c), some q =>
      if !(q.ok p c.x && p.placeOk pub 16 16) then s
      else match s.decision p index.val c with
        | some (1, t) =>
          match s.rackLeaf p index.val c q pub node bad with
          | some s' => if t == 6 then s'.spendSix p index.val leaf.toNat else s'
          | none => s.readSurvivors p c.x (s.survivors p c.x c.l Stamp.ones)
        | _ => s
    | _, _ => s

/-- SPLIT (R125, R127). `nodes` lists interior table entries for the places of the new node versions, in the order the split makes them. -/
def execSplit (part : Fin 32) (index : Fin 16) (leaf : BitVec 32) (placeA placeB : List Nat) (pub : Nat) (nodes : List Nat) (fwd : Nat) (bad : List Nat)
    (s : State) : Res :=
  settled <| match s.rackCtx part.val index.val leaf.toNat, leafPlace placeA, leafPlace placeB with
    | some (p, c), some a, some b =>
      if !(a.ok p c.x && b.ok p c.x && p.placeOk pub 16 16 && p.placeOk fwd 64 64) then s
      else match s.decision p index.val c with
        | some (2, _) => (s.split p index.val c a b pub nodes fwd bad).getD s
        | _ => s
    | _, _, _ => s

/-- MERGE (R126, R127). -/
def execMergeLeaf (part : Fin 32) (index : Fin 16) (leaf : BitVec 32) (place : List Nat) (pub : Nat) (nodes : List Nat) (fwdA fwdB : Nat) (bad : List Nat)
    (s : State) : Res :=
  settled <| match s.rackCtx part.val index.val leaf.toNat, leafPlace place with
    | some (p, c), some q =>
      if !(q.ok p c.x && p.placeOk pub 16 16 && p.placeOk fwdA 64 64 && p.placeOk fwdB 64 64) then s
      else match s.decision p index.val c with
        | some (3, _) => (s.merge p index.val c q pub nodes fwdA fwdB bad).getD s
        | _ => s
    | _, _ => s

/-! ### The read floor (R118) -/

/-- READ_FLOOR_SWEEP (R118): once a millisecond. -/
def execReadFloorSweep (part : Fin 32) (s : State) : Res :=
  settled <| match s.part? part.val with
    | none => s
    | some p => if s.works p.num then s.floorSweep p else s

/-! ### Sweep images and the trail (R620, R623) -/

/-- DURABILITY_SWEEP (R620) of one leaf, or of an index with leaf 0xFFFF_FFFF. An object whose append lock is held waits (R619). -/
def execDurabilitySweep (part : Fin 32) (index : Fin 16) (leaf : BitVec 32) (s : State) : Res :=
  settled <| match s.part? part.val with
    | none => s
    | some p =>
      match s.desc? p index.val with
      | none => s
      | some x =>
        let id := leaf.toNat
        if !s.canPublish || !s.sweepDue p.num index.val id || s.leafLocked p.num index.val id then s
        else if id == 0xFFFFFFFF then s.sweepImage p index.val id x 6 (s.indexSweep p index.val x)
        else match s.curLeaf p x id with
          | some l => s.sweepImage p index.val id x 5 (s.leafSweep p x l)
          | none => s

/-- TRAIL_WRITE (R623). When the trail would overwrite a record that the sweep still needs, the horizon in force is halved. -/
def execTrailWrite (s : State) : Res :=
  settled <|
    if !s.storageUp then s
    else
      let s := if s.trailBytes > 64 * 10 ^ 9 then
          { s with pwr := { s.pwr with errTrail := true, horizonUsed := s.pwr.horizonUsed / 2 } }
        else s
      let s := (lateSeals s.dur.journal).foldl (fun (s : State) (r : JRec) =>
        let (n, s) := s.journal 0x07 r.part r.objKind 0 r.obj (toLE 8 r.seq ++ zeros 8)
        s.sealRec n (r.sealed.getD Stamp.zero)) s
      let s := { s with dur := { s.dur with journal := (trailRun s.time.up s.dur.journal.reverse).reverse } }
      s.retryUpdates.kick

end Sys2Proof.Machine
end

