-- ==== Sys2Proof/Machine/Refinement.lean ====
section
/-! DEFINITION. Sys2Proof/Machine/Refinement.lean: index refinement: records, samples, rounds, evaluation, codebook publication and recentring
(R320–R343). FP32 values are bit patterns; the training state lies in partition memory as R328 lays it out. -/
namespace Sys2Proof.Machine
open Fmt (fp32)

/-! ### The record (R321, R322) -/

/-- The fields of a refinement record that a round uses. -/
structure Rfn where
  queue : Nat
  area : Nat
  accCap : Nat
  acc : Nat
  postCap : Nat
  post : Nat
  cmd : Nat
  shift : Nat
  batch : Nat
  window : Nat
  step : Nat
  b1 : Nat
  b2 : Nat
  eps : Nat
  eval : Nat
  gain : Nat
  gen : Nat
  move : Nat
  interval : Nat
  minN : Nat
  maxN : Nat
  state : Nat
  round : Nat
  t0 : Nat
  lastPub : Stamp
  deriving DecidableEq, Repr

def parseRfn (b : Bytes) : Rfn :=
  { queue := fieldAt b 6 2, area := fieldAt b 8 8, accCap := fieldAt b 0x14 4, acc := fieldAt b 0x18 8, postCap := fieldAt b 0x20 4, post := fieldAt b 0x28 8,
    cmd := fieldAt b 0xC0 1, shift := fieldAt b 0xC1 1, batch := fieldAt b 0xC2 2, window := fieldAt b 0xC4 2, step := fieldAt b 0xC6 1, b1 := fieldAt b 0xC7 1,
    b2 := fieldAt b 0xC8 1, eps := fieldAt b 0xC9 1, eval := fieldAt b 0xCA 2, gain := fieldAt b 0xCC 2, gen := fieldAt b 0xCE 1, move := fieldAt b 0xCF 1,
    interval := fieldAt b 0xD0 4, minN := fieldAt b 0xD6 2, maxN := fieldAt b 0xD8 2, state := fieldAt b 0x100 1, round := fieldAt b 0x104 4,
    t0 := fieldAt b 0x108 8, lastPub := stampAt b 0x118 }

def State.rfn (s : State) (p : Part) (n : Nat) : Rfn := parseRfn (s.pmRead p (refineAt n) 512)

/-- Every control field lies in its range (R321). -/
def Rfn.controlOk (r : Rfn) : Bool :=
  r.cmd ≤ 7 && r.shift ≤ 16 && 256 ≤ r.batch && r.batch ≤ 4096 && r.batch % 256 == 0 && 10 ≤ r.window && r.window ≤ 60000 && 1 ≤ r.step && r.step ≤ 24 &&
    1 ≤ r.b1 && r.b1 ≤ 8 && 2 ≤ r.b2 && r.b2 ≤ 16 && 8 ≤ r.eps && r.eps ≤ 40 && 1 ≤ r.eval && r.eval ≤ 1000 && r.gain ≤ 1023 && 1 ≤ r.gen && r.gen ≤ 7 &&
    1 ≤ r.move && r.interval ≤ 604800 && 16 ≤ r.minN && r.minN ≤ 4096 && r.minN ≤ r.maxN

/-- Write a field of the record. -/
def State.rfnSet (s : State) (p : Part) (n o z v : Nat) : State := s.pmSet p (refineAt n + o) z v

/-- Add to a counter of the status block. -/
def State.rfnAdd (s : State) (p : Part) (n o z v : Nat) : State := s.rfnSet p n o z (s.pmNum p (refineAt n + o) z + v)

/-! ### The training area (R328) -/

/-- Dimensions of a subspace. -/
def Desc.width (x : Desc) (sub : Nat) : Nat := subLo x.dim x.m (sub + 1) - subLo x.dim x.m sub

/-- Bytes of one copy, rounded up. -/
def Desc.copyBytes (x : Desc) : Nat := alignUp (4 * x.k * x.dim + x.k * (2 * x.m + 2 * x.dim)) 64

def copyAt (r : Rfn) (x : Desc) (c : Nat) : Nat := r.area + 0x40 + c * x.copyBytes

/-- Where the master values of a centroid row lie, and its row record. -/
def masterAt (r : Rfn) (x : Desc) (c sub j : Nat) : Nat := copyAt r x c + 4 * (x.k * subLo x.dim x.m sub + j * x.width sub)
def rowRecAt (r : Rfn) (x : Desc) (c sub j : Nat) : Nat :=
  copyAt r x c + 4 * x.k * x.dim + x.k * (2 * sub + 2 * subLo x.dim x.m sub) + j * (2 + 2 * x.width sub)

/-- The codebook store's region of a slot. -/
def cbStoreAt (r : Rfn) (x : Desc) (slot : Nat) : Nat := r.area + 0x40 + 2 * x.copyBytes + slot * (2 * x.k * x.dim)

/-- The copy that the commit word names. -/
def State.committed (s : State) (p : Part) (r : Rfn) : Nat := b2n ((s.pmNum p r.area 8).testBit 32)

/-- Words of 4 bytes. -/
def words4 (b : Bytes) (n : Nat) : List Nat := (List.range n).map fun i => fieldAt b (4 * i) 4

def State.masterRow (s : State) (p : Part) (r : Rfn) (x : Desc) (c sub j : Nat) : List Nat :=
  words4 (s.pmRead p (masterAt r x c sub j) (4 * x.width sub)) (x.width sub)

/-- A centroid row as a codebook holds it: BF16 of the master (R329). -/
def State.candRow (s : State) (p : Part) (r : Rfn) (x : Desc) (c sub j : Nat) : List Nat := (s.masterRow p r x c sub j).map fun v => bf2f (f2bf v)

/-- Set the master copy to a codebook slot and the moments to 0 (R322, R341). -/
def State.loadMaster (s : State) (p : Part) (r : Rfn) (x : Desc) (c slot : Nat) : State :=
  let data := (s.cbSlot p x slot).data
  (List.range x.m).foldl (fun (s : State) sub => (List.range x.k).foldl (fun (s : State) j =>
    let v := s.centroid p data x.dim x.m x.k sub j
    (s.pmWrite p (masterAt r x c sub j) ((v.map (toLE 4)).flatten)).pmWrite p (rowRecAt r x c sub j) (zeros (2 + 2 * x.width sub))) s) s

/-! ### Samples (R323–R327) -/

/-- The fields of a sample. -/
def RefSample.leaf (m : RefSample) : Nat := fieldAt m.data 4 4
def RefSample.vid (m : RefSample) : Nat := fieldAt m.data 8 6
def RefSample.hash (m : RefSample) : Nat := crc32c (toLE 6 m.vid ++ m.ack.bytes)

/-- Put a sample into a list in ack stamp order. -/
def insSample (m : RefSample) : List RefSample → List RefSample
  | [] => [m]
  | x :: r => if m.ack.before x.ack then m :: x :: r else x :: insSample m r

/-- The window of an ack stamp (R325): none before T0. -/
def Rfn.windowOf (r : Rfn) (a : Stamp) : Option Nat :=
  if a.time.toNat < r.t0 then none else some ((a.time.toNat - r.t0) / (r.window * 1000000))

/-- A sample reaches the program (R325, R326). -/
def State.takeSample (s : State) (p : Part) (n : Nat) (b : Bytes) : State :=
  let r := s.rfn p n
  let m : RefSample := { part := p.num, index := n, ack := stampAt b 0x10, data := b }
  let listed (x : ReplayRec) : Bool := x.part == p.num && x.typ == 0x0A && x.body.take 12 == m.ack.bytes
  let late : Bool := if s.replaying p.num then s.cask.todo.any listed
    else r.state != 1 || match r.windowOf m.ack with
      | none => true
      | some w => w < s.refn.win.get 0 (p.num * 16 + n)
  if late then
    let s := (s.rfnAdd p n 0x130 8 1).caskRec 0x0A p.num 0xFFFF (m.ack.bytes ++ zeros 4)
    if s.replaying p.num then { s with cask := { s.cask with todo := s.cask.todo.eraseP listed } } else s
  else if bitsOf m.hash (r.shift + 3) r.shift == 0 then
    let mine := s.refn.reservoir.filter fun y => y.part == p.num && y.index == n
    let res := if mine.length ≥ 16384 then (match mine with | o :: _ => s.refn.reservoir.erase o | [] => s.refn.reservoir) else s.refn.reservoir
    { s with refn := { s.refn with reservoir := insSample m res } }
  else { s with refn := { s.refn with samples := insSample m s.refn.samples } }

/-- A sample with its leaf's version at the round stamp: the residual and the centroid's bytes (R327). -/
structure Resid where
  smp : RefSample
  r : List Nat
  cent : Bytes
  deriving DecidableEq, Repr

def State.resid (s : State) (p : Part) (x : Desc) (at_ : Stamp) (m : RefSample) : Option Resid :=
  if leState (s.leafEntry p x m.leaf) == 2 then none
  else match s.reachLeaf p x m.leaf at_ with
    | .found l =>
      let c := s.leafCent p x l.at_
      let v := x.vec (elemsOf x.etype (m.data.drop 0x20) x.dim)
      some { smp := m, r := List.zipWith sub32 v c, cent := s.pmRead p (l.at_ + 256) (2 * x.dim) }
    | _ => none

/-- The part of a vector that a subspace covers. -/
def Desc.sub (x : Desc) (sub : Nat) (v : List Nat) : List Nat := (v.drop (subLo x.dim x.m sub)).take (x.width sub)

/-- 2^k as FP32. -/
def pow32 (k : Int) : Nat := fofInt fp32 1 k

/-! ### A round (R329, R330) -/

/-- The gradient of one centroid row: the residuals assigned to it, quantised under e_R. -/
def gradRow (master : List Nat) (b : Nat) (eR : Int) (mine : List (List Int)) : List Nat :=
  (List.zipIdx master).map fun (w, d) =>
    let n := mine.length
    let sum : Int := (mine.map fun q => nth q d 0).sum
    let a := mul32 (int32f n) w
    div32 (sub32 a (fofInt fp32 sum eR)) (int32f b)

/-- Update one centroid row from the committed copy (R330): the new master values, and the row record. -/
def updateRow (r : Rfn) (master g : List Nat) (rec_ : Bytes) : List Nat × Bytes :=
  let w := master.length
  let em := byteInt (fieldAt rec_ 0 1)
  let ev := byteInt (fieldAt rec_ 1 1)
  let eg := scale32Of 127 g
  let one := int32f 1
  let beta (k : Nat) : Nat := sub32 one (pow32 (-(k : Int)))
  let rows : List (Nat × Nat × Nat) := (List.range w).map fun d =>
    let gd := fofInt fp32 (quant32 (nth g d 0) eg (-127) 127) eg
    let m := fofInt fp32 (byteInt (fieldAt rec_ (2 + d) 1)) em
    let v := fofInt fp32 (fieldAt rec_ (2 + w + d) 1) ev
    let mf := add32 (mul32 (beta r.b1) m) (mul32 (sub32 one (beta r.b1)) gd)
    let vf := add32 (mul32 (beta r.b2) v) (mul32 (sub32 one (beta r.b2)) (mul32 gd gd))
    let den := add32 (fsqrt fp32 vf) (pow32 (-(r.eps : Int)))
    (sub32 (nth master d 0) (mul32 (pow32 (-(r.step : Int))) (div32 mf den)), mf, vf)
  let em' := scale32Of 127 (rows.map fun y => y.2.1)
  let ev' := scale32Of 255 (rows.map fun y => y.2.2)
  (rows.map fun y => y.1,
   [intByte em', intByte ev'] ++ (rows.map fun y => intByte (quant32 y.2.1 em' (-127) 127)) ++ rows.map fun y => BitVec.ofInt 8 (quant32 y.2.2 ev' 0 255))

/-- Train one subspace: from the committed copy into the other. -/
def State.trainSub (s : State) (p : Part) (x : Desc) (r : Rfn) (rs : List Resid) (sub : Nat) : State :=
  let c := s.committed p r
  let cand := (List.range x.k).map (s.candRow p r x c sub)
  let parts := rs.map fun e => x.sub sub e.r
  let assign := parts.map fun v => leastAt (cand.map (sqErr v))
  let eR := scale32Of 127 parts.flatten
  let q := parts.map fun v => v.map fun y => quant32 y eR (-127) 127
  (List.range x.k).foldl (fun (s : State) j =>
    let master := s.masterRow p r x c sub j
    let rec_ := s.pmRead p (rowRecAt r x c sub j) (2 + 2 * x.width sub)
    let (m, rec_) := if rs.isEmpty then (master, rec_)
      else updateRow r master (gradRow master rs.length eR (((assign.zip q).filter (·.1 == j)).map fun e => e.2)) rec_
    (s.pmWrite p (masterAt r x (1 - c) sub j) ((m.map (toLE 4)).flatten)).pmWrite p (rowRecAt r x (1 - c) sub j) rec_) s

/-- Run the round over its residuals and commit it (R331). -/
def State.trainRound (s : State) (p : Part) (n : Nat) (x : Desc) (r : Rfn) (rs : List Resid) : State :=
  let c := s.committed p r
  let s := (List.range x.m).foldl (fun (s : State) sub => s.trainSub p x r rs sub) s
  let s := s.pmSet p r.area 8 (r.round % 2 ^ 32 + (if c == 0 then 2 ^ 32 else 0))
  (s.rfnSet p n 0x104 4 (r.round + 1)).rfnAdd p n 0x128 8 rs.length

/-! ### Recentring (R336–R340) -/

def accBytes (x : Desc) : Nat := alignUp (32 + 4 * x.dim) 64

/-- Add a used sample to its leaf's accumulator (R337). -/
def State.accumulate (s : State) (p : Part) (x : Desc) (r : Rfn) (e : Resid) : State :=
  let (have_, free) := s.findEntry p r.acc (accBytes x) r.accCap e.smp.leaf
  let chk := crc32c e.cent
  let slot : Option (Nat × Bool) := match have_ with | some a => some (a, true) | none => free.map fun a => (a, false)
  match slot with
  | none => s
  | some (a, old) =>
    let last := stampAt (s.pmRead p (a + 0x10) 12) 0
    if old && !last.before e.smp.ack then s
    else
      let keep := old && s.pmNum p (a + 8) 4 == chk
      let cnt := if keep then s.pmNum p (a + 4) 2 else 0
      let spread := if keep then s.pmNum p (a + 0xC) 4 else f32zero
      let sum := if keep then words4 (s.pmRead p (a + 0x20) (4 * x.dim)) x.dim else List.replicate x.dim f32zero
      s.pmWrite p a (toLE 4 e.smp.leaf ++ toLE 2 (cnt + 1) ++ zeros 2 ++ toLE 4 chk ++ toLE 4 (add32 spread (acc32 (e.r.map fun v => mul32 v v))) ++
        e.smp.ack.bytes ++ zeros 4 ++ ((List.zipWith add32 sum e.r).map (toLE 4)).flatten)

/-- Write a post (R339): where no entry is free within 32 probes it is discarded and counted. True when it was written. -/
def State.writePost (s : State) (p : Part) (n : Nat) (x : Desc) (r : Rfn) (leaf : Nat) (c : Bytes) : Bool × State :=
  let (have_, free) := s.findEntry p r.post 32 r.postCap leaf
  match (match have_ with | some a => some a | none => free) with
  | none => (false, s.rfnAdd p n 0x144 4 1)
  | some a =>
    let (st, s) := s.partStamp p.num
    let i := (a - r.post) / 32
    let s := s.pmWrite p (r.post + 32 * r.postCap + i * alignUp (2 * x.dim) 64) c
    (true, (s.pmWrite p a (toLE 4 leaf ++ zeros 4 ++ st.bytes ++ zeros 12)).rfnAdd p n 0x140 4 1)

/-- What the end of a round does with one tracked leaf (R338). -/
def State.recentre (s : State) (p : Part) (n : Nat) (x : Desc) (r : Rfn) (at_ : Stamp) (a leaf : Nat) : State :=
  let live : Option Leaf := if leState (s.leafEntry p x leaf) == 1 then (match s.reachLeaf p x leaf at_ with | .found l => some l | _ => none) else none
  match live with
  | none => s.pmSet p a 4 0xFFFFFFFF
  | some l =>
    let cnt := s.pmNum p (a + 4) 2
    if cnt < r.minN then s
    else
      let nf := int32f cnt
      let mu := (words4 (s.pmRead p (a + 0x20) (4 * x.dim)) x.dim).map fun v => div32 v nf
      let shift := acc32 (mu.map fun v => mul32 v v)
      let mean := div32 (s.pmNum p (a + 0xC) 4) nf
      if !lt32 (mul32 shift (int32f 1024)) (mul32 (int32f r.move) mean) && !fisNan fp32 shift && !fisNan fp32 mean then
        if s.leafLocked p.num n leaf then s
        else
          let (ok, s) := s.writePost p n x r leaf (centBytes (List.zipWith add32 (s.leafCent p x l.at_) mu))
          if ok then s.pmSet p a 4 0xFFFFFFFF else s
      else if cnt ≥ r.maxN then s.pmSet p a 4 0xFFFFFFFF
      else s

/-- Tracked leaves with their entries, by ascending leaf id. -/
def State.tracked (s : State) (p : Part) (x : Desc) (r : Rfn) : List (Nat × Nat) :=
  let es := (List.range r.accCap).filterMap fun i =>
    let a := r.acc + i * accBytes x
    let id := s.pmNum p a 4
    if id == 0xFFFFFFFF then none else some (a, id)
  es.foldl (fun l e => let rec ins : List (Nat × Nat) → List (Nat × Nat)
    | [] => [e]
    | y :: t => if e.2 < y.2 then e :: y :: t else y :: ins t
    ins l) []

/-- Empty the posts of leaves that are not live (R340). -/
def State.prunePosts (s : State) (p : Part) (x : Desc) (r : Rfn) : State :=
  (List.range r.postCap).foldl (fun (s : State) i =>
    let a := r.post + 32 * i
    let id := s.pmNum p a 4
    if id != 0xFFFFFFFF && leState (s.leafEntry p x id) != 1 then s.pmSet p a 4 0xFFFFFFFF else s) s

/-! ### Evaluation and publication (R332–R334) -/

/-- The loss of residuals against a codebook given by its rows; none with fewer than 256. -/
def lossOf (x : Desc) (row : Nat → Nat → List Nat) (rs : List Resid) : Option Nat :=
  if rs.length < 256 then none
  else
    let one (e : Resid) : Nat := sum32 ((List.range x.m).map fun sub =>
      let errs := (List.range x.k).map fun j => sqErr (x.sub sub e.r) (row sub j)
      nth errs (leastAt errs) f32zero)
    some (div32 (sum32 (rs.map one)) (int32f rs.length))

/-- Publish the candidate into the lowest free slot (R334); none where no slot is free or its image cannot be written. -/
def State.publishCodebook (s : State) (p : Part) (n : Nat) (x : Desc) (r : Rfn) : Option State :=
  match (List.range 8).find? fun j => (s.cbSlot p x j).state == 0 with
  | none => none
  | some j =>
    let c := s.committed p r
    let data := ((List.range x.m).flatMap fun sub => (List.range x.k).flatMap fun k => (s.masterRow p r x c sub k).flatMap fun v => toLE 2 (f2bf v))
    let (st, s) := s.partStamp p.num
    let at_ := cbStoreAt r x j
    let s := s.pmWrite p at_ data
    let slot := [0] ++ toLE 1 x.layout ++ zeros 2 ++ toLE 4 0 ++ st.bytes ++ zeros 4 ++ toLE 8 at_
    let s := s.pmWrite p (x.cbT + 32 * j) slot
    match s.writeImage p x.ext 1 n 7 j st s.dur.nextSeq [(false, at_, data), (false, x.cbT + 32 * j, patch slot 0 [1])] with
    | none => none
    | some (im, s) =>
      let (seq, s) := s.journal 0x06 p.num 1 0 n (toLE 1 j ++ zeros 7 ++ toLE 5 (im.pages.headD 0) ++ toLE 2 im.pages.length ++ zeros 1)
      let s := s.sealRec seq st
      let s := s.pmSet p (x.cbT + 32 * j) 1 1
      let s := (s.rfnSet p n 0x101 1 j).pmWrite p (refineAt n + 0x118) st.bytes
      some (s.rfnAdd p n 0x124 4 1)

/-- Evaluate after a commit (R332, R333). -/
def State.evaluate (s : State) (p : Part) (n : Nat) (x : Desc) (r : Rfn) (at_ : Stamp) : State :=
  let rs := (s.refn.reservoir.filter fun m => m.part == p.num && m.index == n).filterMap (s.resid p x at_)
  match s.newestCb p x with
  | none => s
  | some ref =>
    let data := (s.cbSlot p x ref).data
    let c := s.committed p r
    match lossOf x (s.centroid p data x.dim x.m x.k) rs, lossOf x (s.candRow p r x c) rs with
    | some lr, some lc =>
      let s := (s.rfnSet p n 0x110 4 lr).rfnSet p n 0x114 4 lc
      let lim := mul32 lr (sub32 (int32f 1) (fofInt fp32 r.gain (-10)))
      let passes := !lt32 lim lc && !fisNan fp32 lc && !fisNan fp32 lim
      let quiet := r.lastPub == Stamp.zero || r.lastPub.time.toNat + r.interval * 10 ^ 9 ≤ s.rack
      let inUse := ((List.range 8).filter fun j => (s.cbSlot p x j).state != 0).length
      if !passes then s
      else if quiet && inUse < r.gen && s.canPublish then
        match s.publishCodebook p n x r with
        | some s' => s'
        | none => s.rfnAdd p n 0x148 4 1
      else s.rfnAdd p n 0x148 4 1
    | _, _ => s

/-! ### The round boundary (R322, R325) -/

/-- Take the command at a round boundary. -/
def State.refCommand (s : State) (p : Part) (n : Nat) (x : Desc) (r : Rfn) : State :=
  let key := p.num * 16 + n
  let s := if r.cmd == 0 then s else s.rfnSet p n 0xC0 1 0
  match r.cmd with
  | 1 =>
    if r.state == 0 then
      let s := (((s.rfnSet p n 0x100 1 1).rfnSet p n 0x108 8 s.rack).rfnSet p n 0x104 4 0)
      let s := { s with refn := { s.refn with win := s.refn.win.set 0 key 0 } }
      if s.refn.trained.contains key then s
      else match s.newestCb p x with
        | some c =>
          let s := (s.pmSet p r.area 8 0).loadMaster p r x 0 c
          { s with refn := { s.refn with trained := insNat s.refn.trained key } }
        | none => s
    else if r.state == 2 then
      let s := s.rfnSet p n 0x100 1 1
      { s with refn := { s.refn with win := s.refn.win.set 0 key ((s.rack - r.t0) / (r.window * 1000000)) } }
    else s
  | 2 => if r.state == 1 then s.rfnSet p n 0x100 1 2 else s
  | 3 => s.rfnSet p n 0x100 1 0
  | 4 =>
    match s.newestCb p x with
    | some c =>
      let s := s.loadMaster p r x (s.committed p r) c
      { s with refn := { s.refn with trained := insNat s.refn.trained key } }
    | none => s
  | 5 => { s with refn := { s.refn with evalNow := insNat s.refn.evalNow key } }
  | _ => s

/-- Refinement of an index fails: State 3 (R322). -/
def State.refFail (s : State) (p : Part) (n : Nat) : State := s.rfnSet p n 0x100 1 3

/-- The round of the next window: the clock moves up to its beginning, 2 ms after the window's end (R325). -/
def State.refRound (s : State) (p : Part) (n : Nat) (x : Desc) (r : Rfn) : State :=
  let key := p.num * 16 + n
  let w := s.refn.win.get 0 key
  let win := r.window * 1000000
  let s := s.advanceToRack (r.t0 + (w + 1) * win + 2000000)
  let (at_, s) := s.partStamp p.num
  let mine (m : RefSample) : Bool := m.part == p.num && m.index == n
  let inWin := s.refn.samples.filter fun m => mine m && r.windowOf m.ack == some w
  let used := (inWin.take r.batch).filterMap (s.resid p x at_)
  let s := { s with refn := { s.refn with win := s.refn.win.set 0 key (w + 1),
                                          samples := s.refn.samples.filter fun m => !(mine m && (match r.windowOf m.ack with | some v => v ≤ w | none => true)) } }
  let s := s.rfnAdd p n 0x138 8 (inWin.length - used.length)
  let s := s.trainRound p n x r used
  let s := used.foldl (fun (s : State) e => s.accumulate p x r e) s
  let s := (s.tracked p x r).foldl (fun (s : State) e => s.recentre p n x r at_ e.1 e.2) s
  let s := s.prunePosts p x r
  if (r.round + 1) % r.eval == 0 || s.refn.evalNow.contains key then
    let s := { s with refn := { s.refn with evalNow := s.refn.evalNow.filter (· != key) } }
    s.evaluate p n x (s.rfn p n) at_
  else s

/-- A round boundary of an index (R322): the record's checks, the command, and the round that is due. -/
def State.refBoundary (s : State) (p : Part) (n : Nat) : State :=
  if p.memBytes < 0x100003000 || s.pmNum p (refineAt n + 0x100) 1 == 3 then s
  else if !s.refineOk p n then
    (s.refFail p n).report { cls := 1, part := p.num, kind := 8, unit := p.num, loc := refineAt n, detail := n }
  else
    let r := s.rfn p n
    if !r.controlOk then s.refFail p n
    else match s.desc? p n with
      | none => s
      | some x =>
        let s := s.refCommand p n x r
        let r' := s.rfn p n
        -- a run from off or from paused starts a window; its round comes at a later boundary
        if r'.state == 1 && r.state == 1 && s.canStamp then s.refRound p n x r' else s

end Sys2Proof.Machine
end

