-- ==== Sys2Proof/Machine/RefWork.lean ====
section
/-! DEFINITION. Sys2Proof/Machine/RefWork.lean: what the commands do of index refinement (R322–R326, R342, R343). -/
namespace Sys2Proof.Machine

/-- The record that REF_SEL names is valid and its partition runs: NO_RECORD is 0 (R342). -/
def State.refSel (s : State) : Option (Part × Nat) :=
  match s.part? s.refn.selPart.toNat with
  | some p => if s.works p.num && s.refineOk p s.refn.selIndex.toNat then some (p, s.refn.selIndex.toNat) else none
  | none => none

/-- A non-zero REF_CMD write goes to the command byte of the selected record (R342, R343). -/
def State.refCmd (s : State) (v : Nat) : State :=
  match s.refSel with
  | some (p, n) => if v % 8 == 0 then s else s.rfnSet p n 0xC0 1 (v % 8)
  | none => s

end Sys2Proof.Machine
end

