-- ==== Sys2Proof/Machine/RefCmds.lean ====
section
/-! DEFINITION. Sys2Proof/Machine/RefCmds.lean: the commands of index refinement (R322–R326, R342, R343). -/
namespace Sys2Proof.Machine

/-- REFINEMENT_ROUND (R329): a round boundary of an index's refinement. -/
def execRefinementRound (part : Fin 32) (index : Fin 16) (s : State) : Res :=
  settled <| match s.part? part.val with
    | some p => if s.works p.num then s.refBoundary p index.val else s
    | none => s

/-- SAMPLE_ARRIVAL (R325): the refinement program takes the oldest entry of a sample queue. -/
def execSampleArrival (part : Fin 32) (queue : BitVec 16) (s : State) : Res :=
  settled <| match s.part? part.val with
    | none => s
    | some p =>
      match p.queueDef? queue.toNat with
      | none => s
      | some q =>
        match (s.queue p.num q.id).oldest with
        | none => s
        | some e =>
          let n := fieldAt (s.slotRead p q e.slot) 1 1
          if !s.works p.num || q.kind != 3 || fieldAt (s.slotRead p q e.slot) 0 1 != 1 || n ≥ 16 || !s.refineOk p n || (s.rfn p n).queue != q.id then s
          else match s.unitTake p q with
            | some (_, b, s) => s.takeSample p n b
            | none => s

end Sys2Proof.Machine
end

