-- ==== Sys2Proof/Machine/RegMap.lean ====
section
/-! DEFINITION. Sys2Proof/Machine/RegMap.lean: the block map of BAR0 and the register tables: which windows are blocks (R574), which words of a
block are registers, and the access type of each bit (R9). -/
namespace Sys2Proof.Machine

/-- What a 64 KiB window of BAR0 holds (R574); per-unit blocks with their unit. -/
inductive Block where
  | nvme | msixTable | msixPba
  | system | host | grist | clock | reset | dispatch | compose | meter | refine | flash | fabric | fault | cask | power | module
  | memory (k : Nat)
  | tile (t : Nat)
  | gather (t : Nat)
  | matrix (t : Nat)
  deriving DecidableEq, Repr

/-- The hub blocks in the order of their windows, from 0x0004_0000 on. -/
def hubBlocks : List Block :=
  [.system, .host, .grist, .clock, .reset, .dispatch, .compose, .meter, .refine, .flash, .fabric, .fault, .cask, .power, .module]

/-- The block of a BAR0 offset, none in an unmapped window (R574). -/
def windowBlock (off : Nat) : Option Block :=
  let w := off / 65536
  if w = 0 then some .nvme
  else if w = 1 then some .msixTable
  else if w = 2 then some .msixPba
  else if w = 3 then none
  else if w < 19 then hubBlocks[w - 4]?
  else if w < 32 then none
  else if w < 48 then some (.memory (w - 32))
  else if w < 64 then none
  else if w < 160 then some (.tile (w - 64))
  else if w < 256 then some (.gather (w - 160))
  else if w < 352 then some (.matrix (w - 256))
  else none

/-- The bits of a register by access type (R9): read and write (RWL included), write-only actions, bits that a write of 1 clears or sets (W1C,
LOCK), and read-only. A bit in none of them is reserved. -/
structure RegBits where
  rw : Nat := 0
  wo : Nat := 0
  w1 : Nat := 0
  ro : Nat := 0
  deriving DecidableEq, Repr

/-- A run of registers of one shape: first and last offset. -/
structure RegRow where
  first : Nat
  last : Nat
  bits : RegBits
  deriving DecidableEq, Repr

/-- The SYSTEM block (R580). -/
def systemRegs : List RegRow :=
  [⟨0x000, 0x000, ⟨0, 0, 0, 0xFFFFFFFF⟩⟩, ⟨0x004, 0x004, ⟨0, 0, 0, 0xFFFFFFFF⟩⟩, ⟨0x008, 0x008, ⟨0, 0, 0, 0xFFFFFFFF⟩⟩,
   ⟨0x00C, 0x00C, ⟨0, 0, 0, 0xFFFFFFFF⟩⟩, ⟨0x010, 0x010, ⟨0, 0, 0, 0xFFFFFFFF⟩⟩, ⟨0x014, 0x014, ⟨0, 0, 0x7, 0⟩⟩,
   ⟨0x018, 0x018, ⟨0, 0, 0, 0xFFFFFFF⟩⟩, ⟨0x01C, 0x01C, ⟨0xFFFFFFFF, 0, 0, 0⟩⟩]

/-- The HOST block (R538). -/
def hostRegs : List RegRow :=
  [⟨0x000, 0x000, ⟨0, 0, 0, 0x3FF⟩⟩, ⟨0x004, 0x004, ⟨0, 0, 0, 0x3FF⟩⟩, ⟨0x008, 0x008, ⟨0, 0, 0x1F, 0⟩⟩,
   ⟨0x00C, 0x00C, ⟨0, 0, 0, 0x3FFF⟩⟩, ⟨0x010, 0x010, ⟨0, 0, 0, 0xFFFFFFFF⟩⟩, ⟨0x014, 0x014, ⟨0, 0, 0, 0xFFFFFFFF⟩⟩]

/-- The GRIST block (R83). -/
def gristRegs : List RegRow :=
  [⟨0x000, 0x000, ⟨0xFF0E, 0x1, 0, 0⟩⟩, ⟨0x004, 0x004, ⟨0, 0, 0x8, 0xFFFFFF77⟩⟩, ⟨0x008, 0x008, ⟨0, 0, 0, 0xFFFFFFFF⟩⟩,
   ⟨0x00C, 0x00C, ⟨0, 0, 0, 0xFFFFFFFF⟩⟩, ⟨0x010, 0x010, ⟨0xFFFFFFFF, 0, 0, 0⟩⟩, ⟨0x014, 0x014, ⟨0xFFFFFFFF, 0, 0, 0⟩⟩,
   ⟨0x018, 0x018, ⟨0xFFFFFFFF, 0, 0, 0⟩⟩, ⟨0x01C, 0x01C, ⟨0xFFFF, 0, 0x80000000, 0⟩⟩, ⟨0x020, 0x020, ⟨0, 0, 0xF, 0⟩⟩,
   ⟨0x040, 0x06C, ⟨0, 0, 0, 0xFFFFFFFF⟩⟩, ⟨0x070, 0x070, ⟨0x1F, 0, 0, 0⟩⟩, ⟨0x080, 0x0AC, ⟨0, 0, 0, 0xFFFFFFFF⟩⟩]

/-- The CLOCK block (R563). -/
def clockRegs : List RegRow :=
  [⟨0x000, 0x000, ⟨0, 0, 0x18, 0x27⟩⟩, ⟨0x004, 0x004, ⟨0, 0, 0, 0xF⟩⟩, ⟨0x008, 0x008, ⟨0xFF, 0, 0, 0⟩⟩,
   ⟨0x00C, 0x00C, ⟨0xF, 0, 0, 0x1F00⟩⟩, ⟨0x010, 0x010, ⟨0, 0, 0x7, 0xFF00⟩⟩, ⟨0x014, 0x014, ⟨0x7FF, 0, 0, 0⟩⟩,
   ⟨0x018, 0x018, ⟨0x1, 0, 0, 0x6⟩⟩, ⟨0x01C, 0x01C, ⟨0, 0, 0x1, 0x7FF0000⟩⟩]

/-- The RESET block (R564). -/
def resetRegs : List RegRow :=
  [⟨0x000, 0x000, ⟨0x1F0F7F00, 0x3, 0, 0⟩⟩, ⟨0x004, 0x004, ⟨0, 0xFFFF, 0, 0⟩⟩, ⟨0x008, 0x008, ⟨0, 0, 0x4, 0x3⟩⟩,
   ⟨0x00C, 0x00C, ⟨0, 0, 0, 0xF⟩⟩, ⟨0x010, 0x010, ⟨0, 0, 0, 0xFFFFFFFF⟩⟩]

/-- The DISPATCH block (R581). -/
def dispatchRegs : List RegRow :=
  [⟨0x000, 0x000, ⟨0, 0, 0, 0xFFFFFFFF⟩⟩, ⟨0x004, 0x004, ⟨0, 0, 0, 0xFFFFFFFF⟩⟩, ⟨0x008, 0x008, ⟨0, 0, 0, 0xFFFFFFFF⟩⟩,
   ⟨0x00C, 0x00C, ⟨0, 0, 0, 0xFFFFFFFF⟩⟩, ⟨0x010, 0x010, ⟨0, 0, 0, 0x1FF01FF⟩⟩, ⟨0x014, 0x014, ⟨0, 0x1, 0, 0⟩⟩,
   ⟨0x018, 0x018, ⟨0, 0, 0, 0x3FFFFF⟩⟩]

/-- The COMPOSE block (R513). -/
def composeRegs : List RegRow :=
  [⟨0x000, 0x000, ⟨0, 0, 0, 0xFFFFFFFF⟩⟩, ⟨0x004, 0x004, ⟨0x10000, 0, 0, 0x2FFFF⟩⟩, ⟨0x008, 0x008, ⟨0, 0x1, 0, 0⟩⟩,
   ⟨0x00C, 0x00C, ⟨0, 0, 0x2, 0xFF01⟩⟩, ⟨0x010, 0x010, ⟨0xFFFFFFFF, 0, 0, 0⟩⟩, ⟨0x014, 0x014, ⟨0xFFFFFFFF, 0, 0, 0⟩⟩,
   ⟨0x018, 0x018, ⟨0xFFFFFFFF, 0, 0, 0⟩⟩, ⟨0x01C, 0x01C, ⟨0, 0, 0, 0xFFFFFFFF⟩⟩, ⟨0x020, 0x020, ⟨0x3FF, 0, 0, 0⟩⟩,
   ⟨0x024, 0x024, ⟨0, 0, 0, 0x1F⟩⟩, ⟨0x028, 0x030, ⟨0, 0, 0, 0xFFFFFFFF⟩⟩]

/-- The METER block (R514). -/
def meterRegs : List RegRow :=
  [⟨0x000, 0x000, ⟨0x1FF, 0, 0, 0⟩⟩, ⟨0x004, 0x004, ⟨0, 0x1, 0, 0⟩⟩, ⟨0x008, 0x008, ⟨0, 0, 0, 0xFF⟩⟩,
   ⟨0x040, 0x07C, ⟨0, 0, 0, 0xFFFFFFFF⟩⟩, ⟨0x080, 0x098, ⟨0xFFFFFFFF, 0, 0, 0⟩⟩]

/-- The REFINE block (R342). -/
def refineRegs : List RegRow :=
  [⟨0x000, 0x000, ⟨0xF1F, 0, 0, 0⟩⟩, ⟨0x004, 0x004, ⟨0, 0x7, 0, 0⟩⟩, ⟨0x008, 0x008, ⟨0, 0, 0, 0xFF0F⟩⟩,
   ⟨0x00C, 0x00C, ⟨0, 0, 0, 0xFFFFFFFF⟩⟩, ⟨0x010, 0x010, ⟨0, 0, 0, 0xFFFFFFFF⟩⟩, ⟨0x014, 0x014, ⟨0, 0, 0, 0xFFFFFFFF⟩⟩,
   ⟨0x018, 0x018, ⟨0, 0, 0, 0xFFFFFFFF⟩⟩, ⟨0x01C, 0x01C, ⟨0, 0, 0, 0xFFFFFFFF⟩⟩]

/-- The FLASH block (R436). -/
def flashRegs : List RegRow :=
  [⟨0x000, 0x000, ⟨0, 0, 0, 0xFFFFF7F⟩⟩, ⟨0x004, 0x004, ⟨0, 0, 0, 0xFFFFFFFF⟩⟩, ⟨0x008, 0x008, ⟨0x7, 0x38, 0, 0⟩⟩,
   ⟨0x00C, 0x00C, ⟨0xFFFF, 0, 0, 0⟩⟩, ⟨0x010, 0x010, ⟨0xFFFF, 0, 0, 0⟩⟩, ⟨0x014, 0x014, ⟨0xFFFF, 0, 0, 0⟩⟩,
   ⟨0x018, 0x018, ⟨0xFFFF, 0, 0, 0⟩⟩, ⟨0x01C, 0x01C, ⟨0xFF, 0, 0, 0⟩⟩, ⟨0x020, 0x020, ⟨0xFF, 0, 0, 0⟩⟩,
   ⟨0x024, 0x024, ⟨0xFFFF, 0, 0, 0xFF0000⟩⟩, ⟨0x028, 0x028, ⟨0, 0, 0, 0xFFFFFF⟩⟩, ⟨0x02C, 0x02C, ⟨0, 0, 0x1FF, 0⟩⟩,
   ⟨0x030, 0x030, ⟨0x1F, 0, 0, 0⟩⟩, ⟨0x034, 0x034, ⟨0, 0, 0, 0x1FF⟩⟩, ⟨0x040, 0x040, ⟨0, 0, 0, 0xFFFFFFFF⟩⟩,
   ⟨0x044, 0x044, ⟨0, 0, 0, 0xFFFFFFFF⟩⟩, ⟨0x048, 0x048, ⟨0, 0, 0, 0xFFFFFFFF⟩⟩, ⟨0x04C, 0x04C, ⟨0, 0, 0, 0xFFFFFFFF⟩⟩,
   ⟨0x050, 0x050, ⟨0, 0, 0, 0xFFFFFFFF⟩⟩, ⟨0x054, 0x054, ⟨0, 0, 0, 0xFFFFFFFF⟩⟩, ⟨0x058, 0x058, ⟨0, 0, 0, 0xFFFFFFFF⟩⟩,
   ⟨0x05C, 0x05C, ⟨0, 0, 0, 0xFFFFFFFF⟩⟩]

/-- The FABRIC block (R480). -/
def fabricRegs : List RegRow :=
  [⟨0x000, 0x000, ⟨0, 0, 0, 0xFF⟩⟩, ⟨0x004, 0x004, ⟨0x3FFFFFFF, 0, 0, 0⟩⟩, ⟨0x008, 0x008, ⟨0xFFFFFFFF, 0, 0, 0⟩⟩,
   ⟨0x00C, 0x00C, ⟨0xFFFF, 0, 0, 0⟩⟩, ⟨0x010, 0x010, ⟨0xFFFFFF01, 0, 0, 0⟩⟩, ⟨0x014, 0x014, ⟨0, 0, 0x4, 0xFFFF07FB⟩⟩,
   ⟨0x018, 0x018, ⟨0xFFFFFFFF, 0, 0, 0⟩⟩, ⟨0x01C, 0x01C, ⟨0xFFFFFFFF, 0, 0, 0⟩⟩, ⟨0x020, 0x020, ⟨0x77F, 0, 0, 0⟩⟩,
   ⟨0x024, 0x024, ⟨0, 0, 0, 0x1FFF⟩⟩, ⟨0x028, 0x028, ⟨0, 0, 0, 0xFFFF⟩⟩, ⟨0x02C, 0x02C, ⟨0x3F01, 0, 0, 0⟩⟩,
   ⟨0x030, 0x030, ⟨0, 0, 0x7F, 0⟩⟩, ⟨0x034, 0x034, ⟨0, 0, 0, 0xFFFFFFFF⟩⟩, ⟨0x038, 0x038, ⟨0, 0, 0, 0xFFFFFFFF⟩⟩,
   ⟨0x03C, 0x03C, ⟨0xFFFF, 0, 0, 0⟩⟩, ⟨0x040, 0x040, ⟨0xFF, 0, 0, 0⟩⟩, ⟨0x044, 0x044, ⟨0xFFFFFF, 0, 0, 0⟩⟩,
   ⟨0x048, 0x048, ⟨0xFFFF, 0, 0, 0⟩⟩, ⟨0x04C, 0x04C, ⟨0, 0, 0, 0x3FFFF⟩⟩, ⟨0x060, 0x060, ⟨0x3F, 0, 0, 0⟩⟩,
   ⟨0x064, 0x064, ⟨0xFFFFFF, 0, 0, 0⟩⟩, ⟨0x068, 0x068, ⟨0xFFFFFF, 0, 0, 0⟩⟩, ⟨0x06C, 0x06C, ⟨0xFFFFFFFF, 0, 0, 0⟩⟩,
   ⟨0x070, 0x070, ⟨0x7F03, 0, 0, 0x80000000⟩⟩, ⟨0x074, 0x074, ⟨0, 0, 0, 0xFFFFFFFF⟩⟩, ⟨0x078, 0x078, ⟨0, 0, 0, 0xFFFFFFFF⟩⟩,
   ⟨0x07C, 0x07C, ⟨0, 0, 0, 0xFFFFFFFF⟩⟩]

/-- The FAULT block (R614). -/
def faultRegs : List RegRow :=
  [⟨0x000, 0x000, ⟨0, 0, 0, 0xFFFFFFFF⟩⟩, ⟨0x004, 0x004, ⟨0xFFFFFFFF, 0, 0, 0⟩⟩, ⟨0x008, 0x008, ⟨0, 0, 0, 0x1⟩⟩,
   ⟨0x040, 0x07C, ⟨0, 0, 0, 0xFFFFFFFF⟩⟩, ⟨0x080, 0x080, ⟨0xFF, 0, 0, 0⟩⟩, ⟨0x084, 0x084, ⟨0, 0, 0, 0xFFFFFFFF⟩⟩,
   ⟨0x088, 0x088, ⟨0xFFFFFFFF, 0, 0, 0⟩⟩, ⟨0x100, 0x100, ⟨0x3FF07, 0x80000000, 0, 0⟩⟩,
   ⟨0x104, 0x104, ⟨0, 0, 0x4000000, 0x3FFFFFF⟩⟩, ⟨0x108, 0x108, ⟨0xFFFF, 0, 0, 0⟩⟩, ⟨0x10C, 0x10C, ⟨0, 0, 0, 0x7FF⟩⟩]

/-- The CASK block (R615). -/
def caskRegs : List RegRow :=
  [⟨0x000, 0x000, ⟨0x3, 0xC, 0, 0⟩⟩, ⟨0x004, 0x004, ⟨0xFFFFFFFF, 0, 0, 0⟩⟩, ⟨0x008, 0x008, ⟨0xFFFF, 0, 0, 0⟩⟩,
   ⟨0x00C, 0x00C, ⟨0, 0, 0, 0xFFF07⟩⟩, ⟨0x010, 0x010, ⟨0, 0, 0, 0xFFFFFFFF⟩⟩, ⟨0x014, 0x014, ⟨0, 0, 0, 0xFFFFFFFF⟩⟩,
   ⟨0x018, 0x018, ⟨0xFFFFFFFF, 0, 0, 0⟩⟩, ⟨0x01C, 0x01C, ⟨0xFFFFFFFF, 0, 0, 0⟩⟩, ⟨0x020, 0x020, ⟨0xFFFFFFFF, 0, 0, 0⟩⟩,
   ⟨0x024, 0x024, ⟨0, 0x1, 0, 0x2⟩⟩, ⟨0x028, 0x028, ⟨0, 0, 0, 0xFFFFFFFF⟩⟩, ⟨0x02C, 0x02C, ⟨0, 0, 0, 0xFFFF⟩⟩]

/-- The POWER block (R636). -/
def powerRegs : List RegRow :=
  [⟨0x000, 0x000, ⟨0, 0, 0, 0x3FF003F⟩⟩, ⟨0x004, 0x004, ⟨0, 0xFFFF, 0, 0⟩⟩, ⟨0x008, 0x008, ⟨0, 0, 0xF, 0⟩⟩,
   ⟨0x00C, 0x00C, ⟨0, 0, 0, 0xFFFFFFFF⟩⟩, ⟨0x010, 0x010, ⟨0, 0, 0, 0xFFFFFFFF⟩⟩, ⟨0x014, 0x014, ⟨0, 0, 0, 0xFFFF⟩⟩,
   ⟨0x018, 0x018, ⟨0xFFFF, 0, 0, 0xFFFF0000⟩⟩, ⟨0x01C, 0x01C, ⟨0, 0, 0, 0x1FFFF⟩⟩, ⟨0x020, 0x020, ⟨0, 0, 0, 0x1FFF⟩⟩,
   ⟨0x024, 0x02C, ⟨0, 0, 0, 0xFFFFFFFF⟩⟩]

/-- The MODULE block (R666). -/
def moduleRegs : List RegRow :=
  [⟨0x000, 0x000, ⟨0, 0, 0, 0xFFF0007⟩⟩, ⟨0x004, 0x004, ⟨0xFF01, 0x10000, 0, 0⟩⟩, ⟨0x008, 0x008, ⟨0, 0, 0, 0xF⟩⟩,
   ⟨0x00C, 0x00C, ⟨0x3F, 0, 0, 0⟩⟩, ⟨0x010, 0x010, ⟨0, 0, 0, 0xFFFFFFFF⟩⟩, ⟨0x014, 0x014, ⟨0, 0, 0xFF00, 0xFF00FF⟩⟩,
   ⟨0x018, 0x018, ⟨0, 0, 0, 0xFF⟩⟩, ⟨0x01C, 0x01C, ⟨0, 0, 0xFF00, 0xFF⟩⟩, ⟨0x020, 0x020, ⟨0, 0, 0x3F, 0⟩⟩,
   ⟨0x024, 0x024, ⟨0, 0, 0, 0x7FFFFFF⟩⟩]

/-- The MEMORY block (R379). -/
def memoryRegs : List RegRow :=
  [⟨0x000, 0x000, ⟨0, 0, 0, 0xFF1F⟩⟩, ⟨0x004, 0x004, ⟨0, 0x1, 0, 0⟩⟩, ⟨0x008, 0x008, ⟨0, 0, 0, 0xFFFFFFFF⟩⟩,
   ⟨0x00C, 0x00C, ⟨0, 0, 0, 0xFFFFFFFF⟩⟩, ⟨0x010, 0x010, ⟨0, 0, 0, 0xFFFFFFFF⟩⟩, ⟨0x014, 0x014, ⟨0, 0, 0xF, 0⟩⟩,
   ⟨0x018, 0x018, ⟨0, 0, 0, 0xFFFFFFFF⟩⟩, ⟨0x01C, 0x01C, ⟨0, 0, 0, 0x1F⟩⟩, ⟨0x020, 0x020, ⟨0, 0, 0, 0xF⟩⟩,
   ⟨0x040, 0x040, ⟨0x1, 0x2, 0, 0⟩⟩, ⟨0x044, 0x044, ⟨0, 0, 0, 0x107FF⟩⟩, ⟨0x048, 0x048, ⟨0x3FF, 0, 0, 0⟩⟩,
   ⟨0x04C, 0x04C, ⟨0, 0, 0, 0x7FFF⟩⟩, ⟨0x050, 0x050, ⟨0, 0, 0, 0xFFFF⟩⟩, ⟨0x054, 0x054, ⟨0, 0, 0, 0xFFFFFFFF⟩⟩,
   ⟨0x058, 0x058, ⟨0, 0, 0, 0xFFFFFFFF⟩⟩, ⟨0x05C, 0x05C, ⟨0, 0, 0, 0xFFFFFFFF⟩⟩]

/-- The TILE block (R276). -/
def tileRegs : List RegRow :=
  [⟨0x000, 0x000, ⟨0x3FFF, 0x1FF0000, 0, 0⟩⟩, ⟨0x004, 0x004, ⟨0xFFFF, 0, 0, 0⟩⟩, ⟨0x008, 0x008, ⟨0, 0, 0, 0x7FFFFFF⟩⟩,
   ⟨0x00C, 0x00C, ⟨0, 0, 0, 0x1FF21FF⟩⟩, ⟨0x010, 0x010, ⟨0xFF, 0, 0, 0⟩⟩, ⟨0x014, 0x014, ⟨0, 0, 0, 0xFFFFFF⟩⟩,
   ⟨0x018, 0x018, ⟨0, 0, 0, 0xFFFFFFFF⟩⟩, ⟨0x01C, 0x01C, ⟨0, 0, 0, 0xFFFFFFFF⟩⟩, ⟨0x020, 0x020, ⟨0, 0, 0x1FF, 0⟩⟩]

/-- The GATHER block (R235). -/
def gatherRegs : List RegRow :=
  [⟨0x000, 0x000, ⟨0x1, 0x2, 0, 0⟩⟩, ⟨0x004, 0x004, ⟨0, 0, 0, 0x7FFFF⟩⟩, ⟨0x008, 0x008, ⟨0, 0, 0xF, 0⟩⟩,
   ⟨0x010, 0x010, ⟨0, 0, 0, 0xFFFFFFFF⟩⟩, ⟨0x014, 0x014, ⟨0, 0, 0, 0xFFFFFFFF⟩⟩, ⟨0x018, 0x018, ⟨0, 0, 0, 0xFFFFFFFF⟩⟩,
   ⟨0x01C, 0x01C, ⟨0, 0, 0, 0xFFFFFFFF⟩⟩, ⟨0x020, 0x020, ⟨0, 0, 0, 0xFFFFFFFF⟩⟩]

/-- The MATRIX block (R313). -/
def matrixRegs : List RegRow :=
  [⟨0x000, 0x000, ⟨0x1, 0x1E, 0, 0⟩⟩, ⟨0x004, 0x004, ⟨0, 0, 0, 0xFFF7⟩⟩, ⟨0x008, 0x008, ⟨0, 0, 0, 0xFF⟩⟩,
   ⟨0x00C, 0x00C, ⟨0, 0, 0x7, 0⟩⟩, ⟨0x010, 0x010, ⟨0, 0, 0, 0xFFFFFFFF⟩⟩, ⟨0x014, 0x014, ⟨0, 0, 0, 0xFFFFFFFF⟩⟩,
   ⟨0x018, 0x018, ⟨0, 0, 0, 0xFFFFFFFF⟩⟩, ⟨0x01C, 0x01C, ⟨0, 0, 0, 0xFFFFFFFF⟩⟩, ⟨0x020, 0x020, ⟨0, 0, 0, 0xFFFFFFFF⟩⟩,
   ⟨0x024, 0x024, ⟨0, 0, 0, 0xFFFFFFFF⟩⟩]

/-- The register table of a block; the NVMe block and the MSI-X structures have none. -/
def Block.regs : Block → List RegRow
  | .nvme => []
  | .msixTable => []
  | .msixPba => []
  | .system => systemRegs
  | .host => hostRegs
  | .grist => gristRegs
  | .clock => clockRegs
  | .reset => resetRegs
  | .dispatch => dispatchRegs
  | .compose => composeRegs
  | .meter => meterRegs
  | .refine => refineRegs
  | .flash => flashRegs
  | .fabric => fabricRegs
  | .fault => faultRegs
  | .cask => caskRegs
  | .power => powerRegs
  | .module => moduleRegs
  | .memory _ => memoryRegs
  | .tile _ => tileRegs
  | .gather _ => gatherRegs
  | .matrix _ => matrixRegs

/-- The bits of the register at an offset of a block, none where the word is unassigned (R573). -/
def Block.bits (b : Block) (o : Nat) : Option RegBits := (b.regs.find? fun r => r.first ≤ o && o ≤ r.last).map (·.bits)

/-- A bit that the register defines. -/
def RegBits.has (r : RegBits) (b : Nat) : Bool := (r.rw ||| r.wo ||| r.w1 ||| r.ro).testBit b

end Sys2Proof.Machine
end

