-- ==== Sys2Proof/Machine/RegRead.lean ====
section
/-! DEFINITION. Sys2Proof/Machine/RegRead.lean: what a read of each register of BAR0 returns, block by block (R9, R572–R574 and the register
tables of the chapters). -/
namespace Sys2Proof.Machine

/-- Fields side by side, lowest bits first: widths and values. -/
def pack : List (Nat × Nat) → Nat
  | [] => 0
  | (w, v) :: r => v % 2 ^ w + 2 ^ w * pack r

/-- The low and the high word of a 64-bit value. -/
def loWord (v : Nat) : Nat := v % 2 ^ 32
def hiWord (v : Nat) : Nat := v / 2 ^ 32 % 2 ^ 32

/-- Word `i` of a run of bytes. -/
def wordAt (b : Bytes) (i : Nat) : Nat := fieldAt b (4 * i) 4

/-- Word `i` of a 384-bit hash, byte 0 in the lowest bits of word 0 (R83). -/
def hashWord (h : BitVec 384) (i : Nat) : Nat := h.toNat / 2 ^ (32 * i) % 2 ^ 32

/-! ### SYSTEM, HOST, DISPATCH, CLOCK, RESET -/

/-- SYSTEM (R580). -/
def State.rdSystem (s : State) (o : Nat) : Nat :=
  match o with
  | 0x00 => 0x024816B1
  | 0x04 => 0x48161E7B
  | 0x08 => 0x248165A7
  | 0x0C => loWord Config.fuseSerial.toNat
  | 0x10 => hiWord Config.fuseSerial.toNat
  | 0x14 => pack [(1, b2n s.sys.partial_), (1, b2n s.sys.unmapped), (1, b2n s.sys.mgmtFmt)]
  | 0x18 => pack [(27, s.sys.errAddr.toNat), (1, b2n s.sys.errBar2)]
  | 0x1C => s.sys.scratch.toNat
  | _ => 0

/-- HOST (R538). -/
def State.rdHost (s : State) (o : Nat) : Nat :=
  let h := s.host
  match o with
  | 0x00 => pack [(3, h.speed.toNat), (5, h.width.toNat), (1, b2n h.flit), (1, b2n h.d3)]
  | 0x04 => pack [(1, b2n (h.nvme.cc.getLsbD 0)), (1, b2n h.nvme.rdy), (1, b2n h.nvme.cfs), (7, (h.nvme.sqs.filter (·.id != 0)).length)]
  | 0x08 => h.err.toNat
  | 0x0C => h.nvme.cmds.length + h.nvme.aers.length
  | 0x10 => h.execCnt.toNat
  | 0x14 => h.linkDn.toNat
  | _ => 0

/-- DISPATCH (R581). -/
def State.rdDispatch (s : State) (o : Nat) : Nat :=
  let d := s.disp
  match o with
  | 0x00 => d.admitCnt.toNat
  | 0x04 => d.refuseCnt.toNat
  | 0x08 => d.dropCnt.toNat
  | 0x0C => d.fwdCnt.toNat
  | 0x10 => pack [(16, d.fill.toNat), (9, d.max.toNat)]
  | 0x18 => pack [(8, d.lastStatus.toNat), (8, d.lastTenant.toNat), (6, d.lastService.toNat)]
  | _ => 0

/-- CLOCK (R563). -/
def State.rdClock (s : State) (o : Nat) : Nat :=
  let c := s.clk
  let d := c.dom c.selDom
  match o with
  | 0x00 => pack [(1, b2n c.refOk), (1, b2n c.auxLock), (1, b2n c.rootLock), (1, b2n c.refLost), (1, b2n c.auxUnlock), (1, b2n c.mgmtOnAux)]
  | 0x04 => pack [(3, c.oscw.toNat), (1, b2n c.gsrc)]
  | 0x08 => c.domSel.toNat
  | 0x0C => pack [(8, d.tap.toNat), (4, d.cur.toNat), (1, b2n d.pend)]
  | 0x10 => pack [(1, b2n c.swNoTap), (1, b2n c.swTimeout), (6, b2n c.swBusy), (8, c.swDom.toNat)]
  | 0x14 => c.gateSel.toNat
  | 0x18 => pack [(1, b2n (c.gates.contains c.gateSel.toNat)), (1, b2n (s.nodeRuns c.gateSel.toNat)),
                  (1, b2n ((treeNode c.gateSel.toNat).any s.inUse))]
  | 0x1C => pack [(16, b2n c.gateRefused), (11, c.gateNode.toNat)]
  | _ => 0

/-- RESET (R564). -/
def State.rdReset (s : State) (o : Nat) : Nat :=
  let r := s.rst
  match o with
  | 0x00 => pack [(8, 0), (8, r.tile.toNat), (8, r.core.toNat), (5, r.part.toNat)]
  | 0x08 => pack [(1, b2n !r.partBusy.isEmpty), (1, b2n !r.coreWait.isEmpty), (1, b2n r.refused)]
  | 0x0C => r.cause.toNat
  | 0x10 => r.modCnt.toNat
  | _ => 0

/-! ### GRIST -/

/-- GRIST_STATUS.STATE codes (R83). -/
def GState.code : GState → Nat
  | .empty => 0 | .loading => 1 | .draining => 2 | .applying => 3 | .running => 4 | .failed => 5

/-- GRIST_PSTATE codes (R83). -/
def PState.code : PState → Nat
  | .absent => 0 | .running => 1 | .reloading => 2 | .failed => 3

/-- A core, an array or a gather engine is held fenced. -/
def State.unitFenced (s : State) (t u : Nat) : Bool :=
  if u < 9 then s.coreHeld (9 * t + u) else if u < 13 then s.arrayFenced t (u - 9) else s.gatherFenced t

/-- The running image names a fenced unit (GRIST_STATUS.FENCED_UNITS): an enabled unit of an owned tile, or an extent on a failed mash stack
(R377, R378; with a failed plain stack no image loads). -/
def State.fencedUnits (s : State) : Bool :=
  s.grist.parts.any fun p => (p.tiles.any fun (t, en) => (List.range 14).any fun u => en.getLsbD u && s.unitFenced t u) ||
    p.mem.any fun e => 8 ≤ e.stack && (s.memCtl e.stack).state == 2

/-- GRIST (R83). -/
def State.rdGrist (s : State) (o : Nat) : Nat :=
  let g := s.grist
  let two (base : Nat) : Nat := pack ((List.range 16).map fun i => (2, (s.pstate (base + i)).code))
  match o with
  | 0x00 => pack [(1, 0), (2, g.src.toNat), (5, b2n g.persist), (8, g.drainMs.toNat)]
  | 0x04 => pack [(3, g.state.code), (1, b2n g.refused), (1, b2n s.fencedUnits), (1, b2n g.fallback), (2, b2n g.nosect), (8, g.err.toNat),
                  (10, g.errSection.toNat), (5, g.part.toNat), (1, b2n g.lastPartial)]
  | 0x08 => two 0
  | 0x0C => two 16
  | 0x10 => loWord g.hostAddr.toNat
  | 0x14 => hiWord g.hostAddr.toNat
  | 0x18 => g.hostLen.toNat
  | 0x1C => pack [(31, g.svnMin.toNat), (1, b2n g.locked)]
  | 0x20 => g.revoke.toNat
  | 0x70 => g.phashSel.toNat
  | _ =>
    if 0x40 ≤ o && o ≤ 0x6C then hashWord g.hash ((o - 0x40) / 4)
    else if 0x80 ≤ o && o ≤ 0xAC then hashWord (g.phash.get 0 g.phashSel.toNat) ((o - 0x80) / 4)
    else 0

/-! ### COMPOSE, METER, REFINE -/

/-- COMP_SHARD_STATE.ROLE codes (R513). -/
def ShardRole.code : ShardRole → Nat
  | .none => 0 | .owner => 1 | .claiming => 2 | .resyncing => 3 | .inSync => 4 | .yielding => 5 | .unavailable => 6

/-- COMPOSE (R513). -/
def State.rdCompose (s : State) (o : Nat) : Nat :=
  let c := s.comp
  let sh := s.shard c.shardSel.toNat
  match o with
  | 0x00 => s.epoch
  | 0x04 => pack [(16, c.node.toNat), (1, b2n c.alone), (1, b2n (c.map.isSome && s.mapConfirmed))]
  | 0x0C => pack [(1, b2n c.busy), (7, b2n c.refused), (8, c.err.toNat)]
  | 0x10 => loWord c.hostAddr.toNat
  | 0x14 => hiWord c.hostAddr.toNat
  | 0x18 => c.hostLen.toNat
  | 0x1C => c.conflicts.toNat
  | 0x20 => c.shardSel.toNat
  | 0x24 => pack [(3, sh.role.code), (1, b2n sh.override.isSome), (1, b2n sh.held)]
  | 0x28 => wordAt sh.ostamp.bytes 0
  | 0x2C => wordAt sh.ostamp.bytes 1
  | 0x30 => wordAt sh.ostamp.bytes 2
  | _ => 0

/-- METER (R514). -/
def State.rdMeter (s : State) (o : Nat) : Nat :=
  let m := s.meter
  match o with
  | 0x00 => m.sel.toNat
  | 0x08 => m.snapWrap.toNat
  | _ =>
    if 0x40 ≤ o && o ≤ 0x7C then
      let v := (nth m.snap ((o - 0x40) / 8) 0).toNat
      if o % 8 == 0 then loWord v else hiWord v
    else if 0x80 ≤ o && o ≤ 0x98 then (nth m.coef ((o - 0x80) / 4) 0).toNat
    else 0

/-- REFINE (R342): with NO_RECORD the fields of the status block read as at reset. -/
def State.rdRefine (s : State) (o : Nat) : Nat :=
  let f (at_ n : Nat) : Nat := match s.refSel with | some (p, i) => s.pmNum p (refineAt i + at_) n | none => 0
  match o with
  | 0x00 => pack [(8, s.refn.selPart.toNat), (4, s.refn.selIndex.toNat)]
  | 0x08 =>
    match s.refSel with
    | some _ => pack [(2, f 0x100 1), (1, b2n (f 0xC0 1 != 0)), (5, 0), (8, f 0x101 1)]
    | none => pack [(3, 0), (5, 1), (8, 0xFF)]
  | 0x0C => f 0x104 4
  | 0x10 => f 0x110 4
  | 0x14 => f 0x114 4
  | 0x18 => f 0x124 4
  | 0x1C => f 0x130 4
  | _ => 0

/-! ### FLASH -/

/-- Flash channel number and the dies of a channel that a program or an erase in progress keeps busy. -/
def State.busyTargets (s : State) (ch : Nat) : List Nat :=
  let progs := (s.media.stripes.filter fun e => e.2.programming).map fun e => e.2.block
  let erases := (s.media.blocks.filter fun e => e.2.erasing).map (·.1)
  ((progs ++ erases).filter fun b => (s.blockAt b).1 == ch % 4).map fun b => (s.blockAt b).2.1

/-- Reads of pages on the media are on their way. -/
def State.readsPending (s : State) : Bool := s.fls.cmds.any fun c => c.reads.any fun r => r.got.isNone

/-- FLS_CH_STATE of the selected channel (R436). How many dies serve reads at an instant is open, so with reads on their way the count of busy
dies is a free value (assumption 2). -/
def State.rdChState (s : State) : Nat × State :=
  let n := s.fls.chSel.toNat
  let k := s.flashCh n
  let (extra, s) : Nat × State := if s.readsPending then (let (f, s) := s.takeFree; (f.toNat % 17, s)) else (0, s)
  let dies := min 16 ((s.busyTargets n).length + extra)
  let st := if k.failed then 3 else if k.calUntil > s.time.up then 2 else if dies > 0 then 1 else 0
  (pack [(2, st), (1, b2n k.calDue), (1, b2n k.calLate), (5, dies)], s)

/-- Carrier bits of a predicate. -/
def carBits (f : Nat → Bool) : Nat := pack ((List.range 8).map fun c => (1, b2n (f c)))

/-- Progress of the current rebuild in percent (FLS_REBUILD.PCT). -/
def State.rebuildPct (s : State) : Nat :=
  match (List.range 8).find? fun c => (s.carrier c).state == .rebuilding with
  | some c => let k := s.carrier c; if k.total == 0 then 0 else s.rebuilt c * 100 / (k.total * 2560 * 16384)
  | none => 0

/-- FLASH (R436), the registers that a read leaves as they are. -/
def State.rdFlash (s : State) (o : Nat) : Nat :=
  let f := s.fls
  match o with
  | 0x00 => pack [(3, f.state.code), (5, f.reason.toNat), (8, carBits fun c => (s.carrier c).present),
                  (8, carBits fun c => (s.carrier c).state == .online || (s.carrier c).state == .rebuilding),
                  (3, if f.adopt then f.adoptSlot.toNat else 0), (1, b2n f.adopt)]
  | 0x04 => pack ((List.range 8).map fun c => (4, (s.carrier c).state.code))
  | 0x08 => f.cmdCarrier.toNat
  | 0x0C => pack [(8, f.kilnStart.toNat), (8, f.kilnHigh.toNat)]
  | 0x10 => pack [(8, f.gcStart.toNat), (8, f.gcUrgent.toNat)]
  | 0x14 => f.closeUs.toNat
  | 0x18 => f.spread.toNat
  | 0x1C => pack [(4, f.fastSteps.toNat), (4, f.weakStep.toNat)]
  | 0x20 => f.patrolDays.toNat
  | 0x24 => pack [(16, f.mbps.toNat), (8, s.rebuildPct)]
  | 0x28 => if f.state == .down || f.state == .forming then 0 else pack [(8, s.steepPct), (8, s.freePct), (8, s.sparePct)]
  | 0x2C => f.err.toNat
  | 0x30 => f.chSel.toNat
  | 0x40 => f.readCnt.toNat
  | 0x44 => f.retryCnt.toNat
  | 0x48 => f.rebuiltCnt.toNat
  | 0x4C => f.unrecCnt.toNat
  | 0x50 => f.progCnt.toNat
  | 0x54 => f.eraseCnt.toNat
  | 0x58 => f.ltrCnt.toNat
  | 0x5C => f.ltrBad.toNat
  | _ => 0

/-! ### FABRIC -/

/-- FAB_TIME_STATUS.STATE codes (R480). -/
def TimeState.code : TimeState → Nat
  | .free => 0 | .locked => 1 | .holdover => 2

/-- FAB_Q_STATE of the selected queue (R480): whole KiB queued. -/
def State.rdQueue (s : State) : Nat :=
  let c := s.fab.chSel.toNat
  let k := s.chan c
  let cls := s.fab.qSel.toNat
  let q := (nth k.queues cls {}).credited s.time.up
  let u := match q.msgs.head? with | some m => unitsFor (m.segment (s.segSize c)).length | none => 0
  pack [(16, q.bytes / 1024), (1, b2n (!q.msgs.isEmpty && q.rate != 0 && q.credit < 0)), (1, b2n (!q.msgs.isEmpty && !k.hasCredit cls u))]

/-- FABRIC (R480). -/
def State.rdFabric (s : State) (o : Nat) : Nat :=
  let f := s.fab
  let k := s.chan f.chSel.toNat
  let q := nth k.queues f.qSel.toNat {}
  let p := s.pol f.polSel.toNat
  let t := s.time
  match o with
  | 0x00 => f.fdet.toNat
  | 0x04 => pack [(16, f.etype.toNat), (1, b2n f.vlan), (1, b2n f.seg1k), (12, f.vid.toNat)]
  | 0x08 => loWord f.mac.toNat
  | 0x0C => hiWord f.mac.toNat
  | 0x10 => pack [(8, b2n f.self), (8, f.domain.toNat), (8, f.prio1.toNat), (8, f.prio2.toNat)]
  | 0x14 => pack [(2, t.state.code), (1, b2n t.fault), (7, t.port.toNat), (6, b2n t.via), (16, t.offset.toNat)]
  | 0x18 => loWord t.setTo.toNat
  | 0x1C => hiWord t.setTo.toNat
  | 0x20 => pack [(8, f.chSel.toNat), (3, f.qSel.toNat)]
  | 0x24 => pack [(3, k.state.code), (1, b2n k.eth), (2, k.width.toNat), (3, k.engine.toNat), (4, k.first.toNat)]
  | 0x28 => k.peer.toNat
  | 0x2C => pack [(8, b2n k.compat), (6, k.overhead.toNat)]
  | 0x30 => k.err.toNat
  | 0x34 => k.rxDrop.toNat
  | 0x38 => k.reinit.toNat
  | 0x3C => k.asym.toNat
  | 0x40 => q.weight.toNat
  | 0x44 => q.rate.toNat
  | 0x48 => q.burst.toNat
  | 0x4C => s.rdQueue
  | 0x60 => f.polSel.toNat
  | 0x64 => p.cir.toNat
  | 0x68 => p.pir.toNat
  | 0x6C => pack [(16, p.cbs.toNat), (16, p.pbs.toNat)]
  | 0x70 => pack [(1, b2n p.aware), (7, b2n p.redDrop), (23, p.ylim.toNat), (1, b2n p.invalid)]
  | 0x74 => p.green.toNat
  | 0x78 => p.yellow.toNat
  | 0x7C => p.red.toNat
  | _ => 0

/-! ### FAULT, CASK, POWER -/

/-- The record that FLT_LOG_SEL names, while the ring holds it. -/
def Flt.shown (f : Flt) : Option ErrRec := f.ring.find? (·.seq == f.sel)

/-- FAULT (R614). -/
def State.rdFault (s : State) (o : Nat) : Nat :=
  let f := s.flt
  match o with
  | 0x00 => f.head.toNat
  | 0x04 => f.sel.toNat
  | 0x08 => b2n f.shown.isSome
  | 0x80 => f.classSel.toNat
  | 0x84 => (f.classCnt.get 0 f.classSel.toNat).toNat
  | 0x88 => f.mask.toNat
  | 0x100 => pack [(8, f.testKind.toNat), (10, f.testUnit.toNat)]
  | 0x104 => pack [(7, f.queue.length), (4, f.running.length), (3, f.lastKind.toNat), (10, f.lastUnit.toNat), (2, f.lastResult.toNat), (1, b2n f.refused)]
  | 0x108 => f.period.toNat
  | 0x10C => f.rotPos.toNat
  | _ =>
    if 0x40 ≤ o && o ≤ 0x7C then
      match f.shown with
      | some r => wordAt r.bytes ((o - 0x40) / 4)
      | none => 0
    else 0

/-- CASK (R615). -/
def State.rdCask (s : State) (o : Nat) : Nat :=
  let c := s.cask
  match o with
  | 0x00 => c.mode.toNat
  | 0x04 => c.parts.toNat
  | 0x08 => c.collector.toNat
  | 0x0C => pack [(8, c.state.toNat), (8, c.ring.length * 100 / caskRingMax), (4, c.err.toNat)]
  | 0x10 => loWord c.bytes.toNat
  | 0x14 => hiWord c.bytes.toNat
  | 0x18 => loWord c.hostAddr.toNat
  | 0x1C => hiWord c.hostAddr.toNat
  | 0x20 => c.hostLen.toNat
  | 0x24 => pack [(1, 0), (1, b2n c.feedBusy)]
  | 0x28 => c.divSeq.toNat
  | 0x2C => c.divOff.toNat
  | _ => 0

/-- POWER (R636). -/
def State.rdPower (s : State) (o : Nat) : Nat :=
  let p := s.pwr
  match o with
  | 0x00 => pack [(3, if p.state == 0 && s.recovering then 4 else p.state.toNat), (13, p.last.toNat), (10, p.vin.toNat)]
  | 0x08 => pack [(1, b2n p.errLow), (1, b2n p.errIncomplete), (1, b2n p.errTrail), (1, b2n p.errJournal)]
  | 0x0C => p.flushCnt.toNat
  | 0x10 => p.lastUs.toNat
  | 0x14 => p.lastMib.toNat
  | 0x18 => pack [(16, p.horizon.toNat), (16, p.horizonUsed.toNat)]
  | 0x1C => pack [(8, min 100 (s.trailBytes * 100 / (64 * 10 ^ 9))), (8, 0), (9, min 256 (s.tailBytes / 1048576))]
  | 0x20 => pack [(8, p.recPct.toNat), (5, p.recPart.toNat)]
  | 0x24 => wordAt p.flushStamp.bytes 0
  | 0x28 => wordAt p.flushStamp.bytes 1
  | 0x2C => wordAt p.flushStamp.bytes 2
  | _ => 0

/-! ### MODULE and its LEDs -/

/-- The light patterns (R662). -/
inductive Blink where
  | off | on | slow | fast | double
  deriving DecidableEq, Repr

/-- Is a pattern lit at a time (R662). -/
def Blink.lit (b : Blink) (t : Nat) : Bool :=
  let ms := t / 1000000 % 1000
  match b with
  | .off => false
  | .on => true
  | .slow => ms < 500
  | .fast => ms % 250 < 125
  | .double => ms < 100 || (300 ≤ ms && ms < 400)

/-- The time patterns take their phase from: rack time once Locked, the sequencer's count before (R662). -/
def State.blinkTime (s : State) : Nat := if s.time.lockedOnce then s.rack else s.time.up

/-- A lamp test runs (R664). -/
def State.lampOn (s : State) : Bool := s.time.up < s.mod.lampUntil

/-- Green, amber and blue of a carrier state (R663). -/
def CarState.lights : CarState → Blink × Blink × Blink
  | .absent => (.off, .off, .off)
  | .powering | .identifying => (.fast, .off, .off)
  | .online => (.on, .off, .off)
  | .rebuilding => (.slow, .off, .off)
  | .removal => (.slow, .off, .fast)
  | .safe => (.off, .off, .on)
  | .lost => (.off, .slow, .off)
  | .refused => (.off, .fast, .off)
  | .failed => (.off, .on, .off)

/-- The patterns of a carrier's LEDs (R664): the first override that applies decides all three, and locate and alert fill dark LEDs. -/
def State.carLights (s : State) (c : Nat) : Blink × Blink × Blink :=
  let held := s.time.up - s.mod.pressAt.get 0 c
  let (g, a, b) : Blink × Blink × Blink :=
    if s.lampOn then (.on, .on, .on)
    else if s.mod.pressed.getLsbD c && 1000000000 ≤ held && held < 4000000000 then (.off, .off, .fast)
    else if s.mod.forcedBlue.getLsbD c then (.off, .off, .on)
    else if s.time.up < s.mod.refuseUntil.get 0 c then (.off, .double, .off)
    else (s.carrier c).state.lights
  let b := if b == .off && s.mod.locCarrier.getLsbD c then .slow else b
  let a := if a == .off && s.mod.alert.getLsbD c then .slow else a
  (g, a, b)

/-- Some unit of the node is fenced by the data path. -/
def State.dataFenced (s : State) : Bool := (s.tiles.any fun e => e.2.data != 0 || e.2.gdata) || s.matrix.any fun e => e.2.data != 0

/-- A partition of the running image has flash extents. -/
def State.flashDefined (s : State) : Bool := s.grist.parts.any fun p => !p.flash.isEmpty

/-- The patterns of the module LEDs, green and amber (R665). -/
def State.modLights (s : State) : Blink × Blink :=
  if s.lampOn then (.on, .on)
  else if s.clk.phase == .failed then (.off, .fast)
  else if s.pwr.trip && (s.pwr.state == 2 || s.pwr.state == 3) then (.off, .on)
  else if s.pwr.state == 2 then (.fast, .fast)
  else if s.pwr.state == 3 then (.double, .off)
  else if s.clk.phase == .resetHold || !s.pins.resetN then (.off, .off)
  else if s.grist.state == .failed || (s.fls.state == .down && s.flashDefined) then (.slow, .on)
  else if s.grist.state == .empty || s.grist.state == .loading then (.slow, .off)
  else if s.grist.parts.any (fun p => s.pstate p.num == .failed) || s.fls.state != .ready || s.dataFenced || s.pwr.state == 1 || s.mod.therm == 1
  then (.on, .slow)
  else (.on, .off)

/-- MOD_LED.MODULE: dark until the sequencer's reset is released (R665). -/
def State.modLed (s : State) : Nat :=
  if s.pwr.off || s.clk.phase == .held then 0
  else
    let t := s.blinkTime
    let blue : Blink := if s.lampOn then .on else if s.mod.locModule then .slow else .off
    pack [(1, b2n (s.modLights.1.lit t)), (1, b2n (s.modLights.2.lit t)), (1, b2n (blue.lit t))]

/-- Three bits of a carrier in MOD_LED.CARRIER. -/
def State.carLed (s : State) (c : Nat) : Nat :=
  let t := s.blinkTime
  let l := s.carLights c
  pack [(1, b2n (l.1.lit t)), (1, b2n (l.2.1.lit t)), (1, b2n (l.2.2.lit t))]

/-- MODULE (R666). -/
def State.rdModule (s : State) (o : Nat) : Nat :=
  let m := s.mod
  let i := min 43 m.tempSel.toNat
  match o with
  | 0x00 => pack [(2, m.therm.toNat), (14, b2n m.oeHot), (12, m.pin.toNat)]
  | 0x04 => pack [(8, b2n m.locModule), (8, m.locCarrier.toNat)]
  | 0x08 => pack [(1, b2n m.mbus), (3, m.maddr.toNat)]
  | 0x0C => m.tempSel.toNat
  | 0x10 => pack [(8, (m.now.get 0 i).toNat), (8, (m.maxT.get 0x80 i).toNat), (8, (thermLevels i).1), (8, (thermLevels i).2)]
  | 0x14 => pack [(8, m.kOn.toNat), (8, m.kTrip.toNat), (8, m.kEn.toNat)]
  | 0x18 => m.cpwr.toNat
  | 0x1C => pack [(8, m.pressed.toNat), (8, m.event.toNat)]
  | 0x20 => m.err.toNat
  | 0x24 => pack ((3, s.modLed) :: (List.range 8).map fun c => (3, s.carLed c))
  | _ => 0

/-! ### MEMORY, TILE, GATHER, MATRIX -/

/-- MEMORY of a stack (R379). -/
def State.rdMemory (s : State) (k o : Nat) : Nat :=
  let m := s.memCtl k
  let b := m.banks.get Bank.reset m.bankSel.toNat
  let active := (m.banks.filter fun e => e.2.state == 1 || e.2.state == 2).length
  match o with
  | 0x00 => pack [(2, m.state.toNat), (1, b2n (isMash k)), (1, b2n m.hot), (4, b2n (m.trainPend != 0)), (8, m.temp.toNat)]
  | 0x08 => m.trainPend.toNat
  | 0x0C => m.ce.toNat
  | 0x10 => m.ue.toNat
  | 0x14 => m.err.toNat
  | 0x18 => loWord m.ueAddr.toNat
  | 0x1C => hiWord m.ueAddr.toNat
  | 0x20 => m.ppmax.toNat
  | 0x40 => b2n m.pause
  | 0x44 => pack [(16, active), (1, b2n (m.pause && !m.banks.any fun e => e.2.state == 1))]
  | 0x48 => m.bankSel.toNat
  | 0x4C => pack [(3, b.state.toNat), (6, b.held.length), (5, b.chunk.toNat), (1, b2n b.refresh)]
  | 0x50 => m.holdMax.toNat
  | 0x54 => m.holdCnt.toNat
  | 0x58 => m.scanCnt.toNat
  | 0x5C => m.badCnt.toNat
  | _ => 0

/-- TILE_CSTATE code of a core (R276). -/
def CoreState.code : CoreState → Nat
  | .disabled => 0 | .running => 1 | .draining => 2 | .fenced => 3 | .testing => 4

/-- TILE_CTX_STATE.STATE of a context (R276); a context whose divide or vector instruction is in progress is issuing. -/
def ctxCode (k : Core) (n : Fin 16) (c : Ctx) : Nat :=
  match c.wait with
  | .unassigned => 0
  | .ready => if c.hook then 9 else if k.cur == n && k.st != .fenced then 2 else 1
  | .memory => 3
  | .unit_ | .vunit => 2
  | .qtake .. | .qput .. => 4
  | .vacq | .vrel => 5
  | .waitw .. | .stamp .. => 6
  | .parked => 7
  | .stopped => 8

/-- TILE of a tile (R276). A selector beyond core 8 shows no context. -/
def State.rdTile (s : State) (t o : Nat) : Nat :=
  let r := s.tile t
  let core := 9 * t + r.selCore.toNat
  let n : Fin 16 := Fin.ofNat 16 r.selCtx.toNat
  let k := if r.selCore.toNat < 9 then s.core core else Core.reset
  let c := k.ctxs.get Ctx.reset n.val
  match o with
  | 0x00 => pack [(9, r.core.toNat), (4, r.array.toNat), (1, b2n r.gather)]
  | 0x04 => r.limitUs.toNat
  | 0x08 => pack ((List.range 9).map fun i => (3, (s.core (9 * t + i)).st.code))
  | 0x0C => pack [(13, r.data.toNat), (3, b2n r.gdata), (9, r.hard.toNat)]
  | 0x10 => pack [(4, r.selCtx.toNat), (4, r.selCore.toNat)]
  | 0x14 => pack [(4, ctxCode k n c), (1, b2n c.held.isSome), (1, b2n c.slot.isSome), (1, b2n (c.abfhook != 0)), (9, c.tenant.toNat), (8, c.faults.toNat)]
  | 0x18 => loWord c.pc.toNat
  | 0x1C => hiWord c.pc.toNat
  | 0x20 => r.cfault.toNat
  | _ => 0

/-- GATHER of a tile (R235). How many of a window's reads are outstanding at an instant is open: a free value in the field's range while a
window is open (assumption 2). -/
def State.rdGather (s : State) (t o : Nat) : Nat × State :=
  let g := s.gth t
  let open_ := g.cmd.any (·.windowOpen)
  match o with
  | 0x00 => (b2n g.pause, s)
  | 0x04 =>
    let (f, s) := if open_ then s.takeFree else (0, s)
    let outst := f.toNat % 513
    let flash := min outst (f.toNat / 2 ^ 16 % 65)
    (pack [(1, b2n g.cmd.isSome), (1, b2n (g.pause && outst == 0)), (10, outst), (7, flash)], s)
  | 0x08 => (g.err.toNat, s)
  | 0x10 => (g.cmdCnt.toNat, s)
  | 0x14 => (g.readCnt.toNat, s)
  | 0x18 => (g.coalCnt.toNat, s)
  | 0x1C => (g.rereadCnt.toNat, s)
  | 0x20 => (g.sampleDrop.toNat, s)
  | _ => (0, s)

/-- MATRIX of a tile (R313): a read of MTX_MAC_LO latches the upper half of the counter. -/
def State.rdMatrix (s : State) (t o : Nat) : Nat × State :=
  let m := s.mtx t
  let runs := m.cmd.any (·.running)
  match o with
  | 0x00 => (b2n m.pause, s)
  | 0x04 => (pack ([(1, b2n m.cmd.isSome), (1, b2n (m.pause && !runs)), (2, b2n s.cap.hold)] ++ (List.range 4).map fun a => (3, s.arrayState t a)), s)
  | 0x08 => (pack [(4, m.data.toNat), (4, m.hard.toNat)], s)
  | 0x0C => (m.err.toNat, s)
  | 0x10 => (m.descCnt.toNat, s)
  | 0x14 => (loWord m.macCnt.toNat, s.modMtx t fun m => { m with macHi := BitVec.ofNat 32 (hiWord m.macCnt.toNat) })
  | 0x18 => (m.macHi.toNat, s)
  | 0x1C => (m.busyCyc.toNat, s)
  | 0x20 => (m.stallCyc.toNat, s)
  | 0x24 => (m.holdCyc.toNat, s)
  | _ => (0, s)

/-! ### The NVMe controller's properties (R519–R525; what the spec leaves to NVMe 2.1 is PRESUMED from it, assumption 30) -/

/-- CAP (R521): MQES, CQR, TO in 500 ms, CSS and MPSMAX. -/
def nvmeCap : Nat := 0xFFFF + 2 ^ 16 + 10 * 2 ^ 24 + 0x41 * 2 ^ 37 + 4 * 2 ^ 52

/-- A controller property (offset within 0x000–0xFFF). -/
def State.rdNvme (s : State) (o : Nat) : Nat :=
  let n := s.host.nvme
  match o with
  | 0x00 => loWord nvmeCap
  | 0x04 => hiWord nvmeCap
  | 0x08 => 0x00020100
  | 0x0C | 0x10 => n.intms.toNat
  | 0x14 => n.cc.toNat
  | 0x1C => pack [(1, b2n n.rdy), (1, b2n n.cfs), (2, n.shst.toNat)]
  | 0x24 => n.aqa.toNat
  | 0x28 => loWord n.asq.toNat
  | 0x2C => hiWord n.asq.toNat
  | 0x30 => loWord n.acq.toNat
  | 0x34 => hiWord n.acq.toNat
  | _ => 0

/-- Bytes of the MSI-X table: 129 entries of 16 bytes (R520). -/
def msixBytes : Nat := 2064

/-- A word of the MSI-X table. -/
def State.rdMsix (s : State) (o : Nat) : Nat :=
  if o < msixBytes then leNat ((List.range 4).map fun i => s.host.msixByte (o + i)) else 0

/-- A word of the pending bit array. -/
def State.rdPba (s : State) (o : Nat) : Nat := pack ((List.range 32).map fun i => (1, b2n (s.host.pba.contains (8 * o + i))))

/-! ### One word -/

/-- A read of a word of a block, at its offset in the window (R572). -/
def State.blockRead (s : State) (b : Block) (w : Nat) : Nat × State :=
  let o := w % 4096
  match b with
  | .nvme => (if w < 4096 then s.rdNvme o else 0, s)
  | .msixTable => (s.rdMsix o, s)
  | .msixPba => (s.rdPba o, s)
  | .system => (s.rdSystem o, s)
  | .host => (s.rdHost o, s)
  | .grist => (s.rdGrist o, s)
  | .clock => (s.rdClock o, s)
  | .reset => (s.rdReset o, s)
  | .dispatch => (s.rdDispatch o, s)
  | .compose => (s.rdCompose o, s)
  | .meter => (s.rdMeter o, s)
  | .refine => (s.rdRefine o, s)
  | .flash => if o == 0x34 then s.rdChState else (s.rdFlash o, s)
  | .fabric => (s.rdFabric o, s)
  | .fault => (s.rdFault o, s)
  | .cask => (s.rdCask o, s)
  | .power => (s.rdPower o, s)
  | .module => (s.rdModule o, s)
  | .memory k => (s.rdMemory k o, s)
  | .tile t => (s.rdTile t o, s)
  | .gather t => s.rdGather t o
  | .matrix t => s.rdMatrix t o

/-- An access reached an unmapped window (R573, R580). -/
def State.unmappedAccess (s : State) (bar2 : Bool) (off : Nat) : State :=
  { s with sys := { s.sys with unmapped := true, errAddr := BitVec.ofNat 27 off, errBar2 := bar2 } }

/-- A read of one word of BAR0 (R567, R573). -/
def State.regRead (s : State) (off : Nat) : Word × State :=
  match windowBlock off with
  | some b => let (v, s) := s.blockRead b (off % 65536 / 4 * 4); (BitVec.ofNat 32 v, s)
  | none => (0, s.unmappedAccess false off)

/-- The BAR0 word and the bit that an alias word stands for (R575). -/
def aliased (off : Nat) : Nat × Nat := (off / 128 * 4, off / 4 % 32)

/-- A read of one alias word (R575, R576): those of the first four windows read 0. -/
def State.aliasRead (s : State) (off : Nat) : Word × State :=
  let (o, b) := aliased off
  if o < 0x40000 then (0, s)
  else match windowBlock o with
    | some _ => let (v, s) := s.regRead o; (BitVec.ofNat 32 (b2n (v.getLsbD b)), s)
    | none => (0, s.unmappedAccess true off)

end Sys2Proof.Machine
end

