-- ==== Sys2Proof/Machine/RegWrite.lean ====
section
/-! DEFINITION. Sys2Proof/Machine/RegWrite.lean: what a write of each register of BAR0 does, block by block (R9–R11, R572–R578 and the rules of the
chapters on writes to busy blocks), the bit-alias words, and accesses of several words. -/
namespace Sys2Proof.Machine

/-- Clear the bits of a W1C field written with 1. -/
def w1c {n : Nat} (cur : BitVec n) (v : Nat) : BitVec n := cur &&& ~~~ BitVec.ofNat n v

/-- A flag of one bit, cleared by a 1 at bit `i` (R9). -/
def w1cBit (cur : Bool) (v : Nat) (i : Nat) : Bool := cur && !v.testBit i

/-- Replace the low or the high word of a 64-bit register. -/
def setLo {n : Nat} (cur : BitVec n) (v : Nat) : BitVec n := BitVec.ofNat n (cur.toNat / 2 ^ 32 * 2 ^ 32 + v)
def setHi {n : Nat} (cur : BitVec n) (v : Nat) : BitVec n := BitVec.ofNat n (cur.toNat % 2 ^ 32 + 2 ^ 32 * v)

/-! ### SYSTEM, HOST, DISPATCH, CLOCK, RESET -/

/-- SYSTEM (R580, R586). -/
def State.wrSystem (s : State) (o v : Nat) : State :=
  match o with
  | 0x14 => { s with sys := { s.sys with partial_ := w1cBit s.sys.partial_ v 0, unmapped := w1cBit s.sys.unmapped v 1, mgmtFmt := w1cBit s.sys.mgmtFmt v 2 } }
  | 0x1C => { s with sys := { s.sys with scratch := BitVec.ofNat 32 v } }
  | _ => s

/-- HOST (R539). -/
def State.wrHost (s : State) (o v : Nat) : State :=
  match o with
  | 0x08 => { s with host := { s.host with err := w1c s.host.err v } }
  | _ => s

/-- DISPATCH (R581, R586). -/
def State.wrDispatch (s : State) (o v : Nat) : State :=
  match o with
  | 0x14 => if v.testBit 0 then s.maxClr else s
  | _ => s

/-- CLOCK (R563, R565). -/
def State.wrClock (s : State) (o v : Nat) : State :=
  match o with
  | 0x00 => { s with clk := { s.clk with refLost := w1cBit s.clk.refLost v 3, auxUnlock := w1cBit s.clk.auxUnlock v 4 } }
  | 0x08 => { s with clk := { s.clk with domSel := BitVec.ofNat 8 v } }
  | 0x0C => s.tapWrite (BitVec.ofNat 4 v)
  | 0x10 => { s with clk := { s.clk with swNoTap := w1cBit s.clk.swNoTap v 0, swTimeout := w1cBit s.clk.swTimeout v 1, swBusy := w1cBit s.clk.swBusy v 2 } }
  | 0x14 => { s with clk := { s.clk with gateSel := BitVec.ofNat 11 v } }
  | 0x18 => s.gateWrite (v.testBit 0)
  | 0x1C => { s with clk := { s.clk with gateRefused := w1cBit s.clk.gateRefused v 0 } }
  | _ => s

/-- RESET (R562, R564). -/
def State.wrReset (s : State) (o v : Nat) : State :=
  match o with
  | 0x00 => s.rstCtrl (BitVec.ofNat 32 v)
  | 0x04 => if v % 65536 == 0x4D52 then s.moduleReset 2 else s
  | 0x08 => { s with rst := { s.rst with refused := w1cBit s.rst.refused v 2 } }
  | _ => s

/-! ### GRIST, COMPOSE, METER, REFINE -/

/-- GRIST (R83, R578): a locked minimum stays as it is, and a lock bit is only ever set. -/
def State.wrGrist (s : State) (o v : Nat) (r : Reads) : State :=
  let g := s.grist
  match o with
  | 0x00 => s.gristCtrl (BitVec.ofNat 32 v) r
  | 0x04 => { s with grist := { g with refused := w1cBit g.refused v 3 } }
  | 0x10 => { s with grist := { g with hostAddr := setLo g.hostAddr v } }
  | 0x14 => { s with grist := { g with hostAddr := setHi g.hostAddr v } }
  | 0x18 => { s with grist := { g with hostLen := BitVec.ofNat 32 v } }
  | 0x1C => { s with grist := { g with svnMin := if g.locked then g.svnMin else BitVec.ofNat 16 v, locked := g.locked || v.testBit 31 } }
  | 0x20 => { s with grist := { g with revoke := g.revoke ||| BitVec.ofNat 4 v } }
  | 0x70 => { s with grist := { g with phashSel := BitVec.ofNat 5 v } }
  | _ => s

/-- COMPOSE (R490, R513, R515). -/
def State.wrCompose (s : State) (o v : Nat) (r : Reads) : State :=
  let c := s.comp
  match o with
  | 0x04 =>
    let s := { s with comp := { c with alone := v.testBit 16 } }
    if v.testBit 16 then s.confirmMap.kick else s
  | 0x08 => if v.testBit 0 then (s.compGo r.buf).kick else s
  | 0x0C => { s with comp := { c with refused := w1cBit c.refused v 1 } }
  | 0x10 => { s with comp := { c with hostAddr := setLo c.hostAddr v } }
  | 0x14 => { s with comp := { c with hostAddr := setHi c.hostAddr v } }
  | 0x18 => { s with comp := { c with hostLen := BitVec.ofNat 32 v } }
  | 0x20 => { s with comp := { c with shardSel := BitVec.ofNat 10 v } }
  | _ => s

/-- METER (R514, R515). -/
def State.wrMeter (s : State) (o v : Nat) : State :=
  match o with
  | 0x00 => { s with meter := { s.meter with sel := BitVec.ofNat 9 v } }
  | 0x04 => if v.testBit 0 then s.meterSnap else s
  | _ => if 0x80 ≤ o && o ≤ 0x98 then { s with meter := { s.meter with coef := setNth s.meter.coef ((o - 0x80) / 4) (BitVec.ofNat 32 v) } } else s

/-- REFINE (R342, R343). -/
def State.wrRefine (s : State) (o v : Nat) : State :=
  match o with
  | 0x00 => { s with refn := { s.refn with selPart := BitVec.ofNat 5 v, selIndex := BitVec.ofNat 4 (v / 256) } }
  | 0x04 => s.refCmd v
  | _ => s

/-! ### FLASH -/

/-- FLS_CMD is written (R428, R429, R427, R436). -/
def State.flashCmd (s : State) (v : Nat) : State :=
  let c := v % 8
  let s := { s with fls := { s.fls with cmdCarrier := BitVec.ofNat 3 c } }
  match v / 8 % 8 with
  | 1 => (s.requestRemoval c).smart
  | 2 => (s.forceRemoval c).smart
  | 3 => s.cancelRemoval c
  | 4 => s.armAdoption c
  | _ => s

/-- FLS_LADDER is written (R437): reads already past the new FAST_STEPS start their rebuild. -/
def State.setLadder (s : State) (v : Nat) : State :=
  let s := { s with fls := { s.fls with fastSteps := BitVec.ofNat 4 v, weakStep := BitVec.ofNat 4 (v / 16) } }
  let fast := s.fastSteps
  s.mapReads (fun _ => true) fun r => if r.got.isNone && !r.rebuildFailed && r.step > fast then { r with rebuilding := true } else r

/-- FLASH (R436, R437). -/
def State.wrFlash (s : State) (o v : Nat) : State :=
  let f := s.fls
  match o with
  | 0x08 => s.flashCmd v
  | 0x0C => { s with fls := { f with kilnStart := BitVec.ofNat 8 v, kilnHigh := BitVec.ofNat 8 (v / 256) } }
  | 0x10 => { s with fls := { f with gcStart := BitVec.ofNat 8 v, gcUrgent := BitVec.ofNat 8 (v / 256) } }
  | 0x14 => { s with fls := { f with closeUs := BitVec.ofNat 16 v } }
  | 0x18 => { s with fls := { f with spread := BitVec.ofNat 16 v } }
  | 0x1C => s.setLadder v
  | 0x20 => { s with fls := { f with patrolDays := BitVec.ofNat 8 v } }
  | 0x24 => s.setMbps (BitVec.ofNat 16 v)
  | 0x2C => { s with fls := { f with err := w1c f.err v } }
  | 0x30 => { s with fls := { f with chSel := BitVec.ofNat 5 v } }
  | _ => s

/-! ### FABRIC -/

/-- Change the egress queue that FAB_CH_SEL selects. -/
def State.modSelQueue (s : State) (f : EgQueue → EgQueue) : State :=
  s.modChan s.fab.chSel.toNat fun k => { k with queues := setNth k.queues s.fab.qSel.toNat (f (nth k.queues s.fab.qSel.toNat {})) }

/-- FAB_Q_RATE is written (R472, R481): a rate fills the bucket; 0 lets a queue that its shaper held go, with its head tag computed again. -/
def State.setRate (s : State) (v : Nat) : State :=
  let c := s.fab.chSel.toNat
  let cls := s.fab.qSel.toNat
  let q := (nth (s.chan c).queues cls {}).credited s.time.up
  if v % 2 ^ 24 == 0 then
    let held := q.rate != 0 && q.credit < 0 && !q.msgs.isEmpty
    let s := s.modSelQueue fun q => { q with rate := 0 }
    if held then s.tagFresh c cls else s
  else s.modSelQueue fun q => { q with rate := BitVec.ofNat 24 v }.fill s.time.up

/-- FAB_Q_BURST is written (R481): the credit is clamped to the new burst at once. -/
def State.setBurst (s : State) (v : Nat) : State :=
  let up := s.time.up
  s.modSelQueue fun q =>
    let q := { q.credited up with burst := BitVec.ofNat 16 v }
    { q with credit := min q.credit (max 1 q.burst.toNat * 64 * 8000 : Nat) }

/-- FAB_POL_BURST is written (R481): the buckets of bindings that use the profile are clamped. -/
def State.setPolBurst (s : State) (v : Nat) : State :=
  let n := s.fab.polSel.toNat
  let s := s.modPol n fun p => { p with cbs := BitVec.ofNat 16 v, pbs := BitVec.ofNat 16 (v / 65536) }
  let p := s.pol n
  let uses (key : Nat) : Bool := s.grist.parts.any fun q => q.tenants.any fun b => bindKey b.tenant b.service == key && b.policer == n
  let clamp (e : Nat × Bucket) : Nat × Bucket :=
    if uses e.1 then (e.1, { e.2 with tp := min e.2.tp (p.pbs.toNat * 64 * 8000), tc := min e.2.tc (p.cbs.toNat * 64 * 8000) }) else e
  { s with fab := { s.fab with buckets := s.fab.buckets.map clamp } }

/-- FABRIC (R480, R481). -/
def State.wrFabric (s : State) (o v : Nat) : State :=
  let f := s.fab
  let c := f.chSel.toNat
  let n := f.polSel.toNat
  match o with
  | 0x04 => { s with fab := { f with etype := BitVec.ofNat 16 v, vlan := v.testBit 16, seg1k := v.testBit 17, vid := BitVec.ofNat 12 (v / 2 ^ 18) } }
  | 0x08 => { s with fab := { f with mac := setLo f.mac v } }
  | 0x0C => { s with fab := { f with mac := setHi f.mac (v % 65536) } }
  | 0x10 => { s with fab := { f with self := v.testBit 0, domain := BitVec.ofNat 8 (v / 256), prio1 := BitVec.ofNat 8 (v / 2 ^ 16), prio2 := BitVec.ofNat 8 (v / 2 ^ 24) } }
  | 0x14 => { s with time := { s.time with fault := w1cBit s.time.fault v 2 } }
  | 0x18 => { s with time := { s.time with setTo := setLo s.time.setTo v } }
  | 0x1C => { s with time := { s.time with setTo := setHi s.time.setTo v } }
  | 0x20 => { s with fab := { f with chSel := BitVec.ofNat 7 v, qSel := BitVec.ofNat 3 (v / 256) } }
  | 0x2C => s.modChan c fun k => { k with compat := v.testBit 0, overhead := BitVec.ofNat 6 (v / 256) }
  | 0x30 => s.modChan c fun k => { k with err := w1c k.err v }
  | 0x3C => s.modChan c fun k => { k with asym := BitVec.ofNat 16 v }
  | 0x40 => s.modSelQueue fun q => { q with weight := BitVec.ofNat 8 v }
  | 0x44 => s.setRate v
  | 0x48 => s.setBurst v
  | 0x60 => { s with fab := { f with polSel := BitVec.ofNat 6 v } }
  | 0x64 => s.modPol n fun p => { p with cir := BitVec.ofNat 24 v }
  | 0x68 => s.modPol n fun p => { p with pir := BitVec.ofNat 24 v }
  | 0x6C => s.setPolBurst v
  | 0x70 => s.modPol n fun p => { p with aware := v.testBit 0, redDrop := v.testBit 1, ylim := BitVec.ofNat 7 (v / 256) }
  | _ => s

/-! ### FAULT, CASK, POWER, MODULE -/

/-- FAULT (R614, R616). -/
def State.wrFault (s : State) (o v : Nat) : State :=
  let f := s.flt
  match o with
  | 0x04 => { s with flt := { f with sel := BitVec.ofNat 32 v } }
  | 0x80 => { s with flt := { f with classSel := BitVec.ofNat 8 v } }
  | 0x88 => { s with flt := { f with mask := BitVec.ofNat 32 v } }
  | 0x100 => s.fltTest (BitVec.ofNat 32 v)
  | 0x104 => { s with flt := { f with refused := w1cBit f.refused v 26 } }
  | 0x108 => { s with flt := { f with period := BitVec.ofNat 16 v } }
  | _ => s

/-- CASK (R615, R616). -/
def State.wrCask (s : State) (o v : Nat) (r : Reads) : State :=
  let c := s.cask
  match o with
  | 0x00 => s.caskCtrl (BitVec.ofNat 32 v)
  | 0x04 => { s with cask := { c with parts := BitVec.ofNat 32 v } }
  | 0x08 => { s with cask := { c with collector := BitVec.ofNat 16 v } }
  | 0x18 => { s with cask := { c with hostAddr := setLo c.hostAddr v } }
  | 0x1C => { s with cask := { c with hostAddr := setHi c.hostAddr v } }
  | 0x20 => { s with cask := { c with hostLen := BitVec.ofNat 32 v } }
  | 0x24 => if v.testBit 0 then s.caskFeed r.buf else s
  | _ => s

/-- The horizon that a value of HORIZON_S asks for: values outside 60–3,600 act as the nearest end (R636). -/
def horizonOf (v : Nat) : Nat := max 60 (min 3600 v)

/-- POWER (R636, R637). -/
def State.wrPower (s : State) (o v : Nat) : State :=
  let p := s.pwr
  match o with
  | 0x04 => s.drillKey (BitVec.ofNat 16 v)
  | 0x08 => { s with pwr := { p with errLow := w1cBit p.errLow v 0, errIncomplete := w1cBit p.errIncomplete v 1,
                                     errTrail := w1cBit p.errTrail v 2, errJournal := w1cBit p.errJournal v 3 } }
  | 0x18 => { s with pwr := { p with horizon := BitVec.ofNat 16 v, horizonUsed := BitVec.ofNat 16 (horizonOf (v % 65536)) } }
  | _ => s

/-- MODULE (R666, R667). -/
def State.wrModule (s : State) (o v : Nat) : State :=
  let m := s.mod
  match o with
  | 0x04 => s.modLocate (BitVec.ofNat 32 v)
  | 0x0C => { s with mod := { m with tempSel := BitVec.ofNat 6 v } }
  | 0x14 => { s with mod := { m with kTrip := w1c m.kTrip (v / 256) } }
  | 0x1C => { s with mod := { m with event := w1c m.event (v / 256) } }
  | 0x20 => { s with mod := { m with err := w1c m.err v } }
  | _ => s

/-! ### MEMORY, TILE, GATHER, MATRIX -/

/-- MEMORY of a stack (R379, R380). -/
def State.wrMemory (s : State) (k o v : Nat) : State :=
  match o with
  | 0x04 => if v.testBit 0 then s.trainReq k else s
  | 0x14 => s.modMem k fun m => { m with err := w1c m.err v }
  | 0x40 =>
    let s := if (s.memCtl k).pause == v.testBit 0 then s else s.setMshPause k (v.testBit 0)
    if v.testBit 1 then s.modMem k fun m => { m with holdMax := 0 } else s
  | 0x48 => s.modMem k fun m => { m with bankSel := BitVec.ofNat 10 v }
  | _ => s

/-- A core's bits of a TILE_FENCE write (R272–R278): its CORE bit and its FORCE bit. -/
def State.writeCoreFence (s : State) (core : Nat) (b force : Bool) : State :=
  let old := (s.tile (tileOf core)).core.getLsbD (coreNo core)
  if !b then (if old then s.unfenceReq core else s)
  else
    let s := if old then s else if force then s.setCoreBit core true else s.fenceCore core
    if force then s.forceCore core else s

/-- An array's bit of a TILE_FENCE write (R310, R311, R314). -/
def State.writeArrayFence (s : State) (t a : Nat) (b : Bool) : State :=
  let old := (s.tile t).array.getLsbD a
  if b == old then s else if b then s.fenceArray t a else s.unfenceArray t a

/-- TILE_FENCE is written (R276, R278, R314, R237). -/
def State.tileFence (s : State) (t v : Nat) : State :=
  let s := (List.range 9).foldl (fun (s : State) (c : Nat) => s.writeCoreFence (9 * t + c) (v.testBit c) (v.testBit (16 + c))) s
  let s := (List.range 4).foldl (fun (s : State) (a : Nat) => s.writeArrayFence t a (v.testBit (9 + a))) s
  let s := if (s.tile t).gather == v.testBit 13 then s else s.setGatherFence t fun r => { r with gather := v.testBit 13 }
  s.kick

/-- TILE_DRAIN.LIMIT_US is written (R278, R314): a limit already passed hard-fences at once. -/
def State.setLimit (s : State) (t v : Nat) : State :=
  let s := s.modTile t fun r => { r with limitUs := BitVec.ofNat 16 v }
  let lim := v % 65536 * 1000
  let s := (List.range 9).foldl (fun (s : State) (c : Nat) =>
    let k := s.core (9 * t + c)
    if k.st == .draining && k.drainAt + lim ≤ s.time.up then s.hardFence (9 * t + c) else s) s
  let s := (List.range 4).foldl (fun (s : State) (a : Nat) =>
    if s.arrayDraining t a && (s.mtx t).drainAt.get 0 a + lim ≤ s.time.up then s.hardFenceArray t a else s) s
  s.kick

/-- TILE of a tile (R276, R278). -/
def State.wrTile (s : State) (t o v : Nat) : State :=
  match o with
  | 0x00 => s.tileFence t v
  | 0x04 => s.setLimit t v
  | 0x10 => s.modTile t fun r => { r with selCtx := BitVec.ofNat 4 v, selCore := BitVec.ofNat 4 (v / 16) }
  | 0x20 => s.modTile t fun r => { r with cfault := w1c r.cfault v }
  | _ => s

/-- GATHER of a tile (R235, R236). -/
def State.wrGather (s : State) (t o v : Nat) : State :=
  match o with
  | 0x00 =>
    let s := if v.testBit 1 then s.flushPaths t else s
    if (s.gth t).pause == v.testBit 0 then s else s.setGthPause t (v.testBit 0)
  | 0x08 => s.modGth t fun g => { g with err := w1c g.err v }
  | _ => s

/-- MATRIX of a tile (R313, R314). -/
def State.wrMatrix (s : State) (t o v : Nat) : State :=
  match o with
  | 0x00 =>
    let s := if (s.mtx t).pause == v.testBit 0 then s else s.setMtxPause t (v.testBit 0)
    (List.range 4).foldl (fun (s : State) (a : Nat) => if v.testBit (1 + a) then s.forceArray t a else s) s
  | 0x0C => s.modMtx t fun m => { m with err := w1c m.err v }
  | _ => s

/-! ### The NVMe controller block and the MSI-X table -/

/-- The fields of CC (assumption 30); the other bits read 0. -/
def ccMask : Nat := 0x01FFFFF1

/-- A controller property is written (R519, R522–R525). -/
def State.wrNvme (s : State) (o v : Nat) : State :=
  let n := s.host.nvme
  match o with
  | 0x0C => s.modNvme fun n => { n with intms := n.intms ||| BitVec.ofNat 32 v }
  | 0x10 => s.modNvme fun n => { n with intms := w1c n.intms v }
  | 0x14 => s.ccWrite (BitVec.ofNat 32 (v &&& ccMask))
  | 0x24 => s.modNvme fun n => { n with aqa := BitVec.ofNat 32 (v &&& 0x0FFF0FFF) }
  | 0x28 => s.modNvme fun n' => { n' with asq := setLo n.asq (v / 4096 * 4096) }
  | 0x2C => s.modNvme fun n' => { n' with asq := setHi n.asq v }
  | 0x30 => s.modNvme fun n' => { n' with acq := setLo n.acq (v / 4096 * 4096) }
  | 0x34 => s.modNvme fun n' => { n' with acq := setHi n.acq v }
  | _ => s

/-- SQyTDBL is written (R521, R524): a queue that does not exist, or a value beyond it, has no effect. -/
def State.sqDoorbell (s : State) (y v : Nat) : State :=
  match s.sq? y with
  | some q => if v % 65536 < q.size then s.setSq { q with tail := v % 65536 } else s
  | none => s

/-- CQyHDBL is written. -/
def State.cqDoorbell (s : State) (y v : Nat) : State :=
  match s.cq? y with
  | some q => if v % 65536 < q.size then s.setCq { q with head := v % 65536 } else s
  | none => s

/-- A doorbell is written, at its offset within 0x1000–0x1FFF (R519, R521). -/
def State.doorbell (s : State) (d v : Nat) : State := if d % 8 < 4 then s.sqDoorbell (d / 8) v else s.cqDoorbell (d / 8) v

/-- A word of the MSI-X table is written (R520): of the vector control word only the mask bit is kept, and a vector that is unmasked sends what is
pending (assumption 30). -/
def State.wrMsix (s : State) (o v : Nat) : State :=
  if o ≥ msixBytes then s
  else
    let v := if o % 16 == 12 then v % 2 else v
    let put (m : List (Nat × Byte)) (i : Nat) : List (Nat × Byte) :=
      let b : Byte := BitVec.ofNat 8 (v / 256 ^ i)
      SMap.set m 0 (o + i) (if (o + i) % 16 == 12 then b ^^^ 1 else b)
    let s := { s with host := { s.host with msix := (List.range 4).foldl put s.host.msix } }
    let n := o / 16
    if s.host.pba.contains n && !s.host.masked n && s.host.msixEnabled then
      { s with host := { s.host with pba := s.host.pba.filter (· != n) } }.emit (.irq n)
    else s

/-! ### One word -/

/-- A write of a word of a block, at its offset in the window (R572). -/
def State.blockWrite (s : State) (b : Block) (w v : Nat) (r : Reads) : State :=
  let o := w % 4096
  match b with
  | .nvme => if w < 4096 then s.wrNvme o v else s.doorbell o v
  | .msixTable => s.wrMsix o v
  | .msixPba => s
  | .system => s.wrSystem o v
  | .host => s.wrHost o v
  | .grist => s.wrGrist o v r
  | .clock => s.wrClock o v
  | .reset => s.wrReset o v
  | .dispatch => s.wrDispatch o v
  | .compose => s.wrCompose o v r
  | .meter => s.wrMeter o v
  | .refine => s.wrRefine o v
  | .flash => s.wrFlash o v
  | .fabric => s.wrFabric o v
  | .fault => s.wrFault o v
  | .cask => s.wrCask o v r
  | .power => s.wrPower o v
  | .module => s.wrModule o v
  | .memory k => s.wrMemory k o v
  | .tile t => s.wrTile t o v
  | .gather t => s.wrGather t o v
  | .matrix t => s.wrMatrix t o v

/-- A write of one word of BAR0 (R11, R567, R573). -/
def State.regWrite (s : State) (off : Nat) (v : Word) (r : Reads) : State :=
  match windowBlock off with
  | some b => s.blockWrite b (off % 65536 / 4 * 4) v.toNat r
  | none => s.unmappedAccess false off

/-- The word that a write of `v` to bit `b` of a register carries (R577): the current value of the other readable and writable bits, 0 elsewhere. -/
def aliasWord (bits : RegBits) (cur : Word) (b : Nat) (v : Bool) : Word := bput (cur &&& BitVec.ofNat 32 bits.rw) b v

/-- A write of one alias word (R575, R577): one whole-word write; no effect where the bit is reserved or the word unassigned. -/
def State.aliasWrite (s : State) (off : Nat) (v : Word) (r : Reads) : State :=
  let (o, b) := aliased off
  if o < 0x40000 then s
  else match windowBlock o with
    | none => s.unmappedAccess true off
    | some blk =>
      match blk.bits (o % 4096) with
      | some bits => if bits.has b then s.regWrite o (aliasWord bits (s.regRead o).1 b (v.getLsbD 0)) r else s
      | none => s

/-! ### Accesses of several words (R567) and register access messages (R582) -/

/-- A read of a word of a space. -/
def State.spaceRead (s : State) (sp : RegSpace) (off : Nat) : Word × State :=
  match sp with | .bar0 => s.regRead off | .bar2 => s.aliasRead off

/-- A write of a word of a space by a path (R608: recorded while capture is on). -/
def State.spaceWrite (s : State) (path : RegPath) (sp : RegSpace) (off : Nat) (v : Word) (r : Reads) : State :=
  s.viaReg path sp off v.toNat fun s => match sp with | .bar0 => s.regWrite off v r | .bar2 => s.aliasWrite off v r

/-- A write word whose byte enables are not all set is discarded (R567). -/
def State.partialWrite (s : State) (sp : RegSpace) (off : Nat) : State :=
  if s.regsLive then
    { s with sys := { s.sys with partial_ := true, errAddr := BitVec.ofNat 27 off, errBar2 := match sp with | .bar0 => false | .bar2 => true } }
  else s

/-- The words of a write in ascending order, each a separate access; the flag says that all its byte enables are set. -/
def State.writeWords (s : State) (path : RegPath) (sp : RegSpace) (off : Nat) (words : List (Word × Bool)) (r : Reads) : State :=
  match words with
  | [] => s
  | (v, full) :: rest =>
    (if full then s.spaceWrite path sp off v r else s.partialWrite sp off).writeWords path sp (off + 4) rest r

/-- The words of a read in ascending order. -/
def State.readWords (s : State) (sp : RegSpace) (off : Nat) : Nat → List Word × State
  | 0 => ([], s)
  | n + 1 =>
    let (v, s) := s.spaceRead sp off
    let (l, s) := s.readWords sp (off + 4) n
    (v :: l, s)

/-- Bytes of a space (R518). -/
def spaceBytes (sp : RegSpace) : Nat := match sp with | .bar0 => 0x4000000 | .bar2 => 0x8000000

/-- A register access message that keeps the table of R582: command, space, offset, count and data. -/
structure RegMsg where
  write : Bool
  space : RegSpace
  off : Nat
  count : Nat
  data : List Word
  deriving DecidableEq, Repr

/-- Read the body of a register access message; none where it breaks the table or runs past the end of its space. -/
def parseRegMsg (b : Bytes) : Option RegMsg :=
  let cmd := fieldAt b 0 1
  let sp : RegSpace := if fieldAt b 1 1 == 0 then .bar0 else .bar2
  let n := fieldAt b 2 1
  let off := fieldAt b 4 4
  let len := if cmd == 2 then 8 + 4 * n else 8
  if (cmd == 1 || cmd == 2) && fieldAt b 1 1 ≤ 1 && 1 ≤ n && n ≤ 16 && fieldAt b 3 1 == 0 && off % 4 == 0 && b.length == len && off + 4 * n ≤ spaceBytes sp
  then some ⟨cmd == 2, sp, off, n, (List.range (if cmd == 2 then n else 0)).map fun i => BitVec.ofNat 32 (fieldAt b (8 + 4 * i) 4)⟩
  else none

/-- A response body (R582). -/
def regResponse (status : Nat) (data : List Word) : Bytes := [BitVec.ofNat 8 status, 0, 0, 0] ++ (data.map fun v => toLE 4 v.toNat).flatten

/-- A register access message (R579, R582–R584). -/
def State.regAccess (s : State) (b : Bytes) (r : Reads) : State :=
  if !s.regsLive then (if s.pwr.off then s else s.emit (.mgmt (regResponse 2 [])))
  else match parseRegMsg b with
    | none => { s with sys := { s.sys with mgmtFmt := true } }.emit (.mgmt (regResponse 1 []))
    | some m =>
      if m.write then (s.writeWords .mgmt m.space m.off (m.data.map fun v => (v, true)) r).emit (.mgmt (regResponse 0 []))
      else
        let (l, s) := s.readWords m.space m.off m.count
        s.emit (.mgmt (regResponse 0 l))

end Sys2Proof.Machine
end

