-- ==== Sys2Proof/Machine/RegCmds.lean ====
section
/-! DEFINITION. Sys2Proof/Machine/RegCmds.lean: the commands that are register accesses: the general ones (R567, R577, R582), and every row of the table
that is the write of one register's action, performed as that write through either path (R566, R583). A field of the written word that the
command does not name carries the value that the register reads. -/
namespace Sys2Proof.Machine

/-! ### General accesses -/

/-- REGISTER_WRITE (R11, R567): words from a BAR0 offset on, each with whether all its byte enables are set. -/
def execRegisterWrite (path : RegPath) (off : BitVec 26) (words : List (BitVec 32 × Bool)) (reads : Reads) (s : State) : Res :=
  presented (wordsOk path off.toNat 0x4000000 words) <|
  settled (s.writeWords path .bar0 off.toNat words reads)

/-- BIT_ALIAS_WRITE (R577): the same in BAR2. -/
def execBitAliasWrite (path : RegPath) (off : BitVec 27) (words : List (BitVec 32 × Bool)) (reads : Reads) (s : State) : Res :=
  presented (wordsOk path off.toNat 0x8000000 words) <|
  settled (s.writeWords path .bar2 off.toNat words reads)

/-- REGISTER_ACCESS_READ (R582): the request body. -/
def execRegisterAccessRead (body : Bytes) (s : State) : Res :=
  presented (fieldAt body 0 1 != 2) <|
  settled (s.regAccess body {})

/-- REGISTER_ACCESS_WRITE (R582). -/
def execRegisterAccessWrite (body : Bytes) (reads : Reads) (s : State) : Res :=
  presented (fieldAt body 0 1 != 1) <|
  settled (s.regAccess body reads)

/-- One whole word written to a BAR0 register by a path. -/
def State.regVia (s : State) (path : RegPath) (off v : Nat) (r : Reads := {}) : State := s.spaceWrite path .bar0 off (BitVec.ofNat 32 v) r

/-! ### Offsets of the registers with actions (R574 and the register tables) -/

def gristCtrlAt : Nat := 0x60000
def clkSrcSelAt : Nat := 0x7000C
def clkGateAt : Nat := 0x70018
def rstCtrlAt : Nat := 0x80000
def rstModuleAt : Nat := 0x80004
def dispCtrlAt : Nat := 0x90014
def compCtrlAt : Nat := 0xA0008
def meterSnapAt : Nat := 0xB0004
def refCmdAt : Nat := 0xC0004
def flsCmdAt : Nat := 0xD0008
def fltTestAt : Nat := 0xF0100
def caskCtrlAt : Nat := 0x100000
def caskFeedAt : Nat := 0x100024
def pwrCtrlAt : Nat := 0x110004
def modLocateAt : Nat := 0x120004
def memAt (k o : Nat) : Nat := 0x200000 + 65536 * k + o
def tileFenceAt (t : Nat) : Nat := 0x400000 + 65536 * t
def gthCtrlAt (t : Nat) : Nat := 0xA00000 + 65536 * t
def mtxCtrlAt (t : Nat) : Nat := 0x1000000 + 65536 * t

/-! ### GRIST (R67–R74, R83) -/

/-- The value that a GO write carries. -/
def goWord (src : Nat) (persist : Bool) (drainMs : BitVec 8) : Nat := 1 + 2 * src + 8 * b2n persist + 256 * drainMs.toNat

/-- GO_FLASH_STORE (R67, R74). The other operands are the fields that the same write carries, and what the load reads. -/
def execGoFlashStore (path : RegPath) (persist : Bool) (drainMs : BitVec 8) (reads : Reads) (s : State) : Res :=
  settled (s.regVia path gristCtrlAt (goWord 0 persist drainMs) reads)

/-- GO_INACTIVE_SLOT (R74). -/
def execGoInactiveSlot (path : RegPath) (persist : Bool) (drainMs : BitVec 8) (reads : Reads) (s : State) : Res :=
  settled (s.regVia path gristCtrlAt (goWord 1 persist drainMs) reads)

/-- GO_HOST_BUFFER (R73, R74, R77). -/
def execGoHostBuffer (path : RegPath) (persist : Bool) (drainMs : BitVec 8) (reads : Reads) (s : State) : Res :=
  settled (s.regVia path gristCtrlAt (goWord 2 persist drainMs) reads)

/-- GO_SOURCE_RESERVED (R74). -/
def execGoSourceReserved (path : RegPath) (persist : Bool) (drainMs : BitVec 8) (s : State) : Res :=
  settled (s.regVia path gristCtrlAt (goWord 3 persist drainMs))

/-! ### CLOCK and RESET (R552, R557, R560–R564) -/

/-- TAP_SWITCH (R552): CLK_SRC_SEL.TAP is written for the domain that CLK_DOM_SEL selects. -/
def execTapSwitch (path : RegPath) (tap : BitVec 4) (s : State) : Res := settled (s.regVia path clkSrcSelAt tap.toNat)

/-- GATE_WRITE (R557): CLK_GATE.GATE is written for the node that CLK_GATE_SEL selects. -/
def execGateWrite (path : RegPath) (gate : Bool) (s : State) : Res := settled (s.regVia path clkGateAt (b2n gate))

/-- RST_MODULE (R560): 0x4D52 is written to the key. -/
def execRstModule (path : RegPath) (s : State) : Res := settled (s.regVia path rstModuleAt 0x4D52)

/-- PARTITION_RESET (R561): RST_CTRL.KIND 2. -/
def execPartitionReset (path : RegPath) (part : Fin 32) (s : State) : Res :=
  settled (s.regVia path rstCtrlAt (2 + 256 * s.rst.tile.toNat + 65536 * s.rst.core.toNat + 2 ^ 24 * part.val))

/-- CORE_RESET (R559, R562): RST_CTRL.KIND 1. -/
def execCoreReset (path : RegPath) (tile : BitVec 7) (core : BitVec 4) (s : State) : Res :=
  settled (s.regVia path rstCtrlAt (1 + 256 * tile.toNat + 65536 * core.toNat + 2 ^ 24 * s.rst.part.toNat))

/-! ### DISPATCH, COMPOSE, METER, REFINE -/

/-- MAX_CLR (R581): DISP_CTRL.MAX_CLR is written. -/
def execMaxClr (path : RegPath) (s : State) : Res := settled (s.regVia path dispCtrlAt 1)

/-- COMP_GO (R486): `buf` is what the host returned for the buffer, none where the read failed. -/
def execCompGo (path : RegPath) (buf : Option Bytes) (s : State) : Res := settled (s.regVia path compCtrlAt 1 { buf := buf })

/-- METER_SNAP (R514): TAKE is written. -/
def execMeterSnap (path : RegPath) (s : State) : Res := settled (s.regVia path meterSnapAt 1)

/-- REF_RUN (R322): REF_CMD 1, for the record that REF_SEL names. -/
def execRefRun (path : RegPath) (s : State) : Res := settled (s.regVia path refCmdAt 1)

/-- REF_PAUSE (R322). -/
def execRefPause (path : RegPath) (s : State) : Res := settled (s.regVia path refCmdAt 2)

/-- REF_STOP (R322). -/
def execRefStop (path : RegPath) (s : State) : Res := settled (s.regVia path refCmdAt 3)

/-- REF_RESET_OPTIMISER (R322). -/
def execRefResetOptimiser (path : RegPath) (s : State) : Res := settled (s.regVia path refCmdAt 4)

/-- REF_EVALUATE_NOW (R322). -/
def execRefEvaluateNow (path : RegPath) (s : State) : Res := settled (s.regVia path refCmdAt 5)

/-! ### FLASH (R427–R429) -/

/-- REQUEST_REMOVAL (R428): FLS_CMD.OP 1. -/
def execRequestRemoval (path : RegPath) (carrier : Fin 8) (s : State) : Res := settled (s.regVia path flsCmdAt (carrier.val + 8))

/-- FORCE_REMOVAL (R429): OP 2. -/
def execForceRemoval (path : RegPath) (carrier : Fin 8) (s : State) : Res := settled (s.regVia path flsCmdAt (carrier.val + 16))

/-- CANCEL_REMOVAL (R428): OP 3. -/
def execCancelRemoval (path : RegPath) (carrier : Fin 8) (s : State) : Res := settled (s.regVia path flsCmdAt (carrier.val + 24))

/-- ARM_ADOPTION (R427): OP 4. -/
def execArmAdoption (path : RegPath) (slot : Fin 8) (s : State) : Res := settled (s.regVia path flsCmdAt (slot.val + 32))

/-! ### FAULT and CASK (R596, R605–R616) -/

/-- The value that requests a test of a kind (R614). -/
def fltTestWord (kind : Nat) (unit : BitVec 10) : Nat := kind + 256 * unit.toNat + 2 ^ 31

/-- CORE_TEST (R596): kind 1. -/
def execCoreTest (path : RegPath) (unit : BitVec 10) (s : State) : Res := settled (s.regVia path fltTestAt (fltTestWord 1 unit))

/-- ARRAY_TEST (R596): kind 2. -/
def execArrayTest (path : RegPath) (unit : BitVec 10) (s : State) : Res := settled (s.regVia path fltTestAt (fltTestWord 2 unit))

/-- GATHER_TEST (R596): kind 3. -/
def execGatherTest (path : RegPath) (unit : BitVec 10) (s : State) : Res := settled (s.regVia path fltTestAt (fltTestWord 3 unit))

/-- STACK_RETRAIN_TEST (R596): kind 4. -/
def execStackRetrainTest (path : RegPath) (unit : BitVec 10) (s : State) : Res := settled (s.regVia path fltTestAt (fltTestWord 4 unit))

/-- FLASH_CALIBRATION_TEST (R596): kind 5. -/
def execFlashCalibrationTest (path : RegPath) (unit : BitVec 10) (s : State) : Res := settled (s.regVia path fltTestAt (fltTestWord 5 unit))

/-- CAPTURE_START (R605): START with MODE 1. -/
def execCaptureStart (path : RegPath) (s : State) : Res := settled (s.regVia path caskCtrlAt 5)

/-- REPLAY_START (R610): START with MODE 2. -/
def execReplayStart (path : RegPath) (s : State) : Res := settled (s.regVia path caskCtrlAt 6)

/-- CASK_STOP (R609, R615): STOP, MODE as it stands. -/
def execCaskStop (path : RegPath) (s : State) : Res := settled (s.regVia path caskCtrlAt (8 + s.cask.mode.toNat))

/-- CASK_FEED (R610, R611): GO; `buf` is what the host returned for the feed buffer. -/
def execCaskFeed (path : RegPath) (buf : Option Bytes) (s : State) : Res := settled (s.regVia path caskFeedAt 1 { buf := buf })

/-! ### POWER and MODULE (R625, R664) -/

/-- DRILL (R625, R636): the key is written. -/
def execDrill (path : RegPath) (s : State) : Res := settled (s.regVia path pwrCtrlAt 0x464C)

/-- LAMP_TEST (R664): the locate bits keep their values. -/
def execLampTest (path : RegPath) (s : State) : Res :=
  settled (s.regVia path modLocateAt (b2n s.mod.locModule + 256 * s.mod.locCarrier.toNat + 65536))

/-! ### MEMORY (R355, R380) -/

/-- MEM_TRAIN_REQ (R355). -/
def execMemTrainReq (path : RegPath) (stack : Fin 16) (s : State) : Res := settled (s.regVia path (memAt stack.val 0x04) 1)

/-- MSH_PAUSE (R380): MSH_CTRL.PAUSE of a mash stack. -/
def execMshPause (path : RegPath) (mash : Fin 8) (on : Bool) (s : State) : Res := settled (s.regVia path (memAt (8 + mash.val) 0x40) (b2n on))

/-- HOLD_CLR (R380): PAUSE keeps its value. -/
def execHoldClr (path : RegPath) (mash : Fin 8) (s : State) : Res :=
  settled (s.regVia path (memAt (8 + mash.val) 0x40) (2 + b2n (s.memCtl (8 + mash.val)).pause))

/-! ### Fences and pauses of a tile's units (R272–R278, R310–R314, R236, R237) -/

/-- The value that TILE_FENCE reads. -/
def State.fenceWord (s : State) (t : Nat) : Nat := s.rdTile t 0

/-- CORE_FENCE_REQUEST (R272): the core's bit is set. -/
def execCoreFenceRequest (path : RegPath) (core : Fin 864) (s : State) : Res :=
  settled (s.regVia path (tileFenceAt (tileOf core.val)) (s.fenceWord (tileOf core.val) ||| 2 ^ coreNo core.val))

/-- CORE_UNFENCE (R275): the core's bit is cleared. -/
def execCoreUnfence (path : RegPath) (core : Fin 864) (s : State) : Res :=
  settled (s.regVia path (tileFenceAt (tileOf core.val)) (s.fenceWord (tileOf core.val) &&& (0x3FFF - 2 ^ coreNo core.val)))

/-- CORE_FORCE (R273); `withCore` when the same write sets the CORE bit. -/
def execCoreForce (path : RegPath) (core : Fin 864) (withCore : Bool) (s : State) : Res :=
  settled (s.regVia path (tileFenceAt (tileOf core.val))
    (s.fenceWord (tileOf core.val) ||| 2 ^ (16 + coreNo core.val) ||| (if withCore then 2 ^ coreNo core.val else 0)))

/-- ARRAY_FENCE_REQUEST (R311): the array's bit is set. -/
def execArrayFenceRequest (path : RegPath) (array : Fin 384) (s : State) : Res :=
  settled (s.regVia path (tileFenceAt (array.val / 4)) (s.fenceWord (array.val / 4) ||| 2 ^ (9 + array.val % 4)))

/-- ARRAY_UNFENCE (R310): the array's bit is cleared. -/
def execArrayUnfence (path : RegPath) (array : Fin 384) (s : State) : Res :=
  settled (s.regVia path (tileFenceAt (array.val / 4)) (s.fenceWord (array.val / 4) &&& (0x3FFF - 2 ^ (9 + array.val % 4))))

/-- ARRAY_FORCE (R311): MTX_CTRL.FORCE, PAUSE as it stands. -/
def execArrayForce (path : RegPath) (array : Fin 384) (s : State) : Res :=
  settled (s.regVia path (mtxCtrlAt (array.val / 4)) (2 ^ (1 + array.val % 4) + b2n (s.mtx (array.val / 4)).pause))

/-- MATRIX_PAUSE (R314). -/
def execMatrixPause (path : RegPath) (tile : Fin 96) (on : Bool) (s : State) : Res := settled (s.regVia path (mtxCtrlAt tile.val) (b2n on))

/-- GATHER_FENCE_REQUEST (R237): the gather bit is set. -/
def execGatherFenceRequest (path : RegPath) (tile : Fin 96) (s : State) : Res :=
  settled (s.regVia path (tileFenceAt tile.val) (s.fenceWord tile.val ||| 2 ^ 13))

/-- GATHER_UNFENCE (R237, R593): the gather bit is cleared. -/
def execGatherUnfence (path : RegPath) (tile : Fin 96) (s : State) : Res :=
  settled (s.regVia path (tileFenceAt tile.val) (s.fenceWord tile.val &&& 0x1FFF))

/-- GATHER_PAUSE (R236). -/
def execGatherPause (path : RegPath) (tile : Fin 96) (on : Bool) (s : State) : Res := settled (s.regVia path (gthCtrlAt tile.val) (b2n on))

/-- PC_FLUSH (R236): PAUSE keeps its value. -/
def execPcFlush (path : RegPath) (tile : Fin 96) (s : State) : Res := settled (s.regVia path (gthCtrlAt tile.val) (2 + b2n (s.gth tile.val).pause))

/-! ### The NVMe controller block (R519–R525) -/

/-- CC_EN_CLEAR (R524): the word written to CC. -/
def execCcEnClear (path : RegPath) (cc : BitVec 32) (s : State) : Res :=
  presented (!cc.getLsbD 0) <|
  settled (s.regVia path 0x14 cc.toNat)

/-- CC_EN_SET (R522). -/
def execCcEnSet (path : RegPath) (cc : BitVec 32) (s : State) : Res :=
  presented (cc.getLsbD 0) <|
  settled (s.regVia path 0x14 cc.toNat)

/-- CC_SHN (R525). -/
def execCcShn (path : RegPath) (cc : BitVec 32) (s : State) : Res :=
  presented (cc.extractLsb' 14 2 != 0) <|
  settled (s.regVia path 0x14 cc.toNat)

/-- SQ_TAIL_DOORBELL (R521, R524). -/
def execSqTailDoorbell (path : RegPath) (queue : Fin 512) (tail : BitVec 16) (s : State) : Res :=
  settled (s.regVia path (0x1000 + 8 * queue.val) tail.toNat)

/-- CQ_HEAD_DOORBELL (R521, R524). -/
def execCqHeadDoorbell (path : RegPath) (queue : Fin 512) (head : BitVec 16) (s : State) : Res :=
  settled (s.regVia path (0x1004 + 8 * queue.val) head.toNat)

end Sys2Proof.Machine
end

