-- ==== Sys2Proof/Machine/RequestCmds.lean ====
section
/-! DEFINITION. Sys2Proof/Machine/RequestCmds.lean: the commands of the request path: the eight request kinds, holds, refusals, answers, peers
and the waits of updates (R112–R115, R135–R138, R148, R150, R166, R168, R171, R415, R493). -/
namespace Sys2Proof.Machine

/-- VECTOR_QUERY (R135). -/
def execVectorQuery (src : Source) (data : Bytes) (s : State) : Res := settled (s.request src (ofKind 0x01 data))

/-- TEXT_QUERY (R135). -/
def execTextQuery (src : Source) (data : Bytes) (s : State) : Res := settled (s.request src (ofKind 0x02 data))

/-- INSERT (R112, R137). -/
def execInsert (src : Source) (data : Bytes) (s : State) : Res := settled (s.request src (ofKind 0x03 data))

/-- UPSERT (R112, R137). -/
def execUpsert (src : Source) (data : Bytes) (s : State) : Res := settled (s.request src (ofKind 0x04 data))

/-- DELETE (R112, R137). -/
def execDelete (src : Source) (data : Bytes) (s : State) : Res := settled (s.request src (ofKind 0x05 data))

/-- EMBED_PASSAGE (R138). -/
def execEmbedPassage (src : Source) (data : Bytes) (s : State) : Res := settled (s.request src (ofKind 0x06 data))

/-- FILTER_RECORDS (R416). -/
def execFilterRecords (src : Source) (data : Bytes) (s : State) : Res := settled (s.request src (ofKind 0x10 data))

/-- FILTER_COUNT (R416). -/
def execFilterCount (src : Source) (data : Bytes) (s : State) : Res := settled (s.request src (ofKind 0x11 data))

/-- QUERY_HOLD_RELEASE (R150). -/
def execQueryHoldRelease (req : Nat) (s : State) : Res := settled (s.releaseHold req)

/-- REFUSAL_DEPARTED (R148). -/
def execRefusalDeparted (s : State) : Res := settled (s.refusalLeaves).kick

/-- UPDATE_RESUME (R115): the leaf was published or pruned. -/
def execUpdateResume (req : Nat) (s : State) : Res := settled ((s.tryUpdate req).retryUpdates).kick

/-- LOOKUP_RETRY (R114): the publication that a lookup met has ended. -/
def execLookupRetry (req : Nat) (s : State) : Res := settled ((s.tryUpdate req).retryUpdates).kick

/-! ### The directory merge (R113) -/

/-- DIRECTORY_MERGE (R113) of one index of a partition: nothing below the merge level. -/
def execDirectoryMerge (part : Fin 32) (index : Fin 16) (s : State) : Res :=
  match s.part? part.val with
  | none => settled s
  | some p =>
    let r := s.useIndex p index.val
    match r.1 with
    | none => settled r.2
    | some x => settled (if s.dirDue p index.val x then s.dirMergeNow p index.val x else s)

/-! ### Peers and the end of a request -/

/-- PEER_ANSWER (R198). -/
def execPeerAnswer (node : BitVec 16) (data : Bytes) (s : State) : Res := settled (s.peerAnswer ((s.upLinks node.toNat none).headD 0) node.toNat data)

/-- BUDGET_CUT (R171). -/
def execBudgetCut (req : Nat) (s : State) : Res := settled (s.budgetCut req)

/-- ANSWER_SENT (R168): a formed answer leaves, its entry frees, and its context may take a further request. -/
def execAnswerSent (req : Nat) (s : State) : Res := settled ((s.sendFormed req).settleYields).kick

end Sys2Proof.Machine
end

