-- ==== Sys2Proof/Machine/TestCmds.lean ====
section
/-! DEFINITION. Sys2Proof/Machine/TestCmds.lean: the commands of the watchdogs and the self-tests (R591–R600). -/
namespace Sys2Proof.Machine

/-- WATCHDOG_EXPIRY (R591, R592): the unit of a rotation-order number (R600), its last address and the µs that have elapsed. -/
def execWatchdogExpiry (unit : Fin 1344) (addr : BitVec 64) (us : BitVec 32) (s : State) : Res :=
  settled (s.watchdog (rotUnit unit.val).1 (rotUnit unit.val).2 addr.toNat us.toNat)

/-- TEST_START (R597, R598). -/
def execTestStart (s : State) : Res := settled s.testStart

/-- TEST_END (R597): the unit by its rotation-order number, whether it passed, and the first failing pattern. -/
def execTestEnd (unit : Fin 1344) (pass : Bool) (pattern : BitVec 32) (s : State) : Res :=
  settled (s.testEnd (rotUnit unit.val).1 (rotUnit unit.val).2 pass pattern.toNat)

/-- TEST_ROTATION (R600). -/
def execTestRotation (s : State) : Res := settled s.testRotation

end Sys2Proof.Machine
end

