-- ==== Sys2Proof/Machine/Dispatch.lean ====
section
/-! DEFINITION. Sys2Proof/Machine/Dispatch.lean: exec, one arm for each command, each a direct call of that command's meaning. -/
namespace Sys2Proof.Machine

/-- The effect of one command on everything but the queue of waiting commands. -/
def exec (i : Instr) (s : State) : Host.Outcome State Fault Refusal :=
  match i with
  | .registerWrite path off words reads => Sys2Proof.Machine.execRegisterWrite path off words reads s
  | .bitAliasWrite path off words reads => Sys2Proof.Machine.execBitAliasWrite path off words reads s
  | .registerAccessRead body => Sys2Proof.Machine.execRegisterAccessRead body s
  | .registerAccessWrite body reads => Sys2Proof.Machine.execRegisterAccessWrite body reads s
  | .goFlashStore path persist drainMs reads => Sys2Proof.Machine.execGoFlashStore path persist drainMs reads s
  | .goInactiveSlot path persist drainMs reads => Sys2Proof.Machine.execGoInactiveSlot path persist drainMs reads s
  | .goHostBuffer path persist drainMs reads => Sys2Proof.Machine.execGoHostBuffer path persist drainMs reads s
  | .goSourceReserved path persist drainMs => Sys2Proof.Machine.execGoSourceReserved path persist drainMs s
  | .regristDrainEnd fault reads => Sys2Proof.Machine.execRegristDrainEnd fault reads s
  | .drainTimeout => Sys2Proof.Machine.execDrainTimeout s
  | .pldmFirmwareUpdate image reads => Sys2Proof.Machine.execPldmFirmwareUpdate image reads s
  | .powerSample mean => Sys2Proof.Machine.execPowerSample mean s
  | .vectorQuery src data => Sys2Proof.Machine.execVectorQuery src data s
  | .textQuery src data => Sys2Proof.Machine.execTextQuery src data s
  | .insert src data => Sys2Proof.Machine.execInsert src data s
  | .upsert src data => Sys2Proof.Machine.execUpsert src data s
  | .delete src data => Sys2Proof.Machine.execDelete src data s
  | .embedPassage src data => Sys2Proof.Machine.execEmbedPassage src data s
  | .filterRecords src data => Sys2Proof.Machine.execFilterRecords src data s
  | .filterCount src data => Sys2Proof.Machine.execFilterCount src data s
  | .queryHoldRelease req => Sys2Proof.Machine.execQueryHoldRelease req s
  | .refusalDeparted => Sys2Proof.Machine.execRefusalDeparted s
  | .updateResume req => Sys2Proof.Machine.execUpdateResume req s
  | .lookupRetry req => Sys2Proof.Machine.execLookupRetry req s
  | .directoryMerge part index => Sys2Proof.Machine.execDirectoryMerge part index s
  | .scanResultReturn mash cmd => Sys2Proof.Machine.execScanResultReturn mash cmd s
  | .lauterResultReturn cmd => Sys2Proof.Machine.execLauterResultReturn cmd s
  | .peerAnswer node data => Sys2Proof.Machine.execPeerAnswer node data s
  | .budgetCut req => Sys2Proof.Machine.execBudgetCut req s
  | .answerSent req => Sys2Proof.Machine.execAnswerSent req s
  | .abKeyf core vd vs2 => Sys2Proof.Machine.execAbKeyf core vd vs2 s
  | .abKeyr core vd vs2 => Sys2Proof.Machine.execAbKeyr core vd vs2 s
  | .abCx core vk vp ki pj m => Sys2Proof.Machine.execAbCx core vk vp ki pj m s
  | .abCxp core vka vpa vkb vpb d m => Sys2Proof.Machine.execAbCxp core vka vpa vkb vpb d m s
  | .abMx core vka vpa vkb vpb d m => Sys2Proof.Machine.execAbMx core vka vpa vkb vpb d m s
  | .abDrop core rd vk vp rs1 => Sys2Proof.Machine.execAbDrop core rd vk vp rs1 s
  | .abBnd core vk vp rs1 rs2 => Sys2Proof.Machine.execAbBnd core vk vp rs1 rs2 s
  | .abQtake core rd rs1 rs2 => Sys2Proof.Machine.execAbQtake core rd rs1 rs2 s
  | .abQtakeWake part queue => Sys2Proof.Machine.execAbQtakeWake part queue s
  | .abQput core rd rs1 rs2 rl => Sys2Proof.Machine.execAbQput core rd rs1 rs2 rl s
  | .abQputWake part queue => Sys2Proof.Machine.execAbQputWake part queue s
  | .abQrel core rs1 => Sys2Proof.Machine.execAbQrel core rs1 s
  | .abYield core => Sys2Proof.Machine.execAbYield core s
  | .abWaitw core rd rs1 rs2 => Sys2Proof.Machine.execAbWaitw core rd rs1 rs2 s
  | .waitwWake core ctx => Sys2Proof.Machine.execWaitwWake core ctx s
  | .waitwLimit core ctx => Sys2Proof.Machine.execWaitwLimit core ctx s
  | .abStamp core rs1 => Sys2Proof.Machine.execAbStamp core rs1 s
  | .stampArrives core ctx => Sys2Proof.Machine.execStampArrives core ctx s
  | .abRand core rd rs1 rs2 => Sys2Proof.Machine.execAbRand core rd rs1 rs2 s
  | .abTenant core rs1 => Sys2Proof.Machine.execAbTenant core rs1 s
  | .abVacq core => Sys2Proof.Machine.execAbVacq core s
  | .vacqGrant core => Sys2Proof.Machine.execVacqGrant core s
  | .abVrel core => Sys2Proof.Machine.execAbVrel core s
  | .abFdone core => Sys2Proof.Machine.execAbFdone core s
  | .load core word => Sys2Proof.Machine.execLoad core word s
  | .store core word => Sys2Proof.Machine.execStore core word s
  | .amo core word => Sys2Proof.Machine.execAmo core word s
  | .lr core word => Sys2Proof.Machine.execLr core word s
  | .sc core word => Sys2Proof.Machine.execSc core word s
  | .fence core word => Sys2Proof.Machine.execFence core word s
  | .fenceI core => Sys2Proof.Machine.execFenceI core s
  | .ecall core => Sys2Proof.Machine.execEcall core s
  | .ebreak core => Sys2Proof.Machine.execEbreak core s
  | .rvInstruction core word => Sys2Proof.Machine.execRvInstruction core word s
  | .accessResultArrives core ctx => Sys2Proof.Machine.execAccessResultArrives core ctx s
  | .coreFenceRequest path core => Sys2Proof.Machine.execCoreFenceRequest path core s
  | .coreUnfence path core => Sys2Proof.Machine.execCoreUnfence path core s
  | .coreForce path core withCore => Sys2Proof.Machine.execCoreForce path core withCore s
  | .coreDrainEnd core => Sys2Proof.Machine.execCoreDrainEnd core s
  | .coreDrainLimit core => Sys2Proof.Machine.execCoreDrainLimit core s
  | .gatherPool tile => Sys2Proof.Machine.execGatherPool tile s
  | .gatherReadRetire tile => Sys2Proof.Machine.execGatherReadRetire tile s
  | .gatherComplete tile => Sys2Proof.Machine.execGatherComplete tile s
  | .gatherPause path tile on => Sys2Proof.Machine.execGatherPause path tile on s
  | .pcFlush path tile => Sys2Proof.Machine.execPcFlush path tile s
  | .gatherFenceRequest path tile => Sys2Proof.Machine.execGatherFenceRequest path tile s
  | .gatherUnfence path tile => Sys2Proof.Machine.execGatherUnfence path tile s
  | .heatApply part queue => Sys2Proof.Machine.execHeatApply part queue s
  | .heatDecay part table => Sys2Proof.Machine.execHeatDecay part table s
  | .placementRound part table desc pub list pages => Sys2Proof.Machine.execPlacementRound part table desc pub list pages s
  | .matrix tile => Sys2Proof.Machine.execMatrix tile s
  | .matrixAcc tile => Sys2Proof.Machine.execMatrixAcc tile s
  | .matrixPhaseEnd tile => Sys2Proof.Machine.execMatrixPhaseEnd tile s
  | .matrixComplete tile => Sys2Proof.Machine.execMatrixComplete tile s
  | .matrixPause path tile on => Sys2Proof.Machine.execMatrixPause path tile on s
  | .arrayForce path array => Sys2Proof.Machine.execArrayForce path array s
  | .arrayFenceRequest path array => Sys2Proof.Machine.execArrayFenceRequest path array s
  | .arrayUnfence path array => Sys2Proof.Machine.execArrayUnfence path array s
  | .arrayDrainLimit array => Sys2Proof.Machine.execArrayDrainLimit array s
  | .racking part index leaf place pub node bad => Sys2Proof.Machine.execRacking part index leaf place pub node bad s
  | .split part index leaf placeA placeB pub nodes fwd bad => Sys2Proof.Machine.execSplit part index leaf placeA placeB pub nodes fwd bad s
  | .mergeLeaf part index leaf place pub nodes fwdA fwdB bad => Sys2Proof.Machine.execMergeLeaf part index leaf place pub nodes fwdA fwdB bad s
  | .readFloorSweep part => Sys2Proof.Machine.execReadFloorSweep part s
  | .refinementRound part index => Sys2Proof.Machine.execRefinementRound part index s
  | .sampleArrival part queue => Sys2Proof.Machine.execSampleArrival part queue s
  | .refRun path => Sys2Proof.Machine.execRefRun path s
  | .refPause path => Sys2Proof.Machine.execRefPause path s
  | .refStop path => Sys2Proof.Machine.execRefStop path s
  | .refResetOptimiser path => Sys2Proof.Machine.execRefResetOptimiser path s
  | .refEvaluateNow path => Sys2Proof.Machine.execRefEvaluateNow path s
  | .perBankRefresh stack bank busBusy => Sys2Proof.Machine.execPerBankRefresh stack bank busBusy s
  | .refreshWindow stack ch trained => Sys2Proof.Machine.execRefreshWindow stack ch trained s
  | .stackTempReadout stack temp => Sys2Proof.Machine.execStackTempReadout stack temp s
  | .memTrainReq path stack => Sys2Proof.Machine.execMemTrainReq path stack s
  | .parityError stack again => Sys2Proof.Machine.execParityError stack again s
  | .stackFail stack => Sys2Proof.Machine.execStackFail stack s
  | .startOp mash bank => Sys2Proof.Machine.execStartOp mash bank s
  | .continueOp mash bank => Sys2Proof.Machine.execContinueOp mash bank s
  | .abortOp mash bank => Sys2Proof.Machine.execAbortOp mash bank s
  | .chunkEnd mash bank => Sys2Proof.Machine.execChunkEnd mash bank s
  | .scan => Sys2Proof.Machine.execScan s
  | .scanComplete mash cmd => Sys2Proof.Machine.execScanComplete mash cmd s
  | .mshPause path mash on => Sys2Proof.Machine.execMshPause path mash on s
  | .holdClr path mash => Sys2Proof.Machine.execHoldClr path mash s
  | .rescore => Sys2Proof.Machine.execRescore s
  | .fetch => Sys2Proof.Machine.execFetch s
  | .lauterWrite => Sys2Proof.Machine.execLauterWrite s
  | .deallocate => Sys2Proof.Machine.execDeallocate s
  | .lauterComplete cmd => Sys2Proof.Machine.execLauterComplete cmd s
  | .pageReadDone cmd part ext page decoded mapFail => Sys2Proof.Machine.execPageReadDone cmd part ext page decoded mapFail s
  | .stripeRebuild cmd part ext page ok => Sys2Proof.Machine.execStripeRebuild cmd part ext page ok s
  | .stripeClose stream => Sys2Proof.Machine.execStripeClose stream s
  | .programDone stripe failing => Sys2Proof.Machine.execProgramDone stripe failing s
  | .eraseDone block failing => Sys2Proof.Machine.execEraseDone block failing s
  | .dieTimeout ch target => Sys2Proof.Machine.execDieTimeout ch target s
  | .kilning => Sys2Proof.Machine.execKilning s
  | .garbageCollection => Sys2Proof.Machine.execGarbageCollection s
  | .wearLevelling => Sys2Proof.Machine.execWearLevelling s
  | .patrol part ext page step => Sys2Proof.Machine.execPatrol part ext page step s
  | .calibration ch forced => Sys2Proof.Machine.execCalibration ch forced s
  | .carrierPresent carrier => Sys2Proof.Machine.execCarrierPresent carrier s
  | .carrierPgoodTimeout carrier => Sys2Proof.Machine.execCarrierPgoodTimeout carrier s
  | .carrierIdentified carrier record trained store => Sys2Proof.Machine.execCarrierIdentified carrier record trained store s
  | .setFormation unread badRecs => Sys2Proof.Machine.execSetFormation unread badRecs s
  | .requestRemoval path carrier => Sys2Proof.Machine.execRequestRemoval path carrier s
  | .forceRemoval path carrier => Sys2Proof.Machine.execForceRemoval path carrier s
  | .cancelRemoval path carrier => Sys2Proof.Machine.execCancelRemoval path carrier s
  | .armAdoption path slot => Sys2Proof.Machine.execArmAdoption path slot s
  | .adoptionExpiry => Sys2Proof.Machine.execAdoptionExpiry s
  | .carrierLoss carrier presence channel => Sys2Proof.Machine.execCarrierLoss carrier presence channel s
  | .rebuildComplete carrier => Sys2Proof.Machine.execRebuildComplete carrier s
  | .shortPress carrier => Sys2Proof.Machine.execShortPress carrier s
  | .buttonHold carrier => Sys2Proof.Machine.execButtonHold carrier s
  | .carrierSensorRead carrier a b => Sys2Proof.Machine.execCarrierSensorRead carrier a b s
  | .carrierAlert carrier a b => Sys2Proof.Machine.execCarrierAlert carrier a b s
  | .nvmeRead sq cid nsid slba nlb dptr bad => Sys2Proof.Machine.execNvmeRead sq cid nsid slba nlb dptr bad s
  | .nvmeWrite sq cid nsid slba nlb data => Sys2Proof.Machine.execNvmeWrite sq cid nsid slba nlb data s
  | .nvmeFlush sq cid nsid => Sys2Proof.Machine.execNvmeFlush sq cid nsid s
  | .nvmeWriteZeroes sq cid nsid slba nlb => Sys2Proof.Machine.execNvmeWriteZeroes sq cid nsid slba nlb s
  | .datasetManagement sq cid nsid dealloc ranges => Sys2Proof.Machine.execDatasetManagement sq cid nsid dealloc ranges s
  | .nvmeVerify sq cid nsid slba nlb bad => Sys2Proof.Machine.execNvmeVerify sq cid nsid slba nlb bad s
  | .fibreDetect engine => Sys2Proof.Machine.execFibreDetect engine s
  | .fibreRemoved engine => Sys2Proof.Machine.execFibreRemoved engine s
  | .linkTrained ch => Sys2Proof.Machine.execLinkTrained ch s
  | .trainingTimeout ch => Sys2Proof.Machine.execTrainingTimeout ch s
  | .trainingRetry ch => Sys2Proof.Machine.execTrainingRetry ch s
  | .lockLoss ch => Sys2Proof.Machine.execLockLoss ch s
  | .dataFrame ch frame errored => Sys2Proof.Machine.execDataFrame ch frame errored s
  | .credit ch frame => Sys2Proof.Machine.execCredit ch frame s
  | .linkInit ch frame => Sys2Proof.Machine.execLinkInit ch frame s
  | .initAck ch frame => Sys2Proof.Machine.execInitAck ch frame s
  | .keepalive ch frame => Sys2Proof.Machine.execKeepalive ch frame s
  | .timeFrame ch frame => Sys2Proof.Machine.execTimeFrame ch frame s
  | .initRepeat ch => Sys2Proof.Machine.execInitRepeat ch s
  | .keepaliveSend ch => Sys2Proof.Machine.execKeepaliveSend ch s
  | .linkRxTimeout ch => Sys2Proof.Machine.execLinkRxTimeout ch s
  | .creditSend ch => Sys2Proof.Machine.execCreditSend ch s
  | .ethernetFrame ch frame => Sys2Proof.Machine.execEthernetFrame ch frame s
  | .reassemblyTimeout ch src cls mid => Sys2Proof.Machine.execReassemblyTimeout ch src cls mid s
  | .egressSelect ch => Sys2Proof.Machine.execEgressSelect ch s
  | .ptpSync ch master offset freq => Sys2Proof.Machine.execPtpSync ch master offset freq s
  | .syncTimeout => Sys2Proof.Machine.execSyncTimeout s
  | .compGo path buf => Sys2Proof.Machine.execCompGo path buf s
  | .mapFetch src wanted => Sys2Proof.Machine.execMapFetch src wanted s
  | .mapOffer src map => Sys2Proof.Machine.execMapOffer src map s
  | .mapFetchRepeat => Sys2Proof.Machine.execMapFetchRepeat s
  | .confirmFetch => Sys2Proof.Machine.execConfirmFetch s
  | .epochHoldTimeout held => Sys2Proof.Machine.execEpochHoldTimeout held s
  | .claim src shard epoch => Sys2Proof.Machine.execClaim src shard epoch s
  | .claimReply src shard result epoch stamp => Sys2Proof.Machine.execClaimReply src shard result epoch stamp s
  | .claimRepeat => Sys2Proof.Machine.execClaimRepeat s
  | .claimHoldTimeout held => Sys2Proof.Machine.execClaimHoldTimeout held s
  | .mirrorUpdate src body => Sys2Proof.Machine.execMirrorUpdate src body s
  | .mirrorAck src shard stamp => Sys2Proof.Machine.execMirrorAck src shard stamp s
  | .mirrorSync src body => Sys2Proof.Machine.execMirrorSync src body s
  | .mirrorAckTimeout shard => Sys2Proof.Machine.execMirrorAckTimeout shard s
  | .lendRead src body => Sys2Proof.Machine.execLendRead src body s
  | .lendWrite src body => Sys2Proof.Machine.execLendWrite src body s
  | .lendReply src body => Sys2Proof.Machine.execLendReply src body s
  | .lendCommand part => Sys2Proof.Machine.execLendCommand part s
  | .lendTimeout tag => Sys2Proof.Machine.execLendTimeout tag s
  | .meterSnap path => Sys2Proof.Machine.execMeterSnap path s
  | .perst kind => Sys2Proof.Machine.execPerst kind s
  | .flr => Sys2Proof.Machine.execFlr s
  | .d3hotEntry => Sys2Proof.Machine.execD3hotEntry s
  | .ccEnClear path cc => Sys2Proof.Machine.execCcEnClear path cc s
  | .ccEnSet path cc => Sys2Proof.Machine.execCcEnSet path cc s
  | .ccShn path cc => Sys2Proof.Machine.execCcShn path cc s
  | .shutdownTimeout => Sys2Proof.Machine.execShutdownTimeout s
  | .sqTailDoorbell path queue tail => Sys2Proof.Machine.execSqTailDoorbell path queue tail s
  | .cqHeadDoorbell path queue head => Sys2Proof.Machine.execCqHeadDoorbell path queue head s
  | .createIoSq cid queue size cq base contiguous => Sys2Proof.Machine.execCreateIoSq cid queue size cq base contiguous s
  | .createIoCq cid queue size vector base interrupts contiguous => Sys2Proof.Machine.execCreateIoCq cid queue size vector base interrupts contiguous s
  | .deleteIoSq cid queue => Sys2Proof.Machine.execDeleteIoSq cid queue s
  | .deleteIoCq cid queue => Sys2Proof.Machine.execDeleteIoCq cid queue s
  | .identify cid cns csi nsid dptr => Sys2Proof.Machine.execIdentify cid cns csi nsid dptr s
  | .getLogPage cid lid off len dptr => Sys2Proof.Machine.execGetLogPage cid lid off len dptr s
  | .setFeatures cid fid value => Sys2Proof.Machine.execSetFeatures cid fid value s
  | .getFeatures cid fid value => Sys2Proof.Machine.execGetFeatures cid fid value s
  | .asyncEventRequest cid => Sys2Proof.Machine.execAsyncEventRequest cid s
  | .nvmeAbort cid sq target => Sys2Proof.Machine.execNvmeAbort cid sq target s
  | .executeProgram sq cid nsid program rsid param => Sys2Proof.Machine.execExecuteProgram sq cid nsid program rsid param s
  | .programActivationManagement sq cid nsid program op => Sys2Proof.Machine.execProgramActivationManagement sq cid nsid program op s
  | .loadProgram sq cid => Sys2Proof.Machine.execLoadProgram sq cid s
  | .memoryRead sq cid nsid off len dptr => Sys2Proof.Machine.execMemoryRead sq cid nsid off len dptr s
  | .memoryWrite sq cid nsid off len data => Sys2Proof.Machine.execMemoryWrite sq cid nsid off len data s
  | .memoryRangeSetCreate sq cid nsid rsid ranges => Sys2Proof.Machine.execMemoryRangeSetCreate sq cid nsid rsid ranges s
  | .memoryRangeSetDelete sq cid nsid rsid => Sys2Proof.Machine.execMemoryRangeSetDelete sq cid nsid rsid s
  | .hostReadFailure kind sq cid => Sys2Proof.Machine.execHostReadFailure kind sq cid s
  | .sequencerResetRelease => Sys2Proof.Machine.execSequencerResetRelease s
  | .startDelayEnd => Sys2Proof.Machine.execStartDelayEnd s
  | .referenceCheckEnd ok => Sys2Proof.Machine.execReferenceCheckEnd ok s
  | .pllLock locked => Sys2Proof.Machine.execPllLock locked s
  | .referenceLoss => Sys2Proof.Machine.execReferenceLoss s
  | .referenceReturn => Sys2Proof.Machine.execReferenceReturn s
  | .rootPllLoss => Sys2Proof.Machine.execRootPllLoss s
  | .tapSwitch path tap => Sys2Proof.Machine.execTapSwitch path tap s
  | .tapReady dom => Sys2Proof.Machine.execTapReady dom s
  | .tapTimeout dom => Sys2Proof.Machine.execTapTimeout dom s
  | .gateWrite path gate => Sys2Proof.Machine.execGateWrite path gate s
  | .resetN => Sys2Proof.Machine.execResetN s
  | .rstModule path => Sys2Proof.Machine.execRstModule path s
  | .managementResetRequest => Sys2Proof.Machine.execManagementResetRequest s
  | .partitionReset path part => Sys2Proof.Machine.execPartitionReset path part s
  | .partitionResetEnd part bad => Sys2Proof.Machine.execPartitionResetEnd part bad s
  | .coreReset path tile core => Sys2Proof.Machine.execCoreReset path tile core s
  | .watchdogExpiry unit addr us => Sys2Proof.Machine.execWatchdogExpiry unit addr us s
  | .coreTest path unit => Sys2Proof.Machine.execCoreTest path unit s
  | .arrayTest path unit => Sys2Proof.Machine.execArrayTest path unit s
  | .gatherTest path unit => Sys2Proof.Machine.execGatherTest path unit s
  | .stackRetrainTest path unit => Sys2Proof.Machine.execStackRetrainTest path unit s
  | .flashCalibrationTest path unit => Sys2Proof.Machine.execFlashCalibrationTest path unit s
  | .testStart => Sys2Proof.Machine.execTestStart s
  | .testEnd unit pass pattern => Sys2Proof.Machine.execTestEnd unit pass pattern s
  | .testRotation => Sys2Proof.Machine.execTestRotation s
  | .captureStart path => Sys2Proof.Machine.execCaptureStart path s
  | .replayStart path => Sys2Proof.Machine.execReplayStart path s
  | .caskStop path => Sys2Proof.Machine.execCaskStop path s
  | .caskFeed path buf => Sys2Proof.Machine.execCaskFeed path buf s
  | .inputLow vin => Sys2Proof.Machine.execInputLow vin s
  | .inputLowEnd vin => Sys2Proof.Machine.execInputLowEnd vin s
  | .busFlushTrigger vin => Sys2Proof.Machine.execBusFlushTrigger vin s
  | .pwrFail => Sys2Proof.Machine.execPwrFail s
  | .drill path => Sys2Proof.Machine.execDrill path s
  | .flushComplete => Sys2Proof.Machine.execFlushComplete s
  | .busCollapse vin => Sys2Proof.Machine.execBusCollapse vin s
  | .inputReturn vin => Sys2Proof.Machine.execInputReturn vin s
  | .converterStart vin => Sys2Proof.Machine.execConverterStart vin s
  | .trailWrite => Sys2Proof.Machine.execTrailWrite s
  | .durabilitySweep part index leaf => Sys2Proof.Machine.execDurabilitySweep part index leaf s
  | .mapCheckpoint page => Sys2Proof.Machine.execMapCheckpoint page s
  | .busHigh vin => Sys2Proof.Machine.execBusHigh vin s
  | .carrierOvercurrent carrier => Sys2Proof.Machine.execCarrierOvercurrent carrier s
  | .carrierPowerExcess watts => Sys2Proof.Machine.execCarrierPowerExcess watts s
  | .thermalSample temps => Sys2Proof.Machine.execThermalSample temps s
  | .throttleStep => Sys2Proof.Machine.execThrottleStep s
  | .oeCool engine temp => Sys2Proof.Machine.execOeCool engine temp s
  | .temperatureHistorySave => Sys2Proof.Machine.execTemperatureHistorySave s
  | .lampTest path => Sys2Proof.Machine.execLampTest path s
  | .maxClr path => Sys2Proof.Machine.execMaxClr path s
  | .extest captured shifted => Sys2Proof.Machine.execExtest captured shifted s
  | .samplePreload captured shifted => Sys2Proof.Machine.execSamplePreload captured shifted s
  | .idcode => Sys2Proof.Machine.execIdcode s
  | .clamp => Sys2Proof.Machine.execClamp s
  | .highz => Sys2Proof.Machine.execHighz s
  | .bypass code => Sys2Proof.Machine.execBypass code s
  | .prsntNHigh carrier => Sys2Proof.Machine.execPrsntNHigh carrier s
  | .pressBegin carrier => Sys2Proof.Machine.execPressBegin carrier s
  | .resetNRelease => Sys2Proof.Machine.execResetNRelease s
  | .resetHoldEnd => Sys2Proof.Machine.execResetHoldEnd s
  | .startUpEnd reads => Sys2Proof.Machine.execStartUpEnd reads s
  | .pwrFailRelease => Sys2Proof.Machine.execPwrFailRelease s
  | .auxPllLoss => Sys2Proof.Machine.execAuxPllLoss s
  | .divideDone core ctx => Sys2Proof.Machine.execDivideDone core ctx s
  | .vectorUnitFree core => Sys2Proof.Machine.execVectorUnitFree core s
  | .shaperEligible ch queue => Sys2Proof.Machine.execShaperEligible ch queue s
  | .calLate ch => Sys2Proof.Machine.execCalLate ch s
  | .baseExportEnd => Sys2Proof.Machine.execBaseExportEnd s
  | .mirrorApply shard => Sys2Proof.Machine.execMirrorApply shard s
  | .syncInterval kind => Sys2Proof.Machine.execSyncInterval kind s
  | .aggregationTime queue => Sys2Proof.Machine.execAggregationTime queue s
  | .pcieLinkUp speed width flit msix => Sys2Proof.Machine.execPcieLinkUp speed width flit msix s

end Sys2Proof.Machine
end

