-- ==== Sys2Proof/Machine/Step.lean ====
section
/-! DEFINITION. Sys2Proof/Machine/Step.lean: one step of the block: the command at the front of the queue, or a nanosecond of time. -/
namespace Sys2Proof.Machine

/-- Take the command at the front of the queue and perform it; on an empty queue one nanosecond passes (assumption 1), and a replay goes as far
as its records allow. -/
def step (s : State) : Host.Outcome State Fault Refusal :=
  match s.pending with
  | [] => settled (s.advance 1).replayOn
  | c :: rest => exec c { s with pending := rest }

/-- Put the command that a word spells at the front of the queue. -/
def State.withFetchWord (s : State) (nbits w : Nat) : State :=
  match decodeTableWord nbits w with
  | some c => { s with pending := c :: s.pending }
  | none => s

end Sys2Proof.Machine
end

