-- ==== Sys2Proof/Safety.lean ====
section
/-! DEFINITION. Sys2Proof/Safety.lean: the words that claims are stated in: an outcome that goes on, what a command leaves alone, a core that issues,
and software gates that block nothing in use. -/
namespace Sys2Proof.Machine

/-- The outcome is the next state that some `u` ends in, and `u` meets `post`: the next state is `u` but for software gates that open (R558). -/
def Runs (r : Host.Outcome State Fault Refusal) (post : State → Prop) : Prop := ∃ u, r = .next u.openGates ∧ post u

/-- The outcome is the next state that some `u` ends in after `f` (contexts that take what waits, the host's warnings), and `u` meets `post`. -/
def RunsThen (f : State → State) (r : Host.Outcome State Fault Refusal) (post : State → Prop) : Prop := ∃ u, r = .next (f u).openGates ∧ post u

/-- A software gate blocks nothing that is in use (R558). -/
def GatesOpen (s : State) : Prop := ∀ n ∈ s.clk.gates, ∀ v, treeNode n = some v → s.inUse v = false

/-- The registers answer, and no capture or replay runs: a register write is performed and not recorded. -/
def Live (s : State) : Prop := s.regsLive = true ∧ s.cask.state = 0

/-- No flush is in force or wanted: the module is on, and the bus is not lost. -/
def Powered (s : State) : Prop := s.pwr.off = false ∧ s.pwr.state.toNat < 2

/-- Error records of a class: the count that the FAULT block keeps. -/
def State.errCount (s : State) (cls : Nat) : BitVec 32 := s.flt.classCnt.get 0 cls

/-- A core issues: its tile belongs to partition `p`, it runs or drains, its current context `r` is ready, and that context fetches from where code
may lie. -/
def Issues (s : State) (core : Nat) (p : Part) (r : CtxRef) : Prop :=
  s.corePart core = some p ∧ r = ⟨core, (s.core core).cur⟩ ∧ ((s.core core).st = .running ∨ (s.core core).st = .draining) ∧
    (s.ctx r).isReady = true ∧ fetchOk core (s.ctx r).pc = true

/-- No result of the context is on its way, and no capture or replay runs. -/
def Quiet (s : State) (r : CtxRef) : Prop := (s.ctx r).loads = [] ∧ (s.ctx r).outst = 0 ∧ s.cask.state = 0

/-- A context may use the vector unit: it holds a slot, and no other context's instruction occupies the unit. -/
def HasVector (s : State) (r : CtxRef) : Prop :=
  (s.ctx r).slot.isSome = true ∧ (s.ctx r).vstart = 0 ∧ ((s.core r.core).vbusy = none ∨ (s.core r.core).vbusy = some r.ctx)

/-- The context went on by one 4-byte instruction. -/
def WentOn (s t : State) (r : CtxRef) : Prop := (t.ctx r).pc = (s.ctx r).pc + 4 ∧ (t.ctx r).instret = (s.ctx r).instret + 1

/-- Only the cores and the meters differ. -/
def OnlyCores (s t : State) : Prop := t = { s with cores := t.cores, meter := t.meter }

/-- Every other context of the node is as it was. -/
def OthersStay (s t : State) (r : CtxRef) : Prop := ∀ q, q ≠ r → t.ctx q = s.ctx q

/-- A Galmel link takes a frame: it is up, or in Init for a LINK frame; the header's check holds and names this node where its type needs that; the frame
carries no map epoch, and the node fetches no map. -/
def TakesFrame (s : State) (c : Nat) (f : Bytes) : Prop :=
  s.inputStopped = false ∧ s.comp.wanted = none ∧ (s.chan c).eth = false ∧ ((s.chan c).state = .up ∨ ((s.chan c).state = .init ∧ fieldAt f 0 1 = 3)) ∧
    32 ≤ f.length ∧ crc16 (f.take 30) = fieldAt f 30 2 ∧ headerBad f = false ∧ (fieldAt f 0 1 = 3 ∨ fieldAt f 6 2 = s.ownId.toNat) ∧ fieldAt f 8 4 = 0

end Sys2Proof.Machine
end

