-- ==== Sys2Proof/Certificates/Slice0/Obligations.lean ====
section
/-! DEFINITION. Sys2Proof/Certificates/Slice0/Obligations.lean: the statements about the node, for the provers. Each says in its docstring what it states;
a next state is said up to the software gates that the end of every command opens (Runs, R558), which GatesOpen is about. -/
open Sys2Proof Sys2Proof.Machine

/-- O1. A step runs the command at the front of the queue. For every state and every command c at the front of its queue, step is exec of c on the state with the rest of the queue. (95_what_each_step_holds) -/
def Obligations.StepRunsFrontCommand : Prop :=
  ∀ (s : State) (c : Instr) (rest : List Instr), s.pending = c :: rest → step s = exec c { s with pending := rest }

/-- O2. On an empty queue one nanosecond of uptime passes (the model's choice, assumption 1). With nothing queued and no replay running, a step is a next state in which one nanosecond of uptime has passed and only the time base differs. That the idle step is one nanosecond is the model's choice (assumption 1). (15_clocks_and_reset) -/
def Obligations.IdleStepPassesOneNanosecond : Prop :=
  ∀ s : State, s.pending = [] → s.cask.state ≠ 4 →
    Runs (step s) fun u => u = { s with time := u.time } ∧ u.time.up = s.time.up + 1

/-- O3. Every command that hardware could present has a next state, and every other stops. For every command and state: a command whose operands hardware could present answers a next state, and one that it could not present is the fault illFormed (the model's choice). No command is refused. (95_what_each_step_holds, 00_scope) -/
def Obligations.WellFormedCommandsRun : Prop :=
  ∀ (i : Instr) (s : State), (i.wf = true → ∃ t, exec i s = .next t) ∧ (i.wf = false → exec i s = .fault .illFormed)

/-- O4. Registers read their reset values at reset, and no software gate blocks a unit in use. At the state after reset the registers with a reset value other than 0 read it (identity, flash policy, fabric, time, metering of bursts, event mask, collector, horizon, drain limit, context state), no image runs, no core is enabled, the queue of commands is empty, and no closed software gate lies over a unit, domain or tile in use. (R276, R342, R436, R480, R558, R580, R614, R615, R636) -/
def Obligations.ResetValuesAndOpenGates : Prop :=
  (∀ e ∈ ([(0x40000, 0x024816B1), (0x40004, 0x48161E7B), (0x40008, 0x248165A7), (0xC0008, 0xFF08), (0xD000C, 0x5A32), (0xD0010, 0x206), (0xD0014, 0x7D0),
      (0xD0018, 0x320), (0xD001C, 0x52), (0xD0020, 7), (0xD0024, 0x7D0), (0xE0004, 0x88B5), (0xE0010, 0x80800000), (0xE0014, 0x3F8), (0xE0028, 0xFFFF),
      (0xE0048, 0x100), (0xE006C, 0x08000800), (0xE0070, 0x6400), (0xF0088, 0x003FFFFE), (0x100008, 0xFFFF), (0x110018, 0x02580258), (0x400004, 0x1F4),
      (0x400014, 0x8000)] : List (Nat × Nat)), (State.reset.regRead e.1).1.toNat = e.2) ∧
    State.reset.grist.parts = [] ∧ (∀ core : Fin 864, (State.reset.core core).st = .disabled) ∧ State.reset.pending = [] ∧ GatesOpen State.reset

/-- O5. No step leaves a software gate closed over a unit in use. For every state in which no closed software gate blocks what is in use, every step that answers a next state leaves it so: a load, an unfence, an insertion or any other command that brings a unit into use opens the gates on its path (R558; that every command does so, and not only those that R558 names, is a deduction, assumption 41). (R556, R557, R558) -/
def Obligations.StepKeepsGatesOpen : Prop :=
  ∀ s t : State, GatesOpen s → step s = .next t → GatesOpen t

/-- O6. The start sequence goes through its steps. From the hold, the sequencer release samples the straps and raises OSC_EN; the start delay, the reference check and the PLL locks follow, each moving the sequence on; a failed check or lock starts over, and the fourth failure ends the start; the end of training takes up GSRC and the trained stacks. (R66, R541, R542, R544, R650) -/
def Obligations.StartSequenceAdvances : Prop :=
  ∀ s : State,
    (s.clk.phase = .held → s.pwr.off = false → Runs (exec .sequencerResetRelease s) fun u => u =
      { s with clk := { s.clk with phase := .delay, oscEn := true, oscw := s.pins.oscw },
               mod := { s.mod with mbus := s.pins.mbus, maddr := s.pins.maddr, kOn := ~~~ s.mod.kOff } }) ∧
    (s.clk.phase = .delay → Runs (exec .startDelayEnd s) fun u => u = { s with clk := { s.clk with phase := .checking } }) ∧
    (s.clk.phase = .checking → Runs (exec (.referenceCheckEnd true) s) fun u => u = { s with clk := { s.clk with phase := .locking, refOk := true } }) ∧
    (s.clk.phase = .checking → Runs (exec (.referenceCheckEnd false) s) fun u => u = { s with clk := u.clk } ∧
      u.clk.attempts = s.clk.attempts + 1 ∧ u.clk.refOk = false ∧ u.clk.phase = (if s.clk.attempts < 3 then .delay else .failed)) ∧
    (s.clk.phase = .locking → Runs (exec (.pllLock true) s) fun u =>
      u.clk.phase = .training ∧ u.clk.rootLock = true ∧ u.clk.auxLock = true ∧ u.clk.doms = [] ∧
      u = { s with clk := u.clk, rst := u.rst, grist := u.grist, fab := u.fab }) ∧
    (s.clk.phase = .locking → s.rst.cause ≠ 4 → Runs (exec (.pllLock false) s) fun u => u = { s with clk := u.clk } ∧
      u.clk.phase = (if s.clk.attempts < 3 then .delay else .failed)) ∧
    (∀ reads, s.clk.phase = .training → s.pins.gsrc = true → RunsThen State.loadStored (exec (.startUpEnd reads) s) fun u =>
      u.clk.phase = .up ∧ u.clk.gsrc = true ∧ (∀ k < 16, (s.memCtl k).state = 0 → (u.memCtl k).state = 1) ∧ u = { s with clk := u.clk, mem := u.mem })

/-- O7. Losses of the reference and of a PLL. A lost reference is flagged and reported, and holds over until it returns; a lost auxiliary PLL is flagged and reported; a lost root PLL switches the management domain and the stacks and resets the module with cause 4. (R544, R554, R560, R563) -/
def Obligations.ReferenceAndPllLosses : Prop :=
  ∀ s : State,
    (s.timeRuns = true → Runs (exec .referenceLoss s) fun u =>
      u.clk = { s.clk with refLost := true, holdover := true } ∧ u.errCount 0x0C = s.errCount 0x0C + 1 ∧ u.cores = s.cores ∧ u.rst = s.rst) ∧
    Runs (exec .referenceReturn s) (fun u => u = { s with clk := { s.clk with holdover := false } }) ∧
    (s.timeRuns = true → Runs (exec .auxPllLoss s) fun u =>
      u.clk = { s.clk with auxLock := false, auxUnlock := true } ∧ u.errCount 0x0C = s.errCount 0x0C + 1 ∧ u.cores = s.cores ∧ u.rst = s.rst) ∧
    (s.clk.phase = .up → s.pwr.off = false → s.pwr.state ≠ 2 → Runs (exec .rootPllLoss s) fun u =>
      u.clk.phase = .resetHold ∧ u.clk.rootLock = false ∧ u.clk.mgmtOnAux = true ∧ u.rst.cause = 4 ∧ u.rst.modCnt = s.rst.modCnt + 1)

/-- O8. Tap switches and software gates. A tap written for the selected domain is pended where the domain offers it, and a switch pends already or a tap not offered sets its flag; a pending switch completes when its tap is ready and is abandoned on the timeout; a gate written over a node not in use closes, one written over a node in use is refused, and a gate written open opens. (R545, R546, R552, R556, R557, R563) -/
def Obligations.TapSwitchesAndSoftwareGates : Prop :=
  ∀ (s : State) (path : RegPath), Live s →
    (∀ tap : BitVec 4, let d := s.clk.selDom
      (tapOffered d tap.toNat = true → (s.clk.dom d).pend = false → Runs (exec (.tapSwitch path tap) s) fun u =>
        u.clk.dom d = { s.clk.dom d with tap := tap, pend := true } ∧ (∀ e, e ≠ d → u.clk.dom e = s.clk.dom e) ∧
        u = { s with clk := { s.clk with doms := u.clk.doms } }) ∧
      (tapOffered d tap.toNat = true → (s.clk.dom d).pend = true → Runs (exec (.tapSwitch path tap) s) fun u =>
        u = { s with clk := { s.clk with swBusy := true, swDom := BitVec.ofNat 8 d } }) ∧
      (tapOffered d tap.toNat = false → Runs (exec (.tapSwitch path tap) s) fun u =>
        u = { s with clk := { s.clk with swNoTap := true, swDom := BitVec.ofNat 8 d } })) ∧
    (∀ dom : Fin 165, (s.clk.dom dom).pend = true →
      (s.clk.tapReady (s.clk.dom dom).tap.toNat = true → Runs (exec (.tapReady dom) s) fun u =>
        u.clk.dom dom = { s.clk.dom dom with cur := (s.clk.dom dom).tap, pend := false } ∧ u = { s with clk := { s.clk with doms := u.clk.doms } }) ∧
      (s.clk.tapReady (s.clk.dom dom).tap.toNat = false → Runs (exec (.tapTimeout dom) s) fun u =>
        u.clk.dom dom = { s.clk.dom dom with pend := false } ∧ u.clk.swTimeout = true ∧ u = { s with clk := u.clk })) ∧
    (∀ v, treeNode s.clk.gateSel.toNat = some v →
      (s.inUse v = false → Runs (exec (.gateWrite path true) s) fun u => s.clk.gateSel.toNat ∈ u.clk.gates ∧ u = { s with clk := { s.clk with gates := u.clk.gates } }) ∧
      (s.inUse v = true → Runs (exec (.gateWrite path true) s) fun u => u = { s with clk := { s.clk with gateRefused := true, gateNode := s.clk.gateSel } }) ∧
      Runs (exec (.gateWrite path false) s) fun u => s.clk.gateSel.toNat ∉ u.clk.gates ∧ u = { s with clk := { s.clk with gates := u.clk.gates } })

/-- O9. Module resets, their hold and their release. RESET_N, the key of RST_MODULE and a management request reset the module with causes 1, 2 and 3: every domain is held, the cause is recorded and counted, and what the node keeps in flash stays; after the hold the start goes on, at once or when RESET_N goes high. (R559, R560, R653) -/
def Obligations.ModuleResetsHoldAndRelease : Prop :=
  ∀ s : State,
    (s.clk.phase = .up → Powered s → s.cask.state = 0 →
      let held (cause : BitVec 4) (u : State) : Prop :=
        u.clk.phase = .resetHold ∧ u.rst.cause = cause ∧ u.rst.modCnt = s.rst.modCnt + 1 ∧ u.pwrKept = s.pwrKept ∧ u.cores = [] ∧ u.queues = [] ∧
        u.grist = {} ∧ u.dram = [] ∧ u.coreSram = [] ∧ u.tileSram = [] ∧ u.pending = s.pending
      Runs (exec .resetN s) (held 1) ∧ (∀ path, Runs (exec (.rstModule path) s) (held 2)) ∧ Runs (exec .managementResetRequest s) (held 3)) ∧
    (s.clk.phase = .resetHold → s.clk.rootLock = true → s.clk.auxLock = true →
      (s.pins.resetN = true → Runs (exec .resetHoldEnd s) fun u => u.clk.phase = .training ∧ u.clk.doms = []) ∧
      (s.pins.resetN = false → Runs (exec .resetHoldEnd s) fun u => u = { s with rst := { s.rst with holdOver := true } }) ∧
      (s.rst.holdOver = true → Runs (exec .resetNRelease s) fun u => u.clk.phase = .training ∧ u.pins.resetN = true))

/-- O10. Partition resets, their end, and core resets. RST_CTRL with kind 2 starts the reset of a running partition, which its end puts back to running; kind 1 resets a core of an owned tile at once when no test holds it. The tile, core and partition fields are kept as written. (R559, R561, R562, R564) -/
def Obligations.PartitionAndCoreResets : Prop :=
  ∀ (s : State) (path : RegPath), Live s → s.modResetRuns = false →
    (∀ (n : Fin 32) (p : Machine.Part), s.part? n = some p → s.pstate n = .running → n.val ∉ s.rst.partBusy → s.grist.load = none →
      Runs (exec (.partitionReset path n) s) fun u =>
        u = State.startPartReset { s with rst := { s.rst with part := BitVec.ofNat 5 n } } p) ∧
    (∀ (n : Fin 32) (p : Machine.Part), s.part? n = some p → n.val ∈ s.rst.partBusy →
      RunsThen State.kick (exec (.partitionResetEnd n none) s) fun u => u.pstate p.num = .running ∧
        u = State.setPstate (State.restartPart { s with rst := { s.rst with partBusy := s.rst.partBusy.filter (· != p.num) } } p) p.num .running) ∧
    (∀ (t : Fin 96) (c : Fin 9) (p : Machine.Part), s.ownerOf t = some p → p.num ∉ s.rst.partBusy → (s.core (9 * t.val + c.val)).st ≠ .testing →
      s.flt.running = [] → RunsThen State.kick (exec (.coreReset path (BitVec.ofNat 7 t) (BitVec.ofNat 4 c)) s) fun u =>
        u = State.resetCoreNow { s with rst := { s.rst with tile := BitVec.ofNat 7 t, core := BitVec.ofNat 4 c } } (9 * t.val + c.val))

/-- O11. Whole words, partial words, alias words and access messages. While the registers answer, a whole word written through either path is the write of that register, a word with a byte enable clear is discarded and flagged, an alias word of SYS_SCRATCH sets the one bit it stands for, and the messages of the management path read and write one word and answer it. A request that breaks the format is flagged and answered with status 1. (R11, R566, R567, R575, R577, R579, R582) -/
def Obligations.RegisterWordsAndMessages : Prop :=
  ∀ (s : State) (path : RegPath), Live s →
    (∀ (off : BitVec 26) (v : Word) (reads : Reads), off.toNat % 4 = 0 → off.toNat + 4 ≤ 0x4000000 →
      Runs (exec (.registerWrite path off [(v, true)] reads) s) fun u => u = s.regWrite off.toNat v reads) ∧
    (∀ v : Word, Runs (exec (.registerWrite path 0x4001C [(v, true)] {}) s) fun u => u = { s with sys := { s.sys with scratch := v } }) ∧
    (∀ (off : BitVec 26) (v : Word), off.toNat % 4 = 0 → off.toNat + 4 ≤ 0x4000000 →
      Runs (exec (.registerWrite .host off [(v, false)] {}) s) fun u =>
        u = { s with sys := { s.sys with partial_ := true, errAddr := BitVec.ofNat 27 off.toNat, errBar2 := false } }) ∧
    (∀ (b : Fin 32) (v : Word), Runs (exec (.bitAliasWrite path (BitVec.ofNat 27 (32 * 0x4001C + 4 * b.val)) [(v, true)] {}) s) fun u =>
      u.sys.scratch.getLsbD b = v.getLsbD 0 ∧ (∀ i, i ≠ b.val → u.sys.scratch.getLsbD i = s.sys.scratch.getLsbD i) ∧
      u = { s with sys := { s.sys with scratch := u.sys.scratch } }) ∧
    Runs (exec (.registerAccessRead ([1, 0, 1, 0] ++ toLE 4 0x4001C)) s) (fun u => u = s.emit (.mgmt ([0, 0, 0, 0] ++ toLE 4 s.sys.scratch.toNat))) ∧
    (∀ (v : Word), Runs (exec (.registerAccessWrite ([2, 0, 1, 0] ++ toLE 4 0x4001C ++ toLE 4 v.toNat) {}) s) fun u =>
      u = State.emit { s with sys := { s.sys with scratch := v } } (.mgmt [0, 0, 0, 0])) ∧
    (∀ body, parseRegMsg body = none → fieldAt body 0 1 ≠ 2 → Runs (exec (.registerAccessRead body) s) fun u =>
      u = State.emit { s with sys := { s.sys with mgmtFmt := true } } (.mgmt [1, 0, 0, 0]))

/-- O12. A write to an unmapped window is discarded and flagged. A write of one word in a window that no block holds leaves everything but the SYSTEM block alone, which flags the access and keeps its address; while the registers do not answer it changes nothing. (R573, R574, R579, R580) -/
def Obligations.UnmappedWritesAreFlagged : Prop :=
  ∀ (s : State) (path : RegPath) (off : BitVec 26) (v : Word) (reads : Reads), off.toNat % 4 = 0 → off.toNat + 4 ≤ 0x4000000 →
    windowBlock off.toNat = none → s.cask.state = 0 →
    (s.regsLive = true → Runs (exec (.registerWrite path off [(v, true)] reads) s) fun u =>
      u = { s with sys := { s.sys with unmapped := true, errAddr := BitVec.ofNat 27 off.toNat, errBar2 := false } }) ∧
    (s.regsLive = false → Runs (exec (.registerWrite path off [(v, true)] reads) s) fun u => u = s)

/-- O13. Locked fields stay, lock bits only set, and a 1 clears a flag. A locked rollback minimum keeps its value and its lock through every write; an unlocked one takes the written value and the written lock; key revocations only accumulate; the SYSTEM flags clear where a 1 is written and stay where a 0 is. (R9, R83, R578, R580) -/
def Obligations.LockedAndWriteOneFields : Prop :=
  ∀ (s : State) (path : RegPath) (v : Word), Live s →
    Runs (exec (.registerWrite path 0x6001C [(v, true)] {}) s) (fun u =>
      u = { s with grist := { s.grist with svnMin := (if s.grist.locked then s.grist.svnMin else v.setWidth 16), locked := s.grist.locked || v.getLsbD 31 } }) ∧
    Runs (exec (.registerWrite path 0x60020 [(v, true)] {}) s) (fun u => u = { s with grist := { s.grist with revoke := s.grist.revoke ||| v.setWidth 4 } }) ∧
    Runs (exec (.registerWrite path 0x40014 [(v, true)] {}) s) (fun u =>
      u = { s with sys := { s.sys with partial_ := s.sys.partial_ && !v.getLsbD 0, unmapped := s.sys.unmapped && !v.getLsbD 1, mgmtFmt := s.sys.mgmtFmt && !v.getLsbD 2 } })

/-- O14. A command that is a register action is that register write. Each command that asks for a register action is the whole-word write of that register with the action in it, through the same path: GRIST_CTRL, CLK_SRC_SEL, CLK_GATE, RST_MODULE, DISP_CTRL, COMP_CTRL, METER_SNAP, REF_CMD, FLS_CMD, FLT_TEST, CASK_CTRL, CASK_FEED, PWR_CTRL, the trainings and pauses of the per-unit blocks, and the doorbells. (R566, R572, R574, R583) -/
def Obligations.RegisterRowsAreTheirWrites : Prop :=
  ∀ (s : State) (path : RegPath) (persist on : Bool) (ms : BitVec 8) (reads : Reads) (tap : BitVec 4) (buf : Option Bytes) (carrier : Fin 8)
    (unit : BitVec 10) (stack : Fin 16) (mash : Fin 8) (tile : Fin 96) (queue : Fin 512) (tail : BitVec 16),
    exec (.goFlashStore path persist ms reads) s = exec (.registerWrite path 0x60000 [(BitVec.ofNat 32 (goWord 0 persist ms), true)] reads) s ∧
    exec (.goInactiveSlot path persist ms reads) s = exec (.registerWrite path 0x60000 [(BitVec.ofNat 32 (goWord 1 persist ms), true)] reads) s ∧
    exec (.goHostBuffer path persist ms reads) s = exec (.registerWrite path 0x60000 [(BitVec.ofNat 32 (goWord 2 persist ms), true)] reads) s ∧
    exec (.goSourceReserved path persist ms) s = exec (.registerWrite path 0x60000 [(BitVec.ofNat 32 (goWord 3 persist ms), true)] {}) s ∧
    exec (.tapSwitch path tap) s = exec (.registerWrite path 0x7000C [(tap.setWidth 32, true)] {}) s ∧
    exec (.gateWrite path on) s = exec (.registerWrite path 0x70018 [(BitVec.ofNat 32 (b2n on), true)] {}) s ∧
    exec (.rstModule path) s = exec (.registerWrite path 0x80004 [(0x4D52, true)] {}) s ∧
    exec (.maxClr path) s = exec (.registerWrite path 0x90014 [(1, true)] {}) s ∧
    exec (.compGo path buf) s = exec (.registerWrite path 0xA0008 [(1, true)] { buf := buf }) s ∧
    exec (.meterSnap path) s = exec (.registerWrite path 0xB0004 [(1, true)] {}) s ∧
    exec (.refRun path) s = exec (.registerWrite path 0xC0004 [(1, true)] {}) s ∧
    exec (.refPause path) s = exec (.registerWrite path 0xC0004 [(2, true)] {}) s ∧
    exec (.refStop path) s = exec (.registerWrite path 0xC0004 [(3, true)] {}) s ∧
    exec (.refResetOptimiser path) s = exec (.registerWrite path 0xC0004 [(4, true)] {}) s ∧
    exec (.refEvaluateNow path) s = exec (.registerWrite path 0xC0004 [(5, true)] {}) s ∧
    exec (.requestRemoval path carrier) s = exec (.registerWrite path 0xD0008 [(BitVec.ofNat 32 (carrier.val + 8), true)] {}) s ∧
    exec (.forceRemoval path carrier) s = exec (.registerWrite path 0xD0008 [(BitVec.ofNat 32 (carrier.val + 16), true)] {}) s ∧
    exec (.cancelRemoval path carrier) s = exec (.registerWrite path 0xD0008 [(BitVec.ofNat 32 (carrier.val + 24), true)] {}) s ∧
    exec (.armAdoption path carrier) s = exec (.registerWrite path 0xD0008 [(BitVec.ofNat 32 (carrier.val + 32), true)] {}) s ∧
    exec (.coreTest path unit) s = exec (.registerWrite path 0xF0100 [(BitVec.ofNat 32 (1 + 256 * unit.toNat + 2 ^ 31), true)] {}) s ∧
    exec (.arrayTest path unit) s = exec (.registerWrite path 0xF0100 [(BitVec.ofNat 32 (2 + 256 * unit.toNat + 2 ^ 31), true)] {}) s ∧
    exec (.gatherTest path unit) s = exec (.registerWrite path 0xF0100 [(BitVec.ofNat 32 (3 + 256 * unit.toNat + 2 ^ 31), true)] {}) s ∧
    exec (.stackRetrainTest path unit) s = exec (.registerWrite path 0xF0100 [(BitVec.ofNat 32 (4 + 256 * unit.toNat + 2 ^ 31), true)] {}) s ∧
    exec (.flashCalibrationTest path unit) s = exec (.registerWrite path 0xF0100 [(BitVec.ofNat 32 (5 + 256 * unit.toNat + 2 ^ 31), true)] {}) s ∧
    exec (.captureStart path) s = exec (.registerWrite path 0x100000 [(5, true)] {}) s ∧
    exec (.replayStart path) s = exec (.registerWrite path 0x100000 [(6, true)] {}) s ∧
    exec (.caskStop path) s = exec (.registerWrite path 0x100000 [(BitVec.ofNat 32 (8 + s.cask.mode.toNat), true)] {}) s ∧
    exec (.caskFeed path buf) s = exec (.registerWrite path 0x100024 [(1, true)] { buf := buf }) s ∧
    exec (.drill path) s = exec (.registerWrite path 0x110004 [(0x464C, true)] {}) s ∧
    exec (.memTrainReq path stack) s = exec (.registerWrite path (BitVec.ofNat 26 (0x200004 + 65536 * stack.val)) [(1, true)] {}) s ∧
    exec (.mshPause path mash on) s = exec (.registerWrite path (BitVec.ofNat 26 (0x280040 + 65536 * mash.val)) [(BitVec.ofNat 32 (b2n on), true)] {}) s ∧
    exec (.matrixPause path tile on) s = exec (.registerWrite path (BitVec.ofNat 26 (0x1000000 + 65536 * tile.val)) [(BitVec.ofNat 32 (b2n on), true)] {}) s ∧
    exec (.gatherPause path tile on) s = exec (.registerWrite path (BitVec.ofNat 26 (0xA00000 + 65536 * tile.val)) [(BitVec.ofNat 32 (b2n on), true)] {}) s ∧
    exec (.sqTailDoorbell path queue tail) s = exec (.registerWrite path (BitVec.ofNat 26 (0x1000 + 8 * queue.val)) [(tail.setWidth 32, true)] {}) s ∧
    exec (.cqHeadDoorbell path queue tail) s = exec (.registerWrite path (BitVec.ofNat 26 (0x1004 + 8 * queue.val)) [(tail.setWidth 32, true)] {}) s

/-- O15. Loads from the store, the host buffer and an update, and the end of a drain. While nothing bars it, GO loads the first good copy of the active or the inactive slot of the flash store; a reserved source ends with SOURCE; GO on a partial image in the host buffer starts the drain of its partition, whose limit ends it with DRAIN and whose end applies the image; a firmware update with an image running is kept as the pending slot of every powered carrier. (R66, R67, R73, R74, R75, R77, R82) -/
def Obligations.GristLoadsAndRegrist : Prop :=
  ∀ (s : State) (path : RegPath) (persist : Bool) (ms : BitVec 8) (reads : Reads), Live s → s.grist.busy = false → s.loadBarred = false →
    let g (src : BitVec 2) : State := { s with grist := { s.grist with src := src, persist := persist, drainMs := ms } }
    (∀ b n, s.grist.state ≠ .running → s.storeRec.pending = none →
      ((g 0).beginLoad none).pickCopy false (1, none) 0 (s.copies.map fun x => x.bind fun y => storeSlot y s.storeRec.activeB) = .ok (b, n) →
      Runs (exec (.goFlashStore path persist ms reads) s) fun u => u = State.runFull
        { (g 0).beginLoad none with grist := { ((g 0).beginLoad none).grist with fallback := decide (n > 0) } } b reads) ∧
    (∀ b n, s.grist.state ≠ .running → s.storeRec.pending = none → s.copies.reduceOption.any (·.failing) = false →
      ((g 1).beginLoad none).pickCopy false (1, none) 0 (s.copies.map fun x => x.bind fun y => storeSlot y (!s.storeRec.activeB)) = .ok (b, n) →
      Runs (exec (.goInactiveSlot path persist ms reads) s) fun u => ∃ v : State, u = v.runFull b reads ∧ v.grist.fallback = decide (n > 0) ∧
        (∀ c < 8, (s.carrier c).pgood = true → (v.carrier c).store.activeB = !s.storeRec.activeB) ∧
        v = { g 1 with grist := v.grist, carriers := v.carriers }) ∧
    (∀ b, s.grist.state = .running → (g 2).hostImage reads.buf = some b → imgPartial b = true → ms ≠ 0 →
      ((g 2).beginLoad (some (imgTarget b % 32))).checkLoad true b (some b.length) = none →
      Runs (exec (.goHostBuffer path persist ms reads) s) fun u => u.grist.state = .draining ∧
        u.grist.load = some ⟨parseImage b, b, persist, s.time.up, ms.toNat⟩ ∧
        (s.pstate (parseImage b).target = .running → u.pstate (parseImage b).target = .reloading) ∧ u = { s with grist := u.grist }) ∧
    Runs (exec (.goSourceReserved path persist ms) s) (fun u => u.grist.err = 1 ∧ u.grist.fallback = false ∧
      u.grist.state = (if s.grist.state = .running then .running else .failed) ∧ u = { s with grist := u.grist }) ∧
    (∀ image, s.grist.state = .running → (s.beginLoad none).checkLoad false image none = none → s.copies.reduceOption.any (·.failing) = false →
      Runs (exec (.pldmFirmwareUpdate image reads) s) fun u => u.grist.err = 0 ∧
        (∀ c < 8, (s.carrier c).pgood = true → storeSlot (u.carrier c).store (!s.storeRec.activeB) = some image ∧
          (u.carrier c).store.pending = some (!s.storeRec.activeB)) ∧ u = { s with grist := u.grist, carriers := u.carriers })

/-- O16. The end of the drain of a partial re-grist. At the end of a drain with no work in flight the image is applied and the load is over; a hardware fault leaves the partition failed with cause 0x1B; the limit ends it with 0x1A, the clock moved up to it. (R77, R78, R79, R80) -/
def Obligations.RegristDrainsEnd : Prop :=
  ∀ (s : State) (l : Machine.Load) (reads : Reads), s.grist.load = some l → s.grist.state = .draining →
    ((∀ p, s.part? l.image.target = some p → s.partBusyWith p = false) → l.image.target ∉ s.rst.partBusy → s.flt.queue = [] → s.flt.running = [] →
      (l.persist = false → RunsThen State.kick (exec (.regristDrainEnd false reads) s) fun u => u.grist.err = 0 ∧
        u = (State.recoverPending (State.applyPart { s with grist := { s.grist with state := .running, load := none } } l.image false)
          reads.unread reads.badRecs).loadErr 0 none) ∧
      Runs (exec (.regristDrainEnd true reads) s) fun u => u.pstate l.image.target = .failed ∧ u.grist.state = .running ∧ u.grist.load = none ∧ u.grist.err = 0x1B) ∧
    RunsThen State.kick (exec .drainTimeout s) fun u => u.grist.state = .running ∧ u.grist.load = none ∧ u.grist.err = 0x1A ∧
      u.time.up = max s.time.up (l.drainAt + l.drainMs * 1000000) ∧ u = { s with grist := u.grist, time := u.time }

/-- O17. A power sample above the cap slows one partition or holds the matrix engines. At least 250 µs after the last step, a mean above the cap slows the next partition by one step, or sets the hold where none can be slowed; a mean below it releases the hold. (R42, R308) -/
def Obligations.PowerCappingSteps : Prop :=
  ∀ (s : State) (mean : BitVec 16), s.grist.state = .running → s.cap.stepAt + 250000 ≤ s.time.up →
    (s.cap.cap < mean.toNat → ∀ p, s.nextSlow = some p → Runs (exec (.powerSample mean) s) fun u =>
      u.cap = { s.cap with steps := (p.num, s.grist.clock.divOf p.num) :: s.cap.steps, stepAt := s.time.up } ∧ u = { s with cap := u.cap, clk := u.clk }) ∧
    (s.cap.cap < mean.toNat → s.nextSlow = none → Runs (exec (.powerSample mean) s) fun u => u = { s with cap := { s.cap with hold := true } }) ∧
    (mean.toNat < s.cap.cap → s.cap.hold = true → Runs (exec (.powerSample mean) s) fun u =>
      u = State.resumeMatrix { s with cap := { s.cap with hold := false, stepAt := s.time.up } })

/-- O18. A request that passes every check is admitted. For each of the eight request kinds: while input is taken, a request of good format whose epoch is held, which this node serves and whose shards are owned, and which passes steps 3 to 12 of admission, is admitted: the admission counter rises by one, and the request joins the list of requests with its source, its bytes and the deadline that its budget gives; then idle contexts take what waits. (R133, R135, R137, R138, R146, R147, R150, R151, R170, R416) -/
def Obligations.RequestsAreAdmitted : Prop :=
  ∀ (s : State) (src : Source) (data : Bytes), s.inputStopped = false →
    let admits (d : Bytes) (r : Res) : Prop := formatOk src d = true → rqEpoch d ≤ s.epoch → s.addressed (rqKind d) (rqSvc d) (rqVid d) = true →
      (∀ x ∈ s.requestShards (rqKind d) (rqSvc d) (rqVid d), (s.shard x.id).role ≠ .unavailable ∧ (s.shard x.id).role ≠ .claiming) →
      ∀ p b v q s', s.checks src d = (0, some (p, b, v, q), s') →
        RunsThen (fun s => s.fetchNow.kick) r fun u => u = s'.enrol src d p v q s'.rack s.rack false 0 ∧
          u.disp.admitCnt = s'.disp.admitCnt + 1 ∧
          ∃ e : Req, u.req.reqs = s'.req.reqs ++ [e] ∧ e.id = s'.req.next ∧ e.src = src ∧ e.data = d ∧ e.tenant = rqTenant d ∧
            e.queue = q.id ∧ e.td = s.rack + v.budgetNs d
    (admits (ofKind 0x01 data) (exec (.vectorQuery src data) s)) ∧
    (admits (ofKind 0x02 data) (exec (.textQuery src data) s)) ∧
    (admits (ofKind 0x03 data) (exec (.insert src data) s)) ∧
    (admits (ofKind 0x04 data) (exec (.upsert src data) s)) ∧
    (admits (ofKind 0x05 data) (exec (.delete src data) s)) ∧
    (admits (ofKind 0x06 data) (exec (.embedPassage src data) s)) ∧
    (admits (ofKind 0x10 data) (exec (.filterRecords src data) s)) ∧
    (admits (ofKind 0x11 data) (exec (.filterCount src data) s))

/-- O19. A request that fails a check is refused with its status. While input is taken and the refusal buffer has room, a vector query of bad format is refused with BAD_FORMAT: it is not admitted, the refusal counter rises, the last status says why, and one more refusal waits to leave. (R146, R148, R581) -/
def Obligations.RefusedRequestsAreBuffered : Prop :=
  ∀ (s : State) (src : Source) (data : Bytes), s.inputStopped = false → formatOk src (ofKind 0x01 data) = false → s.disp.fill.toNat < refusalMax →
    RunsThen (fun s => s.fetchNow.kick) (exec (.vectorQuery src data) s) fun u =>
      u.disp.refuseCnt = s.disp.refuseCnt + 1 ∧ u.disp.fill = s.disp.fill + 1 ∧ u.disp.admitCnt = s.disp.admitCnt ∧
      u.disp.lastStatus = BitVec.ofNat 8 stBadFormat ∧ u.req.refusals.length = s.req.refusals.length + 1 ∧ u.req.reqs = s.req.reqs

/-- O20. Holds, refusals, cuts and answers of requests. A held query goes into its queue once its stamp has passed; the oldest refusal leaves its buffer; a query past its cut time ends with what it has; an answer that has been formed leaves and its request record frees; a peer answer to a forwarded request goes to its sender. (R148, R150, R168, R171, R198, R493) -/
def Obligations.HeldRequestsRefusalsAndAnswers : Prop :=
  ∀ s : State,
    (∀ req r p, s.req? req = some r → r.place = .hold → s.part? r.part = some p → RunsThen State.kick (exec (.queryHoldRelease req) s) fun u =>
      u = ((s.advanceToRack ((rqStamp r.data).time.toNat + 1)).modReq req fun r => { r with place := .queued }).enqueueReq p r) ∧
    (∀ e rest, s.req.refusals = e :: rest → s.req.stalled = [] → RunsThen State.kick (exec .refusalDeparted s) fun u =>
      u.req.refusals = rest ∧ u.disp.fill = s.disp.fill - 1 ∧ u.req.reqs = s.req.reqs) ∧
    (∀ req r q, s.req? req = some r → s.query? req = some q → RunsThen State.kick (exec (.budgetCut req) s) fun u =>
      u = (s.advanceToRack (cutOf r.td)).cutQuery q) ∧
    (∀ req r b, s.req? req = some r → r.place = .answered b → RunsThen (fun s => s.settleYields.kick) (exec (.answerSent req) s) fun u =>
      u.req.reqs = s.req.reqs.filter (·.id != req)) ∧
    (∀ node data r, s.req.relays.find? (fun r => r.tag.toNat == fieldAt data 8 8 && r.stamp == stampAt data 0x10) = some r →
      Runs (exec (.peerAnswer node data) s) fun u => u.req.relays = s.req.relays.erase r ∧
        u = State.sendAnswer { s with req := { s.req with relays := s.req.relays.erase r } } r.src [] data 0)

/-- O21. Updates that waited, engine results of a search, and the directory merge. An update resumes, with those that waited for the same thing, and then idle contexts take what waits; the result of a scan or of a rescore that the search pipeline asked for leaves its engine and reaches its round; the directory merge of an index that has reached its level is performed. (R113, R114, R115, R162, R163, R164) -/
def Obligations.UpdatesAndReturnsGoOn : Prop :=
  ∀ s : State,
    (∀ req, RunsThen State.kick (exec (.updateResume req) s) fun u => u = (s.tryUpdate req).retryUpdates) ∧
    (∀ req, RunsThen State.kick (exec (.lookupRetry req) s) fun u => u = (s.tryUpdate req).retryUpdates) ∧
    (∀ (mash : Fin 8) (cmd : Nat) c req round leaf st, (s.memCtl (8 + mash.val)).cmds.find? (·.id == cmd) = some c →
      c.std = some (.scan req round leaf) → c.finished = some st → st ≠ 4 → st ≠ 6 →
      RunsThen State.kick (exec (.scanResultReturn mash cmd) s) fun u => ∃ v a, u = v.scanArrived req round leaf a ∧
        v = s.modMem (8 + mash.val) fun x => { x with cmds := x.cmds.filter (·.id != cmd) }) ∧
    (∀ (cmd : Nat) c req round carrier pass filtered unread, s.lauterCmd? cmd = some c → c.std = some (.rescore req round carrier) →
      c.finished = some (pass, filtered, unread) → c.refuse = none →
      RunsThen State.kick (exec (.lauterResultReturn cmd) s) fun u => ∃ v : State, u = v.lauterArrived req round carrier pass filtered unread ∧
        v.fls.cmds = s.fls.cmds.filter (·.id != cmd) ∧ v = { s with fls := v.fls }) ∧
    (∀ (part : Fin 32) (index : Fin 16) p x s', s.part? part.val = some p → s.useIndex p index.val = (some x, s') → s'.dirDue p index.val x = true →
      Runs (exec (.directoryMerge part index) s) fun u => u = s'.dirMergeNow p index.val x)

/-- O22. AB.KEYF and AB.KEYR convert the 128 lanes of a register. With a slot bound and the vector unit free, AB.KEYF writes into each of the 128 lanes of the destination the key of the FP32 value in the same lane of the source, and AB.KEYR the score of each key; the context goes on, and nothing but its core and the meters changes. The key and the score are those of the table of the order rule, spelled out. With one register for both operands the instruction is illegal and takes the illegal-instruction exception. (R179) -/
def Obligations.SortKeysConvert : Prop :=
  ∀ (s : State) (core : Fin 864) (p : Machine.Part) (r : CtxRef), Issues s core p r → Quiet s r →
    let key (x : BitVec 32) : BitVec 32 :=
      if x.extractLsb' 23 8 = 255 ∧ x.extractLsb' 0 23 ≠ 0 then 0x007FFFFF else if x = 0x80000000 then 0x80000000 else if x.msb then ~~~ x else x ^^^ 0x80000000
    let score (y : BitVec 32) : BitVec 32 := if y.msb then y ^^^ 0x80000000 else ~~~ y
    let lane (t : State) (v : Fin 32) (l : Nat) : BitVec 32 := BitVec.ofNat 32 ((t.keys r v).getD l 0)
    ∀ (vd vs2 : Fin 32), HasVector s r →
      (vd ≠ vs2 → Runs (exec (.abKeyf core vd vs2) s) (fun u => (∀ l < 128, lane u vd l = key (lane s vs2 l)) ∧
          (∀ v, v ≠ vd → u.keys r v = s.keys r v) ∧ WentOn s u r ∧ OthersStay s u r ∧ OnlyCores s u) ∧
        Runs (exec (.abKeyr core vd vs2) s) (fun u => (∀ l < 128, lane u vd l = score (lane s vs2 l)) ∧
          (∀ v, v ≠ vd → u.keys r v = s.keys r v) ∧ WentOn s u r ∧ OthersStay s u r ∧ OnlyCores s u)) ∧
      (vd = vs2 → Runs (exec (.abKeyf core vd vs2) s) fun u => u = s.trap p r 2 (encR 0 vs2.val 0 0 vd.val 0x5B))

/-- O23. AB.CX, AB.CXP, AB.MX, AB.DROP and AB.BND rewrite key and payload pairs. With a slot bound and the vector unit free, and registers that do not overlap: AB.CX performs one bitonic step on a pair; AB.CXP and AB.MX leave in the first pair, for each lane, the element that comes first of the two compared (last, for d = 0) and in the second the other; AB.DROP replaces duplicate ids by padding and counts them; AB.BND replaces what does not come after the bound by padding. (R182, R183) -/
def Obligations.SortCompareAndCross : Prop :=
  ∀ (s : State) (core : Fin 864) (p : Machine.Part) (r : CtxRef), Issues s core p r → Quiet s r →
    HasVector s r →
      (∀ (vk vp : Fin 32) (i j : Fin 8) (m : Bool), sortRegsOk [vk] [vp] = true → j < i →
        Runs (exec (.abCx core vk vp i j m) s) fun u => u.pair r vk vp = cxStep i.val j.val m (s.pair r vk vp) ∧
          WentOn s u r ∧ OthersStay s u r ∧ OnlyCores s u) ∧
      (∀ (vka vpa vkb vpb : Fin 32) (d m mirror : Bool), sortRegsOk [vka, vkb] [vpa, vpb] = true →
        let at_ (e : List (Nat × Nat)) (l : Nat) : Nat × Nat := nth e l (0, 0)
        let other (l : Nat) : Nat := if mirror then 127 - l else l
        let swap (l : Nat) : Bool := if d then comesFirst m (at_ (s.pair r vka vpa) l) (at_ (s.pair r vkb vpb) (other l))
          else comesFirst m (at_ (s.pair r vkb vpb) (other l)) (at_ (s.pair r vka vpa) l)
        Runs (if mirror then exec (.abMx core vka vpa vkb vpb d m) s else exec (.abCxp core vka vpa vkb vpb d m) s) fun u =>
          (∀ l < 128, at_ (u.pair r vka vpa) l = (if swap l then at_ (s.pair r vkb vpb) (other l) else at_ (s.pair r vka vpa) l) ∧
            at_ (u.pair r vkb vpb) (other l) = (if swap l then at_ (s.pair r vka vpa) l else at_ (s.pair r vkb vpb) (other l))) ∧
          WentOn s u r ∧ OthersStay s u r ∧ OnlyCores s u) ∧
      (∀ (rd vk vp rs1 : Fin 32), sortRegsOk [vk] [vp] = true →
        let e := s.pair r vk vp
        let prev (l : Nat) : Nat := if l = 0 then ((s.ctx r).rx rs1).toNat % 2 ^ 48 else payId (nth e (l - 1) (0, 0)).2
        let dup (l : Nat) : Bool := payId (nth e l (0, 0)).2 != 2 ^ 48 - 1 && payId (nth e l (0, 0)).2 == prev l
        Runs (exec (.abDrop core rd vk vp rs1) s) fun u =>
          u.pair r vk vp = ((List.range 128).map fun l => if dup l then padding else nth e l (0, 0)) ∧
          (rd ≠ 0 → (u.ctx r).rx rd = BitVec.ofNat 64 ((List.range 128).filter dup).length) ∧ WentOn s u r ∧ OthersStay s u r ∧ OnlyCores s u) ∧
      (∀ (vk vp rs1 rs2 : Fin 32), sortRegsOk [vk] [vp] = true →
        let bnd : Nat × Nat := (((s.ctx r).rx rs1).toNat % 2 ^ 32, ((s.ctx r).rx rs2).toNat % 2 ^ 48)
        Runs (exec (.abBnd core vk vp rs1 rs2) s) fun u =>
          u.pair r vk vp = (s.pair r vk vp).map (fun e => if scoreBefore bnd e then e else padding) ∧ WentOn s u r ∧ OthersStay s u r ∧ OnlyCores s u)

/-- O24. AB.QTAKE, AB.QPUT and AB.QREL, and the contexts they wake. A take of a queue with an untaken entry and no context in line gives the entry to the context, with its address; a poll of an empty queue gives 0; a context in line gets the entry that has come. A post with room adds an entry with the context's tag, and a context in line posts when room has come. A release frees the slot that the context took. (R252, R253, R254, R256, R261) -/
def Obligations.QueueTakesAndPosts : Prop :=
  ∀ (s : State) (p : Machine.Part) (q : QueueDef), s.cask.state = 0 →
    (∀ (core : Fin 864) (r : CtxRef) (rd rs1 rs2 : Fin 32), Issues s core p r → Quiet s r →
      (p.queueDef? ((s.ctx r).rx rs1).toNat = some q → (s.core core).st = .running → (q.kind = 0 ∨ q.kind = 1 ∨ q.kind = 3) →
        (s.ctx r).held = none → ((s.ctx r).rx rs2).toNat ≤ 1 →
        (∀ e, (s.queue p.num q.id).oldest = some e → (s.queue p.num q.id).takers = [] → Runs (exec (.abQtake core rd rs1 rs2) s) fun u =>
          (rd ≠ 0 → (u.ctx r).rx rd = BitVec.ofNat 64 (q.slotAddr e.slot)) ∧ (u.ctx r).taken = (s.ctx r).taken ++ [⟨q.id, e.slot⟩] ∧
          u.queue p.num q.id = (s.queue p.num q.id).take e.slot ∧ WentOn s u r ∧ OthersStay s u r) ∧
        ((s.queue p.num q.id).oldest = none → ((s.ctx r).rx rs2).toNat = 1 → Runs (exec (.abQtake core rd rs1 rs2) s) fun u =>
          (u.ctx r).rx rd = (if rd = 0 then (s.ctx r).rx rd else 0) ∧ WentOn s u r ∧ OthersStay s u r ∧ OnlyCores s u) ∧
        ((s.queue p.num q.id).oldest = none → ((s.ctx r).rx rs2).toNat = 0 → Runs (exec (.abQtake core rd rs1 rs2) s) fun u =>
          (u.ctx r).wait = .qtake q.id rd ∧ (u.queue p.num q.id).takers = (s.queue p.num q.id).takers ++ [r])) ∧
      (∀ rl n, p.queueDef? ((s.ctx r).rx rs1).toNat = some q → 3 ≤ q.kind → q.kind ≤ 7 →
        (p.putSource core ((s.ctx r).rx rs2).toNat q.bytes).isSome = true → s.queueFull p.num q = false → (s.queue p.num q.id).posters = [] →
        freeSlot ((s.queue p.num q.id).entries.map (·.slot)) q.size = some n → Runs (exec (.abQput core rd rs1 rs2 rl) s) fun u =>
          (u.queue p.num q.id).entries = (s.queue p.num q.id).entries ++ [{ slot := n, tag := (s.ctx r).tenant, req := none, std := none }] ∧
          (rd ≠ 0 → (u.ctx r).rx rd = 0) ∧ (u.ctx r).pc = (s.ctx r).pc + 4) ∧
      (∀ e, p.queueDef? e.queue = some q → ((s.ctx r).taken.find? fun e => (p.queueDef? e.queue).any fun q => q.slotAddr e.slot == ((s.ctx r).rx rs1).toNat) = some e →
        Runs (exec (.abQrel core rs1) s) fun u => u.queue p.num e.queue = (s.queue p.num e.queue).release e.slot ∧
          (u.ctx r).taken = (s.ctx r).taken.filter (· != e) ∧ WentOn s u r ∧ OthersStay s u r)) ∧
    (∀ (part : Fin 32) (queue : BitVec 16), s.part? part.val = some p → p.queueDef? queue.toNat = some q →
      (∀ e r rest rd, (s.queue p.num q.id).oldest = some e → (s.queue p.num q.id).takers = r :: rest → (s.core r.core).st = .running →
        (s.ctx r).wait = .qtake q.id rd → Runs (exec (.abQtakeWake part queue) s) fun u =>
          (u.ctx r).wait = .ready ∧ (u.ctx r).taken = (s.ctx r).taken ++ [⟨q.id, e.slot⟩] ∧ (rd ≠ 0 → (u.ctx r).rx rd = BitVec.ofNat 64 (q.slotAddr e.slot))) ∧
      (∀ r rest a rd n, (s.queue p.num q.id).posters = r :: rest → s.queueFull p.num q = false → (s.ctx r).wait = .qput q.id a rd →
        freeSlot ((s.queue p.num q.id).entries.map (·.slot)) q.size = some n → Runs (exec (.abQputWake part queue) s) fun u =>
          (u.queue p.num q.id).entries = (s.queue p.num q.id).entries ++ [{ slot := n, tag := (s.ctx r).tenant, req := none, std := none }] ∧
          (u.queue p.num q.id).posters = rest ∧ (u.ctx r).wait = .ready))

/-- O25. AB.YIELD, AB.WAITW and AB.STAMP, and what ends their waits. A yield goes on and turns the core to another ready context where there is one; a wait on a word that already differs completes with it, and one that is equal waits until the word changes or the limit passes; a stamp request waits, and the stamp, written whole, ends the wait. (R246, R257, R258, R259) -/
def Obligations.YieldsAndWordWaits : Prop :=
  ∀ s : State, s.cask.state = 0 →
    (∀ (core : Fin 864) (p : Machine.Part) (r : CtxRef), Issues s core p r → Quiet s r →
      Runs (exec (.abYield core) s) (fun u => WentOn s u r ∧ OthersStay s u r ∧ OnlyCores s u ∧ (u.ctx ⟨core, (u.core core).cur⟩).isReady = true ∧
        ((∃ q : Fin 16, q ≠ r.ctx ∧ (s.ctx ⟨core, q⟩).isReady = true) → (u.core core).cur ≠ r.ctx)) ∧
      (∀ (rd rs1 rs2 : Fin 32) l, p.watchLoc core ((s.ctx r).rx rs1).toNat = some l →
        let w : BitVec 64 := BitVec.ofNat 64 (leNat (s.locRead l 8))
        (w ≠ (s.ctx r).rx rs2 → Runs (exec (.abWaitw core rd rs1 rs2) s) fun u => (rd ≠ 0 → (u.ctx r).rx rd = w) ∧ WentOn s u r ∧ OthersStay s u r ∧ OnlyCores s u) ∧
        (w = (s.ctx r).rx rs2 → Runs (exec (.abWaitw core rd rs1 rs2) s) fun u =>
          (u.ctx r).wait = .waitw ((s.ctx r).rx rs1).toNat w rd ∧ (u.ctx r).pc = (s.ctx r).pc ∧ OthersStay s u r ∧ OnlyCores s u)) ∧
      (∀ (rs1 : Fin 32) l, p.stampLoc core ((s.ctx r).rx rs1).toNat = some l → Runs (exec (.abStamp core rs1) s) fun u =>
        (u.ctx r).wait = .stamp ((s.ctx r).rx rs1).toNat ∧ (u.ctx r).pc = (s.ctx r).pc ∧ OthersStay s u r ∧ OnlyCores s u)) ∧
    (∀ (core : Fin 864) (ctx : Fin 16) (p : Machine.Part), s.corePart core = some p → (s.core core).st = .running →
      let r : CtxRef := ⟨core, ctx⟩
      (∀ a v rd l, (s.ctx r).wait = .waitw a v rd → p.watchLoc core a = some l →
        let w : BitVec 64 := BitVec.ofNat 64 (leNat (s.locRead l 8))
        (w ≠ v → Runs (exec (.waitwWake core ctx) s) fun u => (u.ctx r).wait = .ready ∧ (rd ≠ 0 → (u.ctx r).rx rd = w) ∧ (u.ctx r).pc = (s.ctx r).pc + 4) ∧
        (w = v → (s.ctx r).abwaitlim ≠ 0 → Runs (exec (.waitwLimit core ctx) s) fun u =>
          (u.ctx r).wait = .ready ∧ (rd ≠ 0 → (u.ctx r).rx rd = v) ∧ (u.ctx r).pc = (s.ctx r).pc + 4)) ∧
      (∀ a n o, (s.ctx r).wait = .stamp a → p.stampLoc core a = some (.core n o) → s.canStamp = true → Runs (exec (.stampArrives core ctx) s) fun u =>
        (u.ctx r).wait = .ready ∧ (u.ctx r).pc = (s.ctx r).pc + 4 ∧ u.time = s.takeStamp.2.time ∧
        u.coreSram = s.coreSram.write (n * 2 ^ 18 + o) (s.takeStamp.1.bytes ++ zeros 4)))

/-- O26. AB.RAND, AB.TENANT, the vector slots, AB.FDONE and FENCE.I. AB.RAND writes its hash of the seed and its operands; AB.TENANT takes a bound tag; AB.VACQ binds the lowest free slot, at once or when one comes free, with the vector state fresh; AB.VREL frees the slot; AB.FDONE leaves the hook; FENCE.I goes on. (R249, R260, R261, R262, R267) -/
def Obligations.SmallControlInstructions : Prop :=
  ∀ s : State,
    (∀ (core : Fin 864) (p : Machine.Part) (r : CtxRef), Issues s core p r → Quiet s r →
      (∀ rd rs1 rs2 : Fin 32, Runs (exec (.abRand core rd rs1 rs2) s) fun u =>
        (rd ≠ 0 → (u.ctx r).rx rd = abRandom p.seed ((s.ctx r).rx rs1) ((s.ctx r).rx rs2)) ∧
        (∀ x, x ≠ rd → (u.ctx r).rx x = (s.ctx r).rx x) ∧ WentOn s u r ∧ OthersStay s u r ∧ OnlyCores s u) ∧
      (∀ rs1 : Fin 32, (p.tenants.any fun b => b.tenant == ((s.ctx r).rx rs1).toNat) = true → Runs (exec (.abTenant core rs1) s) fun u =>
        (u.ctx r).tenant = BitVec.ofNat 9 ((s.ctx r).rx rs1).toNat ∧ WentOn s u r ∧ OthersStay s u r ∧ OnlyCores s u) ∧
      (∀ n, (s.ctx r).slot = none → s.freeVSlot core = some n → (s.core core).slotWait = [] → Runs (exec (.abVacq core) s) fun u =>
        (u.ctx r).slot = some n ∧ (u.ctx r).vl = 0 ∧ (u.ctx r).vstart = 0 ∧ WentOn s u r ∧ OthersStay s u r ∧ OnlyCores s u) ∧
      ((s.ctx r).slot.isSome = true → (s.core core).vbusy ≠ some r.ctx → Runs (exec (.abVrel core) s) fun u =>
        (u.ctx r).slot = none ∧ WentOn s u r ∧ OthersStay s u r ∧ OnlyCores s u) ∧
      ((s.ctx r).hook = true → (s.ctx r).held = none → (s.core core).st = .running → Runs (exec (.abFdone core) s) fun u =>
        (u.ctx r).hook = false ∧ WentOn s u r ∧ OthersStay s u r ∧ OnlyCores s u) ∧
      Runs (exec (.fenceI core) s) (fun u => WentOn s u r ∧ (∀ x, (u.ctx r).rx x = (s.ctx r).rx x) ∧ OthersStay s u r ∧ OnlyCores s u)) ∧
    (∀ (core : Fin 864) (p : Machine.Part) n i rest, s.corePart core = some p → s.freeVSlot core = some n → (s.core core).slotWait = i :: rest →
      Runs (exec (.vacqGrant core) s) fun u => (u.ctx ⟨core, i⟩).slot = some n ∧ (u.ctx ⟨core, i⟩).wait = .ready ∧ (u.core core).slotWait = rest ∧ OnlyCores s u)

/-- O27. Loads, stores and atomics of a context in its local SRAM, and fences. At an aligned address of core-local SRAM: LD reads the eight bytes there into rd; SD writes them and nothing else; AMOADD.D adds and returns the old value; LR.D reads and reserves; SC.D writes and returns 0 where the reservation still stands, and returns 1 with nothing written where it does not; FENCE goes on when no store is held. Register x0 takes no value. (R241, R247, R263, R267) -/
def Obligations.CoreLoadsStoresAndAtomics : Prop :=
  ∀ (s : State) (core : Fin 864) (p : Machine.Part) (r : CtxRef), Issues s core p r → Quiet s r →
    ∀ word : BitVec 32,
      let w := word.toNat
      let a := ((s.ctx r).rx (fRs1 w)).toNat
      let cell := core.val * 2 ^ 18
      let old (b : Nat) : BitVec 64 := BitVec.ofNat 64 (leNat (s.coreSram.read (cell + b) 8))
      let sram (u : State) (m : Memory) : Prop := u = { s with cores := u.cores, meter := u.meter, coreSram := m }
      w % 4 = 3 →
      (∀ b, w % 128 = 0x03 → fF3 w = 3 → b = ((s.ctx r).rx (fRs1 w) + immI w).toNat → b % 8 = 0 → b < 0x40000 → Runs (exec (.load core word) s) fun u =>
        (fRd w ≠ 0 → (u.ctx r).rx (fRd w) = old b) ∧ (∀ x, x ≠ fRd w → (u.ctx r).rx x = (s.ctx r).rx x) ∧ WentOn s u r ∧ OthersStay s u r ∧ OnlyCores s u) ∧
      (∀ b, w % 128 = 0x23 → fF3 w = 3 → b = ((s.ctx r).rx (fRs1 w) + immS w).toNat → b % 8 = 0 → b < 0x40000 → Runs (exec (.store core word) s) fun u =>
        sram u (s.coreSram.write (cell + b) (toLE 8 ((s.ctx r).rx (fRs2 w)).toNat)) ∧ WentOn s u r ∧ (∀ x, (u.ctx r).rx x = (s.ctx r).rx x)) ∧
      (w % 128 = 0x2F → fF3 w = 3 → fF7 w / 4 = 0 → a % 8 = 0 → a < 0x40000 → Runs (exec (.amo core word) s) fun u =>
        sram u (s.coreSram.write (cell + a) (toLE 8 (old a + (s.ctx r).rx (fRs2 w)).toNat)) ∧ (fRd w ≠ 0 → (u.ctx r).rx (fRd w) = old a) ∧ WentOn s u r) ∧
      (w % 128 = 0x2F → fF3 w = 3 → fF7 w / 4 = 2 → fRs2 w = 0 → a % 8 = 0 → a < 0x40000 → Runs (exec (.lr core word) s) fun u =>
        (u.ctx r).resv = some (2 ^ 40 + (cell + a) / 64) ∧ (fRd w ≠ 0 → (u.ctx r).rx (fRd w) = old a) ∧ WentOn s u r ∧ OthersStay s u r ∧ OnlyCores s u) ∧
      (w % 128 = 0x2F → fF3 w = 3 → fF7 w / 4 = 3 → a % 8 = 0 → a < 0x40000 →
        ((s.ctx r).resv = some (2 ^ 40 + (cell + a) / 64) → Runs (exec (.sc core word) s) fun u =>
          sram u (s.coreSram.write (cell + a) (toLE 8 ((s.ctx r).rx (fRs2 w)).toNat)) ∧ (u.ctx r).resv = none ∧ (fRd w ≠ 0 → (u.ctx r).rx (fRd w) = 0) ∧ WentOn s u r) ∧
        ((s.ctx r).resv ≠ some (2 ^ 40 + (cell + a) / 64) → Runs (exec (.sc core word) s) fun u =>
          (u.ctx r).resv = none ∧ (fRd w ≠ 0 → (u.ctx r).rx (fRd w) = 1) ∧ WentOn s u r ∧ OthersStay s u r ∧ OnlyCores s u)) ∧
      (w % 128 = 0x0F → fF3 w = 0 → Runs (exec (.fence core word) s) fun u => WentOn s u r ∧ (∀ x, (u.ctx r).rx x = (s.ctx r).rx x) ∧ OthersStay s u r ∧ OnlyCores s u)

/-- O28. Integer instructions of the profile, and results that arrive. LUI and ADDI write their values, a taken BEQ jumps by its offset and an untaken one goes on, and JAL links and jumps; the result of an access that comes later reaches its register and ends the wait for it; a finished divide and a freed vector unit make the waiting contexts ready. (R239, R246, R247, R248) -/
def Obligations.IntegerInstructionsOfTheProfile : Prop :=
  ∀ s : State,
    (∀ (core : Fin 864) (p : Machine.Part) (r : CtxRef), Issues s core p r → Quiet s r → ∀ word : BitVec 32,
      let w := word.toNat
      let put (u : State) (v : BitVec 64) : Prop := (fRd w ≠ 0 → (u.ctx r).rx (fRd w) = v) ∧ (∀ x, x ≠ fRd w → (u.ctx r).rx x = (s.ctx r).rx x) ∧
        OthersStay s u r ∧ OnlyCores s u
      (w % 128 = 0x37 → Runs (exec (.rvInstruction core word) s) fun u => put u (immU w) ∧ WentOn s u r) ∧
      (w % 128 = 0x13 → fF3 w = 0 → Runs (exec (.rvInstruction core word) s) fun u => put u ((s.ctx r).rx (fRs1 w) + immI w) ∧ WentOn s u r) ∧
      (w % 128 = 0x6F → Runs (exec (.rvInstruction core word) s) fun u => put u ((s.ctx r).pc + 4) ∧ (u.ctx r).pc = (s.ctx r).pc + immJ w) ∧
      (w % 128 = 0x63 → fF3 w = 0 → Runs (exec (.rvInstruction core word) s) fun u => OthersStay s u r ∧ OnlyCores s u ∧
        (∀ x, (u.ctx r).rx x = (s.ctx r).rx x) ∧
        (u.ctx r).pc = (s.ctx r).pc + (if (s.ctx r).rx (fRs1 w) = (s.ctx r).rx (fRs2 w) then immB w else 4))) ∧
    (∀ (core : Fin 864) (ctx : Fin 16), (s.core core).st = .running →
      let r : CtxRef := ⟨core, ctx⟩
      (∀ rd x rest, (s.ctx r).loads = .int rd x :: rest → (s.ctx r).wait = .memory → Runs (exec (.accessResultArrives core ctx) s) fun u =>
        (u.ctx r).loads = rest ∧ (rd ≠ 0 → (u.ctx r).rx rd = x) ∧ (u.ctx r).wait = .ready ∧ OthersStay s u r ∧ OnlyCores s u) ∧
      ((s.ctx r).wait = .unit_ → Runs (exec (.divideDone core ctx) s) fun u => (u.ctx r).wait = .ready ∧ (u.ctx r).pc = (s.ctx r).pc ∧ OthersStay s u r ∧ OnlyCores s u) ∧
      (∀ p, s.corePart core = some p → (∀ e ∈ (s.core core).ctxs, e.1 < 16 ∧ e.2.wait ≠ .vrel ∧ (e.2.wait = .vunit → e.1 = ctx.val)) → (s.ctx r).wait = .vunit →
        Runs (exec (.vectorUnitFree core) s) fun u => (u.core core).vbusy = none ∧ (u.ctx r).wait = .ready ∧ OthersStay s u r ∧ OnlyCores s u))

/-- O29. ECALL and EBREAK are exceptions that restart the context. The exceptions of ECALL and EBREAK, for a context that holds no request, no entry and no slot and has not faulted lately, are recorded, counted, and restart it at the entry point of its program; the context loses its reservation. (R268, R269, R270) -/
def Obligations.ContextExceptionsRestart : Prop :=
  ∀ (s : State) (core : Fin 864) (p : Machine.Part) (r : CtxRef), Issues s core p r → Quiet s r →
    ∀ g, p.ctxProg r = some g → (s.ctx r).held = none → (s.ctx r).taken = [] → (s.ctx r).slot = none → (s.ctx r).faultAt = [] → (s.core core).st = .running →
      let after (u : State) : Prop := (u.ctx r).pc = BitVec.ofNat 64 (0x400000 + p.codeOff (tileOf core) g.id + g.entry) ∧ (u.ctx r).wait = .ready ∧
        (u.ctx r).resv = none ∧ (u.ctx r).faults = (if (s.ctx r).faults = 255 then 255 else (s.ctx r).faults + 1) ∧
        (u.ctx r).faultAt.length = 1 ∧ u.errCount 0x06 = s.errCount 0x06 + 1 ∧ OthersStay s u r ∧ u.queues = s.queues ∧ u.req = s.req
      Runs (exec (.ecall core) s) after ∧ Runs (exec (.ebreak core) s) after

/-- O30. Fences of a core: request, drain, force and unfence. A fence request of a core sets its bit and starts the drain, or hard-fences at once with a limit of 0; a forced fence stops it hard; the end of the drain fences it softly, and the limit hard, the clock moved up to it; an unfence clears the bit. (R271, R272, R273, R275, R277, R278) -/
def Obligations.CoreFencesDrainAndForce : Prop :=
  ∀ (s : State) (path : RegPath) (core : Fin 864),
    (Live s → s.coreHeld core = false → RunsThen State.kick (exec (.coreFenceRequest path core) s) fun u => u = s.fenceCore core ∧
      (u.tile (tileOf core)).core.getLsbD (coreNo core) = true ∧
      ((s.core core).st = .running → (s.tile (tileOf core)).limitUs ≠ 0 → (u.core core).st = .draining ∧ (u.core core).drainAt = u.time.up)) ∧
    (Live s → (s.tile (tileOf core)).core.getLsbD (coreNo core) = true → RunsThen State.kick (exec (.coreUnfence path core) s) fun u => u = s.unfenceReq core) ∧
    (Live s → (s.tile (tileOf core)).core.getLsbD (coreNo core) = true → RunsThen State.kick (exec (.coreForce path core false) s) fun u => u = s.hardFence core) ∧
    ((s.core core).st = .draining → s.drained core = true → Runs (exec (.coreDrainEnd core) s) fun u => (u.core core).st = .fenced ∧
      (u.tile (tileOf core)).hard.getLsbD (coreNo core) = false ∧ u = { s with cores := u.cores, tiles := u.tiles }) ∧
    ((s.core core).st = .draining → RunsThen State.kick (exec (.coreDrainLimit core) s) fun u => (u.core core).st = .fenced ∧
      (u.tile (tileOf core)).hard.getLsbD (coreNo core) = true ∧
      u = (s.advanceTo ((s.core core).drainAt + (s.tile (tileOf core)).limitUs.toNat * 1000)).hardFence core)

/-- O31. A gather engine takes, retires and completes its commands. An idle engine that may serve takes the oldest entry of its lowest queue with work and opens the first window of the table version that the command's stamp names; a row of the window retires; a command that has ended with status 0 posts its completion and is counted; PAUSE is set, and the path cache empties. (R222, R223, R226, R228, R233, R234, R235, R236) -/
def Obligations.GatherEngineServesItsQueue : Prop :=
  ∀ (s : State) (tile : Fin 96),
    (∀ p q e d s' t off, (s.gth tile).cmd = none → (s.gth tile).pause = false → s.gatherOn tile = true →
      lowestQueue (s.engineQueues 6 tile fun t => (s.enables t).getLsbD 13) = some (p, q) → s.unitTake p q = some (e, d, s') →
      s'.gatherOk p tile (d.take 64) = true → s'.rack ≤ (stampAt (d.take 64) 8).time.toNat + 50000000 → s'.tableHead p (fieldAt (d.take 64) 2 2) = some off →
      s'.tableVersion p (fieldAt (d.take 64) 2 2) (stampAt (d.take 64) 8) chainFuel off = .found t → t.dims ≠ 0 →
      p.gOk tile (fieldAt (d.take 64) 0x30 8) (fieldAt (d.take 64) 4 4 * t.dims * gOutBytes (d.take 64)) = true →
      fieldAt (d.take 64) 0x38 4 + 256 * t.dims ≤ 0x400000 → Runs (exec (.gatherPool tile) s) fun u =>
        u = ((s'.modGth tile fun g => { g with cmd := some { part := p.num, desc := d.take 64, tag := e.tag, ver := t.off } }).charge e.tag p.num 2
          (gUnits tile (fieldAt (d.take 64) 0x18 8) (8 * fieldAt (d.take 64) 4 4))).openWindow tile) ∧
    (∀ c p x y rest, (s.gth tile).cmd = some c → s.part? c.part = some p → c.windowOpen = true → c.status = none → c.todo = x :: y :: rest →
      Runs (exec (.gatherReadRetire tile) s) fun u => ∃ c', (u.gth tile).cmd = some c' ∧ c'.todo = y :: rest ∧ c'.desc = c.desc ∧ c'.segs = c.segs ∧
        c'.windowOpen = true) ∧
    (∀ c p q n, (s.gth tile).cmd = some c → c.status = some 0 → s.part? c.part = some p → p.queueDef? (fieldAt c.desc 0x14 2) = some q → q.kind = 3 →
      32 ≤ q.bytes → s.queueFull p.num q = false → freeSlot ((s.queue p.num q.id).entries.map (·.slot)) q.size = some n → s.cask.state = 0 →
      Runs (exec (.gatherComplete tile) s) fun u => (u.gth tile).cmd = none ∧ (u.gth tile).cmdCnt = (s.gth tile).cmdCnt + 1 ∧
        (u.gth tile).err = (s.gth tile).err ∧
        (u.queue p.num q.id).entries = (s.queue p.num q.id).entries ++ [{ slot := n, tag := c.tag, req := none, std := none }]) ∧
    (∀ path, Live s → (s.gth tile).pause = false → Runs (exec (.gatherPause path tile true) s) fun u => u = s.modGth tile fun g => { g with pause := true }) ∧
    (∀ path, Live s → (s.gth tile).pause = true → Runs (exec (.gatherPause path tile false) s) fun u =>
      u = (s.modGth tile fun g => { g with pause := false }).openWindow tile) ∧
    (∀ path, Live s → Runs (exec (.pcFlush path tile) s) fun u => (u.gth tile).cache = [] ∧ (u.gth tile).pause = (s.gth tile).pause ∧ u = { s with gather := u.gather })

/-- O32. A matrix engine takes, runs and completes its descriptors. An idle engine that is not paused takes the oldest descriptor of its lowest queue with work, of the op that the command names, and starts its first phase; a phase that ends before the last chunk leaves its sums and goes on to the next chunk; a descriptor that has ended posts its completion and is counted; PAUSE is set. (R282, R283, R284, R289, R297, R298, R299, R313, R314) -/
def Obligations.MatrixEngineServesItsQueue : Prop :=
  ∀ (s : State) (tile : Fin 96),
    (∀ p q e e' b s', (s.mtx tile).cmd = none → (s.mtx tile).pause = false → (∃ a < 4, s.arrayEnabled tile a = true) →
      lowestQueue (s.engineQueues 7 tile fun t => (List.range 4).any (s.arrayEnabled t)) = some (p, q) → (s.queue p.num q.id).oldest = some e →
      s.unitTake p q = some (e', b, s') → matrixOk p tile (b.take 128) = true →
      let taken (u : State) : Prop := u = (s'.modMtx tile fun m => { m with cmd := some { part := p.num, desc := b.take 128, tag := e'.tag } }).startPhase tile
      (fieldAt (s.slotRead p q e.slot) 0 1 ≠ 2 → Runs (exec (.matrix tile) s) taken) ∧
      (fieldAt (s.slotRead p q e.slot) 0 1 = 2 → Runs (exec (.matrixAcc tile) s) taken)) ∧
    (∀ c p, (s.mtx tile).cmd = some c → s.part? c.part = some p → c.running = true → c.status = none →
      let d := parseM c.desc
      let ks := (List.range d.kappa).filterMap fun i => if d.kappa * c.chunk + i < d.k then some (d.kappa * c.chunk + i) else none
      s.phaseBad p tile d c ks = false → c.chunk + 1 < d.chunks → Runs (exec (.matrixPhaseEnd tile) s) fun u =>
        ∃ c', (u.mtx tile).cmd = some c' ∧ c'.chunk = c.chunk + 1 ∧ c'.acc = s.phaseSums p tile d c ks ∧ c'.desc = c.desc ∧
          c'.macs = c.macs + d.tokens c.tb * (d.outs c.nb c.serving.length).length * ks.length ∧
          (u.mtx tile).macCnt = (s.mtx tile).macCnt + BitVec.ofNat 64 (d.tokens c.tb * (d.outs c.nb c.serving.length).length * ks.length)) ∧
    (∀ c p q n, (s.mtx tile).cmd = some c → c.status = some 0 → s.part? c.part = some p → p.queueDef? (parseM c.desc).queue = some q → q.kind = 3 →
      32 ≤ q.bytes → s.queueFull p.num q = false → freeSlot ((s.queue p.num q.id).entries.map (·.slot)) q.size = some n →
      Runs (exec (.matrixComplete tile) s) fun u => (u.mtx tile).cmd = none ∧ (u.mtx tile).descCnt = (s.mtx tile).descCnt + 1 ∧
        (u.mtx tile).err = (s.mtx tile).err ∧
        (u.queue p.num q.id).entries = (s.queue p.num q.id).entries ++ [{ slot := n, tag := c.tag, req := none, std := none }]) ∧
    (∀ path, Live s → (s.mtx tile).pause = false → Runs (exec (.matrixPause path tile true) s) fun u => u = s.modMtx tile fun m => { m with pause := true })

/-- O33. Fences of matrix arrays and gather engines. A fence request of an array sets its bit and drains or fences it, an unfence clears the bit and lets it serve, a forced fence and the drain limit fence it hard; a fence request of a gather engine sets its bit and ends a running command FAILED, and an unfence clears the bit. (R237, R310, R311, R314, R593, R595) -/
def Obligations.ArrayAndGatherFences : Prop :=
  ∀ (s : State) (path : RegPath) (array : Fin 384) (tile : Fin 96),
    let t := array.val / 4
    let a := array.val % 4
    (Live s → (s.tile t).array.getLsbD a = false → RunsThen State.kick (exec (.arrayFenceRequest path array) s) fun u =>
      u = s.fenceArray t a ∧ (u.tile t).array.getLsbD a = true) ∧
    (Live s → (s.tile t).array.getLsbD a = true → RunsThen State.kick (exec (.arrayUnfence path array) s) fun u =>
      u = s.unfenceArray t a ∧ (u.tile t).array.getLsbD a = false) ∧
    (Live s → (s.tile t).array.getLsbD a = true → s.underTest 2 array.val = false → Runs (exec (.arrayForce path array) s) fun u =>
      u = s.hardFenceArray t a ∧ (u.mtx t).hard.getLsbD a = true ∧ (u.mtx t).draining.getLsbD a = false) ∧
    (s.arrayDraining t a = true → Runs (exec (.arrayDrainLimit array) s) fun u => (u.mtx t).hard.getLsbD a = true ∧ (u.mtx t).draining.getLsbD a = false ∧
      u.time.up = max s.time.up ((s.mtx t).drainAt.get 0 a + (s.tile t).limitUs.toNat * 1000)) ∧
    (Live s → (s.tile tile).gather = false → (s.tile tile).gdata = false → RunsThen State.kick (exec (.gatherFenceRequest path tile) s) fun u =>
      (u.tile tile).gather = true ∧ ∀ c, (s.gth tile).cmd = some c → c.status = none → ∃ c', (u.gth tile).cmd = some c' ∧ c'.status = some 6 ∧ c'.windowOpen = false) ∧
    (Live s → (s.tile tile).gather = true → RunsThen State.kick (exec (.gatherUnfence path tile) s) fun u => (u.tile tile).gather = false)

/-- O34. Heat samples, their decay and placement rounds. The placement program applies the oldest entry of a heat queue, halves the heat of every row of a table at its decay period, and performs a placement round of a table. (R218, R219, R221) -/
def Obligations.HeatAndPlacement : Prop :=
  ∀ (s : State) (part : Fin 32) (p : Machine.Part), s.part? part.val = some p → s.works p.num = true →
    (∀ (queue : BitVec 16) q, p.queueDef? queue.toNat = some q → q.kind = 3 → Runs (exec (.heatApply part queue) s) fun u => u = s.heatApply p q) ∧
    (∀ (table : BitVec 16) t, s.curTable p table.toNat = some t → t.decay ≠ 0 → Runs (exec (.heatDecay part table) s) fun u =>
      u = (s.rowPages p t).foldl (fun (s : State) e => s.coolPage p e.2) s) ∧
    (∀ (table : BitVec 16) t desc pub list pages, s.curTable p table.toNat = some t → t.dims ≠ 0 →
      Runs (exec (.placementRound part table desc pub list pages) s) fun u => u = s.placementRound p t ⟨desc, pub, list, pages⟩)

/-- O35. Racking, split and merge act on the highest trigger that holds. For a leaf of a running partition whose append lock is free: the decision is a split when the split threshold is the highest trigger and the split can be done, a merge when the merge threshold is and the merge can be done, and otherwise a racking for the first trigger that calls for one. The row of the decision publishes that new version at its operand places, a racking for a codebook trigger spending its pace; a racking that cannot read a survivor leaves the leaf as it was. (R119, R121, R122, R123, R125, R126, R127, R670) -/
def Obligations.RackingFollowsTheHighestTrigger : Prop :=
  ∀ (s : State) (part : Fin 32) (index : Fin 16) (leaf : BitVec 32) (p : Machine.Part) (c : RackCtx), s.rackCtx part index leaf.toNat = some (p, c) →
    (∀ rest, s.triggers p c.x index c.l = 2 :: rest → s.splitFails p c Stamp.ones = false → s.decision p index c = some (2, 2)) ∧
    (∀ rest, s.triggers p c.x index c.l = 5 :: rest → (s.mergeWith p c Stamp.ones).isSome = true → s.decision p index c = some (3, 5)) ∧
    (∀ t rest, s.triggers p c.x index c.l = t :: rest → t ≠ 2 → t ≠ 5 → s.decision p index c = some (1, t)) ∧
    (∀ (place : List Nat) (q : LeafPlace) (pub node t : Nat) (bad : List Nat), leafPlace place = some q → q.ok p c.x = true → p.placeOk pub 16 16 = true →
      s.decision p index c = some (1, t) →
      (∀ s', s.rackLeaf p index c q pub node bad = some s' → Runs (exec (.racking part index leaf place pub node bad) s) fun u =>
        u = if t = 6 then s'.spendSix p index leaf.toNat else s') ∧
      (s.rackLeaf p index c q pub node bad = none → Runs (exec (.racking part index leaf place pub node bad) s) fun u =>
        u = s.readSurvivors p c.x (s.survivors p c.x c.l Stamp.ones))) ∧
    (∀ (placeA placeB nodes : List Nat) (a b : LeafPlace) (pub fwd t : Nat) (bad : List Nat) (s' : State), leafPlace placeA = some a → leafPlace placeB = some b →
      a.ok p c.x = true → b.ok p c.x = true → p.placeOk pub 16 16 = true → p.placeOk fwd 64 64 = true → s.decision p index c = some (2, t) →
      s.split p index c a b pub nodes fwd bad = some s' →
      Runs (exec (.split part index leaf placeA placeB pub nodes fwd bad) s) fun u => u = s') ∧
    (∀ (place nodes : List Nat) (q : LeafPlace) (pub fa fb t : Nat) (bad : List Nat) (s' : State), leafPlace place = some q → q.ok p c.x = true →
      p.placeOk pub 16 16 = true → p.placeOk fa 64 64 = true → p.placeOk fb 64 64 = true → s.decision p index c = some (3, t) →
      s.merge p index c q pub nodes fa fb bad = some s' →
      Runs (exec (.mergeLeaf part index leaf place pub nodes fa fb bad) s) fun u => u = s')

/-- O36. The read-floor sweep, the durability sweep and the trail writer. In a running partition the read-floor sweep is the floor sweep of R118, and no superseded version whose successor became visible before the read floor stays listed after the reclaiming pass. A due index or leaf that is not locked gets its sweep image. The trail writer programs ripe records in order, halving the horizon in force and setting TRAIL when the trail would overwrite what the sweep needs. (R118, R341, R617, R619, R620, R623) -/
def Obligations.SweepsReclaimAndImage : Prop :=
  (∀ (s : State) (part : Fin 32) (p : Machine.Part), s.part? part = some p → s.works p.num = true →
      Runs (exec (.readFloorSweep part) s) fun u => u = s.floorSweep p) ∧
  (∀ (s : State) (p : Machine.Part) (fl : Stamp) (o : OldVersion), s.reclaimable p fl o = true → o.kind ≠ 2 → o.kind ≠ 0 →
      (s.reclaimAll p fl [o]).srch.old = s.srch.old.erase o) ∧
  (∀ (s : State) (part : Fin 32) (index : Fin 16) (leaf : BitVec 32) (p : Machine.Part) (x : Desc), s.part? part = some p → s.desc? p index = some x →
      s.canPublish = true → s.sweepDue p.num index leaf.toNat = true → s.leafLocked p.num index leaf.toNat = false →
      (leaf = 0xFFFFFFFF → Runs (exec (.durabilitySweep part index leaf) s) fun u => u = s.sweepImage p index leaf.toNat x 6 (s.indexSweep p index x)) ∧
      (∀ l, leaf ≠ 0xFFFFFFFF → s.curLeaf p x leaf.toNat = some l →
        Runs (exec (.durabilitySweep part index leaf) s) fun u => u = s.sweepImage p index leaf.toNat x 5 (s.leafSweep p x l))) ∧
  (∀ s : State, s.storageUp = true → lateSeals s.dur.journal = [] →
      (s.trailBytes ≤ 64 * 10 ^ 9 → RunsThen (fun t => t.retryUpdates.kick) (exec .trailWrite s) fun u =>
        u = { s with dur := { s.dur with journal := (trailRun s.time.up s.dur.journal.reverse).reverse } }) ∧
      (64 * 10 ^ 9 < s.trailBytes → RunsThen (fun t => t.retryUpdates.kick) (exec .trailWrite s) fun u =>
        u = { s with pwr := { s.pwr with errTrail := true, horizonUsed := s.pwr.horizonUsed / 2 },
                     dur := { s.dur with journal := (trailRun s.time.up s.dur.journal.reverse).reverse } })) ∧
  (∀ s : State, s.storageUp = false → Runs (exec .trailWrite s) fun u => u = s)

/-- O37. Refinement: commands, samples and round boundaries. A register command of refinement goes to the command byte of the record that REF_SEL names, where it replaces an earlier one, and changes nothing when no valid record is named. A running index's sample goes from its queue to the held-out or the training samples by its hash, and a late one is counted as dropped. A round boundary of a record that fails its checks puts State 3; a valid one takes the command, and runs the round that is due while State is 1. (R321, R322, R324, R325, R326, R329, R342, R343) -/
def Obligations.RefinementCommandsSamplesAndRounds : Prop :=
  ∀ s : State,
    (∀ path, Live s →
      (∀ p n, s.refSel = some (p, n) →
        Runs (exec (.refRun path) s) (fun u => u = s.rfnSet p n 0xC0 1 1) ∧ Runs (exec (.refPause path) s) (fun u => u = s.rfnSet p n 0xC0 1 2) ∧
        Runs (exec (.refStop path) s) (fun u => u = s.rfnSet p n 0xC0 1 3) ∧ Runs (exec (.refResetOptimiser path) s) (fun u => u = s.rfnSet p n 0xC0 1 4) ∧
        Runs (exec (.refEvaluateNow path) s) (fun u => u = s.rfnSet p n 0xC0 1 5)) ∧
      (s.refSel = none → ∀ c, c ∈ [Instr.refRun path, .refPause path, .refStop path, .refResetOptimiser path, .refEvaluateNow path] →
        Runs (exec c s) fun u => u = s)) ∧
    (∀ (part : Fin 32) (queue : BitVec 16) (p : Machine.Part) (q : QueueDef) (e : QEntry) (n : Nat), s.part? part = some p → s.works p.num = true →
      p.queueDef? queue.toNat = some q → q.kind = 3 → (s.queue p.num q.id).oldest = some e → fieldAt (s.slotRead p q e.slot) 0 1 = 1 →
      n = fieldAt (s.slotRead p q e.slot) 1 1 → n < 16 → s.refineOk p n = true → (s.rfn p n).queue = q.id →
      Runs (exec (.sampleArrival part queue) s) fun u =>
        u = State.takeSample (s.modQueue p.num q.id (·.release e.slot)) p n (s.slotRead p q e.slot)) ∧
    (∀ (p : Machine.Part) (n : Nat) (b : Bytes) (w : Nat), s.replaying p.num = false → (s.rfn p n).state = 1 → (s.rfn p n).windowOf (stampAt b 0x10) = some w →
      s.refn.win.get 0 (p.num * 16 + n) ≤ w →
      let m : RefSample := { part := p.num, index := n, ack := stampAt b 0x10, data := b }
      (bitsOf m.hash ((s.rfn p n).shift + 3) (s.rfn p n).shift ≠ 0 →
        s.takeSample p n b = { s with refn := { s.refn with samples := insSample m s.refn.samples } }) ∧
      (bitsOf m.hash ((s.rfn p n).shift + 3) (s.rfn p n).shift = 0 → (s.refn.reservoir.filter fun y => y.part == p.num && y.index == n).length < 16384 →
        s.takeSample p n b = { s with refn := { s.refn with reservoir := insSample m s.refn.reservoir } })) ∧
    (∀ (part : Fin 32) (index : Fin 16) (p : Machine.Part), s.part? part = some p → s.works p.num = true → 0x100003000 ≤ p.memBytes →
      s.pmNum p (refineAt index + 0x100) 1 ≠ 3 →
      (s.refineOk p index = false → Runs (exec (.refinementRound part index) s) fun u =>
        u = (s.rfnSet p index 0x100 1 3).report { cls := 1, part := p.num, kind := 8, unit := p.num, loc := refineAt index, detail := index }) ∧
      (s.refineOk p index = true → (s.rfn p index).controlOk = false → Runs (exec (.refinementRound part index) s) fun u => u = s.rfnSet p index 0x100 1 3) ∧
      (∀ x, s.refineOk p index = true → (s.rfn p index).controlOk = true → s.desc? p index = some x →
        Runs (exec (.refinementRound part index) s) fun u =>
          let t := s.refCommand p index x (s.rfn p index)
          u = if (t.rfn p index).state = 1 ∧ (s.rfn p index).state = 1 ∧ t.canStamp = true then t.refRound p index x (t.rfn p index) else t))

/-- O38. Refreshes, refresh windows, trainings, temperature and failures of a stack. A due refresh is postponed while the bank runs a chunk or its command bus is occupied, raising the count outstanding, and a postponed one issued lowers it. A refresh window that begins retrains the channel that waits for it. A reading of 85 °C or more doubles the refresh rate, one below 82 °C restores it, and channels 10 °C away from their training are to be retrained; MEM_TRAIN.REQ asks for all 32. A parity error is flagged and reported, one after a reissue fails the stack, and so does a silent controller. (R345, R352, R353, R354, R355, R377, R378, R380) -/
def Obligations.StackEventsAndRefreshes : Prop :=
  ∀ (s : State) (stack : Fin 16), let m := s.memCtl stack
    (∀ (bank : Fin 1024), (s.bank stack bank).refresh = false → Runs (exec (.perBankRefresh stack bank true) s) fun u =>
      (u.bank stack bank) = { s.bank stack bank with refresh := true } ∧
      (u.memCtl stack).outstanding.get 0 (bank.val / 16) = m.outstanding.get 0 (bank.val / 16) + 1 ∧ u = { s with mem := u.mem }) ∧
    (∀ (bank : Fin 1024), (s.bank stack bank).refresh = true → (isMash stack = true → (s.bank stack bank).state ≠ 1) →
      Runs (exec (.perBankRefresh stack bank false) s) fun u =>
        (u.bank stack bank).refresh = false ∧ (u.memCtl stack).outstanding.get 0 (bank.val / 16) = m.outstanding.get 0 (bank.val / 16) - 1 ∧ u = { s with mem := u.mem }) ∧
    (∀ (ch : Fin 32), (∀ e ∈ m.banks, e.1 / 32 = ch.val → e.2.state ≠ 1) → m.trainPend.getLsbD ch = true →
      Runs (exec (.refreshWindow stack ch true) s) fun u =>
        (u.memCtl stack).trainPend.getLsbD ch = false ∧ (u.memCtl stack).trainTemp.get 0 ch = m.temp ∧
        (u.memCtl stack).outstanding.get 0 (2 * ch.val) = 0 ∧ (u.memCtl stack).outstanding.get 0 (2 * ch.val + 1) = 0 ∧ u = { s with mem := u.mem }) ∧
    (∀ (ch : Fin 32), (∃ e ∈ m.banks, e.1 / 32 = ch.val ∧ e.2.state = 1) → ∀ ok, Runs (exec (.refreshWindow stack ch ok) s) fun u => u = s) ∧
    (∀ t : BitVec 8, Runs (exec (.stackTempReadout stack t) s) fun u =>
      (u.memCtl stack).temp = t ∧ (85 ≤ t.toNat → (u.memCtl stack).hot = true) ∧ (t.toNat < 82 → (u.memCtl stack).hot = false) ∧
      (82 ≤ t.toNat → t.toNat < 85 → (u.memCtl stack).hot = m.hot) ∧
      (∀ c < 32, m.state ≠ 2 → (u.memCtl stack).trainPend.getLsbD c =
        (m.trainPend.getLsbD c || decide ((m.trainTemp.get 0 c).toNat + 10 ≤ t.toNat ∨ t.toNat + 10 ≤ (m.trainTemp.get 0 c).toNat))) ∧
      u = { s with mem := u.mem }) ∧
    (∀ path, Live s → m.state ≠ 2 → Runs (exec (.memTrainReq path stack) s) fun u => u.memCtl stack = { m with trainPend := .allOnes 32 } ∧ u = { s with mem := u.mem }) ∧
    Runs (exec (.parityError stack false) s) (fun u =>
      u = (s.modMem stack fun m => { m with err := bput m.err 1 true, reissued := true }).report { cls := 0x08, cause := 1, kind := 4, unit := stack }) ∧
    (m.reissued = true → Runs (exec (.parityError stack true) s) fun u =>
      u = ((s.modMem stack fun m => { m with err := bput m.err 1 true, reissued := false }).report { cls := 0x08, cause := 1, kind := 4, unit := stack }).failStack stack 1) ∧
    (m.state ≠ 2 → Runs (exec (.stackFail stack) s) fun u => u = s.failStack stack 0)

/-- O39. START, CONTINUE and ABORT of a bank, and the pauses of a mash stack. START clears what the bank writes and runs chunk 0 from states 0, 3 and 4; CONTINUE runs the next chunk from state 2; ABORT puts state 4 from 2 and 3 and waits for the end of a running chunk; in any other state an op is ignored. No other bank changes. PAUSE stops the banks at their chunk boundaries, and HOLD_CLR clears the longest hold and keeps PAUSE. (R358, R361, R380) -/
def Obligations.BankOperationsAndPauses : Prop :=
  ∀ (s : State) (mash : Fin 8) (bank : Fin 1024), let k := 8 + mash.val; let b := s.bank k bank
    Runs (exec (.startOp mash bank) s) (fun u =>
      u.bank k bank = (if b.state = 0 ∨ b.state = 3 ∨ b.state = 4 then
        { b with state := 1, chunk := 0, dead := 0, errors := 0, errSlots := [], dcount := 0, dsum := 0, cands := [], aborting := false } else b) ∧
      (∀ n, n ≠ bank.val → u.bank k n = s.bank k n) ∧ u = { s with mem := u.mem }) ∧
    Runs (exec (.continueOp mash bank) s) (fun u =>
      u.bank k bank = (if b.state = 2 then { b with state := 1 } else b) ∧ (∀ n, n ≠ bank.val → u.bank k n = s.bank k n) ∧ u = { s with mem := u.mem }) ∧
    Runs (exec (.abortOp mash bank) s) (fun u =>
      u.bank k bank = (if b.state = 1 then { b with aborting := true } else if b.state = 2 ∨ b.state = 3 then { b with state := 4 } else b) ∧
      (∀ n, n ≠ bank.val → u.bank k n = s.bank k n) ∧ u = { s with mem := u.mem }) ∧
    (∀ path, Live s →
      ((s.memCtl k).pause = false → Runs (exec (.mshPause path mash true) s) fun u => u = s.modMem k fun m => { m with pause := true }) ∧
      ((s.memCtl k).pause = true → Runs (exec (.mshPause path mash false) s) fun u => u = s.setMshPause k false) ∧
      Runs (exec (.holdClr path mash) s) fun u => u = s.modMem k fun m => { m with holdMax := 0 })

/-- O40. The end of a chunk scores its codes, and a scan keeps the first entries in scan order. At the end of a chunk of a bank that no command, refresh or held access waits for, the bank holds what its codes in ascending order leave: skipped, counted in error, or offered; then it goes on, waits under PAUSE, is done at the end of the range, or stopped by an ABORT. Offering entries keeps the first c in scan order and counts and sums the others, and merging two ranges gives what one scan of both would. (R359, R361, R364, R369, R380) -/
def Obligations.ChunksScoreTheirCodes : Prop :=
  (∀ (s : State) (mash : Fin 8) (bank : Fin 1024), let k := 8 + mash.val; let b := s.bank k bank
      (b.state ≠ 1 → Runs (exec (.chunkEnd mash bank) s) fun u => u = s) ∧
      (b.state = 1 → b.held = [] → b.refresh = false → b.cmd = none → (s.memCtl k).bad = [] → Runs (exec (.chunkEnd mash bank) s) fun u =>
        u.bank k bank = { (chunkCodes b.count.toNat b.chunk.toNat).foldl (s.scoreCode k bank [] none) b with
          chunk := b.chunk + 1, aborting := false,
          state := if b.aborting then 4 else if 512 * (b.chunk.toNat + 1) ≥ b.count.toNat then 3 else if (s.memCtl k).pause then 2 else 1 } ∧
        (∀ n, n ≠ bank.val → u.bank k n = s.bank k n) ∧ u = { s with mem := u.mem })) ∧
  (∀ (s : State) (k n : Nat) (b : Bank) (i : Nat),
      (bitOf (nth b.deadMap (i / 8) 0).toNat (i % 8) = true → s.scoreCode k n [] none b i = { b with dead := b.dead + 1 }) ∧
      (bitOf (nth b.deadMap (i / 8) 0).toNat (i % 8) = false →
        let o := offer b.c.toNat (b.first.toNat + i, scanSum b.layout.toNat b.lut (s.locRead (.dram k (n * 100663296 + b.start.toNat + 6 * i)) 6)) b.cands
        (s.scoreCode k n [] none b i).cands = o.1 ∧ (s.scoreCode k n [] none b i).dcount = b.dcount + (if o.2.isSome then 1 else 0))) ∧
  (∀ (c : Nat) (es fs : List (Nat × Nat)) (r q : ScanRange) (d e d' e' : Nat),
      let scan (l : List (Nat × Nat)) : List (Nat × Nat) × Nat × Nat := l.foldl (fun (a : List (Nat × Nat) × Nat × Nat) x =>
        let o := offer c x a.1
        (o.1, a.2.1 + (if o.2.isSome then 1 else 0), a.2.2 + o.2.getD 0)) ([], 0, 0)
      let order (l : List (Nat × Nat)) : List (Nat × Nat) := l.foldl (fun (a : List (Nat × Nat)) x => scanInsert x a) []
      (scan es).1 = (order es).take c ∧ (scan es).2.1 = es.length - c ∧ (scan es).2.2 = (((order es).drop c).map (·.2)).sum ∧
      (r.result = some ((scan es).1, d, e, (scan es).2.1, (scan es).2.2) → q.result = some ((scan fs).1, d', e', (scan fs).2.1, (scan fs).2.2) →
        mergeRanges c [r, q] = ((scan (es ++ fs)).1, d + d', e + e', (scan (es ++ fs)).2.1, (scan (es ++ fs)).2.2)))

/-- O41. Scan commands are taken, run and answered. The dispatcher takes the oldest entry of the first kind-4 queue whose stack has room. A descriptor with a bad check is counted and reported with no result, one the controller does not serve is answered BAD_DESCRIPTOR where its result block lies in the partition, and a good one is held and its ranges start. A finished command is counted, charged and answered with its result block, the ready word last. (R364, R365, R366, R367, R368, R369, R370, R372) -/
def Obligations.ScansAreTakenRunAndAnswered : Prop :=
  (∀ (s : State) (p : Machine.Part) (q : QueueDef) (e : QEntry) (k : Nat), (s.workQueues 4).head? = some (p, q) → (s.queue p.num q.id).oldest = some e →
      s.headStack p q = some k → ((s.memCtl k).cmds.filter (·.finished.isNone)).length < scanCmdMax → e.std = none →
      Runs (exec .scan s) fun u => u = ((s.modQueue p.num q.id (·.release e.slot)).takeScan p q e (s.slotRead p q e.slot)).postAll p.num) ∧
  (∀ s : State, s.workQueues 4 = [] → Runs (exec .scan s) fun u => u = s) ∧
  (∀ (s : State) (p : Machine.Part) (q : QueueDef) (e : QEntry) (d : Bytes), let k := scanTarget d
      let bad := (s.modMem k fun m => { m with badCnt := m.badCnt + 1 }).reportDesc 4 p.num 4 k (q.slotAddr e.slot) q.id e.tag
      let ra := fieldAt d 0x30 8
      (crc32c (d.take 0x3C) ≠ fieldAt d 0x3C 4 → s.takeScan p q e d = bad) ∧
      (crc32c (d.take 0x3C) = fieldAt d 0x3C 4 → (scanOk p d = false ∨ (s.memCtl k).state = 2) → p.regionOk ra 32 = true → ra % 64 = 0 →
        s.takeScan p q e d = ((bad.dWrite p (ra + 0x18) (zeros 8)).dWrite p (ra + 8) [4, 0]).dWrite p ra (toLE 4 (fieldAt d 0x38 4) ++ zeros 4)) ∧
      (crc32c (d.take 0x3C) = fieldAt d 0x3C 4 → scanOk p d = true → (s.memCtl k).state ≠ 2 →
        s.takeScan p q e d = (s.modMem k fun m => { m with cmds := m.cmds ++ [({
            id := m.nextId
            part := p.num
            queue := q.id
            desc := d
            tag := e.tag
            layout := fieldAt d 1 1
            c := fieldAt d 2 2
            ranges := scanRanges d } : ScanCmd)] }).startRanges k)) ∧
  (∀ (s : State) (mash : Fin 8) (c : ScanCmd) (p : Machine.Part), let k := 8 + mash.val
      (s.memCtl k).cmds.find? (·.id == c.id) = some c → s.part? c.part = some p → c.finished = none → c.std = none → c.ranges.all (·.result.isSome) = true →
      s.cask.state = 0 →
      let m := mergeRanges c.c c.ranges
      let status := if m.2.2.1 = 0 then 0 else 8
      let ra := fieldAt c.desc 0x30 8
      let top := (c.ranges.map fun r => r.first + r.count).foldl max 0
      let units := dUnits ra (32 + 4 * m.1.length) + dUnits (fieldAt c.desc 0x20 8) (lutBytes c.layout) +
        (if fieldAt c.desc 0x28 8 = 0 then 0 else dUnits (fieldAt c.desc 0x28 8) (ceilDiv top 8))
      Runs (exec (.scanComplete mash c.id) s) fun u =>
        u = ((((s.modMem k fun x => { x with scanCnt := x.scanCnt + 1 }).charge c.tag p.num 3 1).modMem k fun x =>
          { x with cmds := x.cmds.filter (·.id != c.id) }).charge c.tag p.num 2 units).writeResult p ra (scanResult (fieldAt c.desc 0x38 4) status m))

/-- O42. Lauter commands are taken and answered. The lauter dispatcher takes the head of the first kind-5 queue of its op whose engine has room. A descriptor with a bad check is counted, reported and gets no result; one the engine does not serve, or storage cannot serve, is held with that status; a good one is held with a read for each distinct page. A refused command is answered with its status, a write or deallocate that was applied with its entry count, the ready word last. (R406, R407, R409, R410, R411, R413, R414) -/
def Obligations.LauterCommandsAreTakenAndAnswered : Prop :=
  (∀ (s : State) (op : Nat) (p : Machine.Part) (q : QueueDef) (e : QEntry) (en : Nat), (s.workQueues 5).head? = some (p, q) → (s.queue p.num q.id).oldest = some e →
      e.std = none → s.headLauter p q = (some op, en) → (s.fls.cmds.filter fun c => c.carrier == en && c.finished.isNone).length < lauterMax →
      let taken (u : State) : Prop := u = ((s.modQueue p.num q.id (·.release e.slot)).takeLauterCmd p q e (s.slotRead p q e.slot)).postAll p.num
      (op = 1 → Runs (exec .rescore s) taken) ∧ (op = 2 → Runs (exec .fetch s) taken) ∧
      (op = 3 → Runs (exec .lauterWrite s) taken) ∧ (op = 4 → Runs (exec .deallocate s) taken)) ∧
  (∀ (s : State) (p : Machine.Part) (q : QueueDef) (e : QEntry) (d : Bytes), let en := fieldAt d 1 1 % 8
      let bad := ({ s with fls := { s.fls with ltrBad := s.fls.ltrBad + 1 } }).reportDesc 4 p.num 6 en (q.slotAddr e.slot) q.id e.tag
      let held (t : State) (refuse : Option Nat) (reads : List PageRead) : State := { t with fls := { t.fls with cmds := t.fls.cmds ++ [({
        id := s.fls.nextId
        carrier := en
        part := p.num
        queue := q.id
        desc := d
        tag := e.tag
        refuse := refuse
        reads := reads } : LauterCmd)] } }
      (crcOk d 0x3C = false → s.takeLauterCmd p q e d = bad.flsErr 8) ∧
      (crcOk d 0x3C = true → s.lauterOk p d = false → s.takeLauterCmd p q e d = (held bad (some 4) []).pump en) ∧
      (crcOk d 0x3C = true → s.lauterOk p d = true → s.noStorage (fieldAt d 0 1) = true → s.takeLauterCmd p q e d = (held s (some 0x0A) []).pump en) ∧
      (∀ ext size, crcOk d 0x3C = true → s.lauterOk p d = true → s.noStorage (fieldAt d 0 1) = false → fieldAt d 0 1 ≤ 2 → s.lauterPlace p d = some (ext, size) →
        s.takeLauterCmd p q e d =
          (held s none ((distinct ((s.readEntries p d).filterMap fun x => x.map fun y => pageKey p.num ext y.1)).map s.newRead)).pump en)) ∧
  (∀ (s : State) (c : LauterCmd) (p : Machine.Part), s.lauterCmd? c.id = some c → s.part? c.part = some p → c.finished = none → c.std = none →
      let d := c.desc; let ra := fieldAt d 0x30 8; let n := fieldAt d 4 2
      let t := { s with fls := { s.fls with cmds := s.fls.cmds.filter (·.id != c.id), ltrCnt := s.fls.ltrCnt + 1 } }
      let ready := toLE 4 (fieldAt d 0x38 4) ++ zeros 4
      (c.refuse = some 0x0A → RunsThen State.smart (exec (.lauterComplete c.id) s) fun u => u = t.writeResult p ra (ready ++ lauterHeader 0x0A 0 0 0 [])) ∧
      (c.refuse = none → c.reads = [] → fieldAt d 0 1 = 4 → n ≤ c.applied → RunsThen State.smart (exec (.lauterComplete c.id) s) fun u =>
        u = ((t.charge c.tag p.num 2 (dUnits (fieldAt d 0x18 8) (8 * n))).charge c.tag p.num 2 (dUnits ra 32)).writeResult p ra (ready ++ lauterHeader 0 n 0 0 [])) ∧
      (c.done = false → RunsThen State.smart (exec (.lauterComplete c.id) s) fun u => u = s))

/-- O43. A page comes by the ladder, by rebuild, or not at all. A page read of a command that decodes delivers the page at its step; one that does not goes on to the next step, and a rebuild runs beside the ladder from the last fast step on; after step 8 with a failed rebuild the page is unrecoverable. A rebuild that ends delivers the page, or leaves it to the ladder, or gives it up where its carrier is missing. A patrol read counts its step and moves a weak page. (R399, R401, R403, R404, R405, R422) -/
def Obligations.PagesComeByTheLadder : Prop :=
  (∀ (s : State) (id : Nat) (part : Fin 32) (ext : BitVec 16) (page : BitVec 40) (c : LauterCmd) (r : PageRead), let k := pageKey part ext.toNat page.toNat
      s.lauterCmd? id = some c → c.reads.find? (·.key == k) = some r → r.got = none →
      (r.step ≤ 8 → RunsThen State.smart (exec (.pageReadDone id part ext page true false) s) fun u => u = s.readGot id k (.step r.step)) ∧
      (r.step = 8 → r.rebuildFailed = true → RunsThen State.smart (exec (.pageReadDone id part ext page false false) s) fun u => u = s.readGot id k .unrecoverable) ∧
      (r.step < 8 → RunsThen State.smart (exec (.pageReadDone id part ext page false false) s) fun u =>
        u = s.modRead id k fun r => { r with step := r.step + 1, rebuilding := !r.rebuildFailed && (r.rebuilding || decide (s.fastSteps ≤ r.step) || r.step == 8) }) ∧
      (r.step ≤ 8 → RunsThen State.smart (exec (.pageReadDone id part ext page true true) s) fun u => u = (s.mapPageFailed k).readGot id k (.step r.step)) ∧
      (r.rebuilding = true → RunsThen State.smart (exec (.stripeRebuild id part ext page true) s) fun u => u = s.readGot id k .rebuild) ∧
      (r.rebuilding = true → r.step = 9 → RunsThen State.smart (exec (.stripeRebuild id part ext page false) s) fun u => u = s.readGot id k .unrecoverable) ∧
      (r.rebuilding = true → r.step ≠ 9 → RunsThen State.smart (exec (.stripeRebuild id part ext page false) s) fun u =>
        u = s.modRead id k fun r => { r with rebuilding := false, rebuildFailed := true })) ∧
  (∀ (s : State) (k step : Nat), 1 ≤ step → step ≤ 10 →
      (s.countRead k step).fls.readCnt = s.fls.readCnt + 1 ∧
      (s.countRead k step).fls.retryCnt = (if 2 ≤ step then s.fls.retryCnt + 1 else s.fls.retryCnt) ∧
      (s.countRead k step).fls.rebuiltCnt = (if step = 9 then s.fls.rebuiltCnt + 1 else s.fls.rebuiltCnt) ∧
      (s.countRead k step).fls.unrecCnt = (if step = 10 then s.fls.unrecCnt + 1 else s.fls.unrecCnt)) ∧
  (∀ (s : State) (part : Fin 32) (ext : BitVec 16) (page : BitVec 40) (step : Fin 11), let k := pageKey part ext.toNat page.toNat
      s.fls.patrolDays ≠ 0 → s.background = true → s.media.map.get 0 k ≠ 0 → s.posMissing (homeOf k) = false → step ≠ 0 →
      RunsThen State.smart (exec (.patrol part ext page step) s) fun u => u = (s.countRead k step).weakCheck k step)

/-- O44. Staged bytes are read at once, and stripes, programs and erases run. Bytes staged in a page are what its reads see, the other bytes and pages read as before, and a deallocated page reads zeros. A gathered stripe closes when it is filled or its oldest page is due, the clock moving up to then; a program that passes puts its pages into the media; a failing position, and the third timeout of a die, retire member blocks. An erase that ends counts wear and frees the block, and a checkpoint clears the mark of its map page. (R391, R392, R393, R394, R398, R400, R407, R617) -/
def Obligations.StagedBytesAndStripes : Prop :=
  (∀ (s : State) (k o : Nat) (b : Bytes) (hint : Nat), (s.stage k o b hint).flashRead k o b.length = b ∧
      (∀ j i, j ≠ k → (s.stage k o b hint).flashByte j i = s.flashByte j i)) ∧
  (∀ (s : State) (k i : Nat), i < 16384 → (s.dealloc k).flashByte k i = 0) ∧
  (∀ (s : State) (stream : Fin 3) (b pg : Nat), s.peekPos (streamNo stream) = some (b, pg) → s.storageUp = true →
      let n := ((s.gatherStripe (streamNo stream) (parityPos b pg)).filter Option.isSome).length
      (n = 7 → Runs (exec (.stripeClose stream) s) fun u => u = s.closeStripe (streamNo stream)) ∧
      (∀ t, n ≠ 7 → s.closeDue (streamNo stream) = some t → Runs (exec (.stripeClose stream) s) fun u => u = (s.advanceTo t).closeStripe (streamNo stream))) ∧
  (∀ (s : State) (id : Nat) (v : Stripe), s.media.stripes.find? (·.1 == id) = some (id, v) → v.programming = true →
      RunsThen State.smart (exec (.programDone id []) s) (fun u => u = (s.stripePassed id v).stagingFreed) ∧
      (∀ c : Fin 8, RunsThen State.smart (exec (.programDone id [c]) s) fun u =>
        let t := { s with media := { s.media with stripes := s.media.stripes.filter (·.1 != id) } }
        u = ((((t.countErr 6).flsErr 1).reportBlock 1 c v.block).spendSpare c v.block).stagingFreed)) ∧
  (∀ (s : State) (b : Nat) (v : SBlock), s.block? b = some v → v.erasing = true → s.pwr.state.toNat < 2 →
      RunsThen State.smart (exec (.eraseDone b []) s) fun u => u = s.eraseDone b [] ∧
        ((∀ c < 8, s.posMissing c = false ∧ s.media.weak.get 0 (b * 8 + c) < 3) →
          u.block? b = none ∧ ∀ c < 8, u.media.wear.get 0 (b * 8 + c) = s.media.wear.get 0 (b * 8 + c) + (if v.oneBit then 1 else 8))) ∧
  (∀ (s : State) (ch : Fin 32) (t : Fin 16), let die := ch.val * 16 + t.val
      die ∉ s.media.failedDies → s.media.timeouts.get 0 die < 2 → RunsThen State.smart (exec (.dieTimeout ch t) s) fun u =>
        u = { s with media := { s.media with timeouts := s.media.timeouts.set 0 die (s.media.timeouts.get 0 die + 1) } }) ∧
  (∀ (s : State) (page : Nat), s.storageUp = true → s.pwr.state.toNat < 2 → Runs (exec (.mapCheckpoint page) s) fun u =>
      u = { s with dur := { s.dur with mapDirty := u.dur.mapDirty } } ∧ u.dur.mapDirty.get 0 page = 0)

/-- O45. Kilning, collection, wear levelling and calibration. Kilning folds the oldest steep block that is quiet once the steep buffer reaches its threshold, unless collection is urgent; collection folds the closed block with the least valid data once free space falls below its threshold; wear levelling is held while no carrier's wear spread is over the limit. A calibration of a serving channel moves the clock up to when it falls due and ends 12 µs later, a forced one is counted, and one overdue by 10 s sets its flag. (R385, R396, R397, R398) -/
def Obligations.BackgroundWorkAndCalibration : Prop :=
  ∀ s : State,
    (∀ b v, s.background = true → s.kilnAt ≤ s.steepPct → s.gcUrgent = false →
      leastBlock (fun e => e.2.order) (s.media.blocks.filter fun e => e.2.oneBit && s.quiet e) = some (b, v) →
      Runs (exec .kilning s) fun u => let t := s.foldBlock b fun k => if s.isHot k 0 then .hot else .cold
        u = { t with media := { t.media with heat := (s.validIn b).foldl (fun (h : SMap Nat) k => h.set 0 k 0) t.media.heat } }) ∧
    (s.background = true → s.gcUrgent = true → Runs (exec .kilning s) fun u => u = s) ∧
    (∀ b v, s.background = true → s.freePct < s.fls.gcStart.toNat → (s.gcUrgent = true ∨ s.steepPct < s.kilnAt) → s.gcVictim = some (b, v) →
      Runs (exec .garbageCollection s) fun u => u = s.foldBlock b fun _ => .cold) ∧
    ((∀ c < 8, s.wearSpread c ≤ s.fls.spread.toNat) → Runs (exec .wearLevelling s) fun u => u = s) ∧
    (∀ b v n, s.background = true → (∃ c < 8, s.posMissing c = false ∧ s.fls.spread.toNat < s.wearSpread c) →
      leastBlock (fun e => s.blockWear e.1) (s.media.blocks.filter fun e => !e.2.oneBit && e.2.closed && e.2.stream == .cold && s.quiet e) = some (b, v) →
      s.wornFree = some n → Runs (exec .wearLevelling s) fun u =>
        let keys := s.validIn b
        let o := s.setBlock n { oneBit := false, stream := .cold, order := s.media.nextOrder }
        let m := State.moveInto { o with media := { o.media with nextOrder := s.media.nextOrder + 1 } } .cold (some n) (8 * keys.length + 8) keys
        let r := m.moveInto .cold none (8 * keys.length + 8) (keys.filter fun k => m.blockOf k == some b)
        u = State.startErase { r with media := { r.media with stripes := r.media.stripes.filter fun e => e.2.block != b } } b) ∧
    (∀ ch : Fin 32, s.channelServes ch = true → let t := s.advanceTo (s.flashCh ch).dueTime
      let done (x : State) : State := x.modFlashCh ch fun k => 
        { k with calDue := false, calLate := false, lastCal := x.time.up, calTemp := x.mod.now.get 0 (27 + 2 * (ch.val / 4)), calUntil := x.time.up + 12000 }
      Runs (exec (.calibration ch false) s) (fun u => u = done t) ∧
      (s.grist.clock.calUs ≠ 0 → Runs (exec (.calibration ch true) s) fun u => u = done (t.countErr 14)) ∧
      Runs (exec (.calLate ch) s) fun u => u = ((s.advanceTo ((s.flashCh ch).dueTime + 10000000000)).modFlashCh ch fun k =>
        { k with calDue := true, calLate := true, dueAt := (s.flashCh ch).dueTime }).flsErr 7)

/-- O46. Carriers come, join, leave and are lost. A carrier seated in a slot powers up; without PGOOD in time it fails; with a trained and identified one the set forms, or it is refused, rebuilt or adopted. A removal is granted only with all eight carriers online and ends safe to remove; a forced one acts at once; a cancelled one powers up again. A lost carrier is reported. A rebuild that ends brings its carrier online. An adoption armed for a missing slot expires after 600 s. (R387, R425, R426, R427, R428, R429, R430, R433) -/
def Obligations.CarriersComeAndGo : Prop :=
  ∀ (s : State) (carrier : Fin 8), let k := s.carrier carrier
    (s.pwr.state.toNat < 2 → s.pwr.off = false → (k.state = .absent ∨ k.state = .lost) → Runs (exec (.carrierPresent carrier) s) fun u =>
      u.carrier carrier = { k with present := true, pwrEn := true, state := .powering } ∧ (∀ c, c ≠ carrier.val → u.carrier c = s.carrier c) ∧ u.mod.kEn.getLsbD carrier = true) ∧
    (k.state = .powering → Runs (exec (.carrierPgoodTimeout carrier) s) fun u => u = ((s.setEn carrier false).setCar carrier .failed).reportCarrier carrier 0 0) ∧
    (∀ rec_ ok store, k.state = .powering → RunsThen State.smart (exec (.carrierIdentified carrier rec_ ok store) s) fun u =>
      u = s.carrierIdentified carrier rec_ ok store ∧ (ok = true → s.fls.decided = false → (u.carrier carrier).state = .identifying ∧ (u.carrier carrier).ident = parseIdent rec_)) ∧
    ((s.fls.state = .down ∨ s.fls.state = .forming) → ∀ a b, Runs (exec (.setFormation a b) s) fun u => u = s.setFormation.smart.recoverPending a b) ∧
    (s.found = [] → s.setFormation = s.storageDown 3) ∧
    (∀ path, Live s →
      (s.storageUp = true → s.onlineCount = 8 → RunsThen State.smart (exec (.requestRemoval path carrier) s) fun u => (u.carrier carrier).state = .safe ∧ u = s.requestRemoval carrier) ∧
      ((s.storageUp = false ∨ s.onlineCount < 8) → RunsThen State.smart (exec (.requestRemoval path carrier) s) fun u => u = s.showRefusal carrier) ∧
      ((k.state = .online ∨ k.state = .rebuilding ∨ k.state = .removal) → RunsThen State.smart (exec (.forceRemoval path carrier) s) fun u => u = s.forceRemoval carrier) ∧
      (k.state = .safe → k.present = true → Runs (exec (.cancelRemoval path carrier) s) fun u => u = (s.setEn carrier true).setCar carrier .powering) ∧
      (s.storageUp = true → s.slotMissing carrier = true → k.state ≠ .refused → Runs (exec (.armAdoption path carrier) s) fun u =>
        u = { s with fls := { s.fls with adopt := true, adoptSlot := BitVec.ofNat 3 carrier, adoptAt := s.time.up } })) ∧
    (s.fls.adopt = true → Runs (exec .adoptionExpiry s) fun u => u = let t := s.advanceTo (s.fls.adoptAt + 600000000000)
      { t with fls := { t.fls with adopt := false } }) ∧
    ((k.state = .online ∨ k.state = .rebuilding ∨ k.state = .removal) →
      RunsThen State.smart (exec (.carrierLoss carrier false none) s) (fun u => u = s.loseCarrier carrier .lost) ∧
      RunsThen State.smart (exec (.carrierLoss carrier true none) s) fun u => u = (s.loseCarrier carrier .lost).modCarrier carrier fun x => { x with present := false }) ∧
    (k.state = .rebuilding → s.fls.mbps ≠ 0 → s.pause75 = false → s.storageUp = true → RunsThen State.smart (exec (.rebuildComplete carrier) s) fun u =>
      u = (((s.advanceTo (s.time.up + ceilDiv ((k.total * 2560 * 16384 - s.rebuilt carrier) * 1000) s.fls.mbps.toNat)).modCarrier carrier fun x =>
        { x with todo := [], total := 0, doneBytes := 0 }).setCar carrier .online).settleStorage)

/-- O47. Carrier buttons, seats and sensors. A press is marked and its time kept; released within 4 s it asks for a removal, shows a refusal or cancels a removal by the carrier's state, and at 4 s it forces the removal. A slot whose presence goes away without a loss is off and reads absent. A sensor reading of 75 °C or more holds background work and of 85 °C or more programs, until the readings are below 70 °C and 80 °C, and a channel 10 °C from its last calibration is due one. (R385, R425, R435, R661, R664) -/
def Obligations.CarrierButtonsAndSensors : Prop :=
  ∀ (s : State) (carrier : Fin 8), let c := carrier.val; let k := s.carrier c
    let released : State := { s with mod := { s.mod with pressed := bput s.mod.pressed c false, pressAt := s.mod.pressAt.set 0 c 0 } }
    (s.buttonsLive = true →
      Runs (exec (.pressBegin carrier) s) (fun u => u = 
        { s with mod := { s.mod with pressed := bput s.mod.pressed c true, event := bput s.mod.event c true, pressAt := s.mod.pressAt.set 0 c s.time.up } }) ∧
      (s.mod.pressed.getLsbD c = true → s.time.up < s.mod.pressAt.get 0 c + 4000000000 →
        (k.state = .online → RunsThen State.smart (exec (.shortPress carrier) s) fun u => u = released.requestRemoval c) ∧
        (k.state = .rebuilding → RunsThen State.smart (exec (.shortPress carrier) s) fun u => u = released.showRefusal c) ∧
        ((k.state = .removal ∨ k.state = .safe) → RunsThen State.smart (exec (.shortPress carrier) s) fun u => u = released.cancelRemoval c)) ∧
      (s.mod.pressed.getLsbD c = true → RunsThen State.smart (exec (.buttonHold carrier) s) fun u =>
        let t := s.advanceTo (s.mod.pressAt.get 0 c + 4000000000)
        u = State.forceRemoval { t with mod := { t.mod with pressed := bput t.mod.pressed c false, pressAt := t.mod.pressAt.set 0 c 0 } } c)) ∧
    ((k.state = .safe ∨ k.state = .refused ∨ k.state = .failed) → Runs (exec (.prsntNHigh carrier) s) fun u =>
      (u.carrier c).state = .absent ∧ (u.carrier c).present = false ∧ (u.carrier c).pwrEn = false ∧ (u.carrier c).ident = none ∧
      u.mod.kOff.getLsbD c = false ∧ u.mod.kOn.getLsbD c = true ∧ ∀ d, d ≠ c → u.carrier d = s.carrier d) ∧
    (∀ a b : BitVec 8, let t := max a.toInt b.toInt
      Runs (exec (.carrierSensorRead carrier a b) s) (fun u =>
        u.mod.now.get 0 (27 + 2 * c) = a ∧ u.mod.now.get 0 (28 + 2 * c) = b ∧
        (u.carrier c).pause75 = (if 75 ≤ t then true else if t < 70 then false else k.pause75) ∧
        (u.carrier c).pause85 = (if 85 ≤ t then true else if t < 80 then false else k.pause85)) ∧
      Runs (exec (.carrierAlert carrier a b) s) fun u => u = State.carrierSensors { s with mod := { s.mod with alert := bput s.mod.alert c true } } c a b)

/-- O48. NVMe commands on the storage namespaces. A command of a submission queue whose turn it is is fetched; one for no namespace, beyond its end, or without storage completes with that status and no other effect. A read delivers the blocks' bytes to the host buffer and completes, or completes with an unrecovered read error; a write waits while a staging buffer is full, else stages its bytes and completes; writes are refused while storage is read-only. Write Zeroes, Dataset Management, Verify and Flush do as named. (R392, R402, R418, R419, R421) -/
def Obligations.NamespacesReadAndWrite : Prop :=
  ∀ (s t : State) (sq cid : BitVec 16) (nsid : BitVec 32), sq ≠ 0 → s.fetch sq.toNat = some t →
    Runs (exec (.nvmeFlush sq cid nsid) s) (fun u =>
      u = t.postCqe sq.toNat cid 0 0 (if nsid = 0xFFFFFFFF ∨ (t.nsOf nsid.toNat).isSome = true then nvOk else nvBadNs)) ∧
    (∀ (slba dptr : BitVec 64) (nlb : BitVec 16) (data : Option Bytes), t.nsOf nsid.toNat = none → s.nsOf nsid.toNat = none →
      Runs (exec (.nvmeRead sq cid nsid slba nlb dptr []) s) (fun u => u = t.postCqe sq.toNat cid 0 0 nvBadNs) ∧
      Runs (exec (.nvmeVerify sq cid nsid slba nlb []) s) (fun u => u = t.postCqe sq.toNat cid 0 0 nvBadNs) ∧
      Runs (exec (.nvmeWrite sq cid nsid slba nlb data) s) (fun u => u = t.postCqe sq.toNat cid 0 0 nvBadNs) ∧
      Runs (exec (.nvmeWriteZeroes sq cid nsid slba nlb) s) fun u => u = t.postCqe sq.toNat cid 0 0 nvBadNs) ∧
    (∀ (p : Machine.Part) (e : FlashExt) (slba dptr : BitVec 64) (nlb : BitVec 16), t.nsOf nsid.toNat = some (p, e) → s.nsOf nsid.toNat = some (p, e) →
      let n := nlb.toNat + 1; let l := e.blockSpans slba.toNat n
      (e.lbas < slba.toNat + n → Runs (exec (.nvmeRead sq cid nsid slba nlb dptr []) s) fun u => u = t.postCqe sq.toNat cid 0 0 nvLbaRange) ∧
      (slba.toNat + n ≤ e.lbas → t.storageUp = true →
        Runs (exec (.nvmeRead sq cid nsid slba nlb dptr []) s) (fun u =>
          u = ((((t.countSpans p e l []).countHost false (n * e.lba)).smart).emit (.hostWrite dptr.toNat (t.readSpans p e l))).postCqe sq.toNat cid 0 0 nvOk) ∧
        Runs (exec (.nvmeVerify sq cid nsid slba nlb []) s) (fun u =>
          u = (((t.countSpans p e l []).countHost false (n * e.lba)).smart).postCqe sq.toNat cid 0 0 nvOk) ∧
        (∀ b : Bytes, (∀ x ∈ l, s.stagingFull (pageKey p.num e.id x.1) = false) →
          (t.fls.state ≠ .readOnly → Runs (exec (.nvmeWrite sq cid nsid slba nlb (some b)) s) fun u =>
            u = ((t.writeSpans p e l b).countHost true (n * e.lba)).postCqe sq.toNat cid 0 0 nvOk) ∧
          (t.fls.state = .readOnly → Runs (exec (.nvmeWrite sq cid nsid slba nlb (some b)) s) fun u => u = t.postCqe sq.toNat cid 0 0 nvNsWriteProt)) ∧
        (∀ b : Bytes, (∃ x ∈ l, s.stagingFull (pageKey p.num e.id x.1) = true) → Runs (exec (.nvmeWrite sq cid nsid slba nlb (some b)) s) fun u => u = s) ∧
        (t.fls.state ≠ .readOnly → Runs (exec (.nvmeWriteZeroes sq cid nsid slba nlb) s) fun u =>
          u = ((t.zeroSpans p e l true).countHost true (n * e.lba)).postCqe sq.toNat cid 0 0 nvOk)) ∧
      (∀ (len : BitVec 32) (start : BitVec 64), start.toNat + len.toNat ≤ e.lbas → t.storageUp = true → t.fls.state ≠ .readOnly →
        Runs (exec (.datasetManagement sq cid nsid true (some [(len, start)])) s) fun u =>
          u = (t.zeroSpans p e (e.blockSpans start.toNat len.toNat) true).postCqe sq.toNat cid 0 0 nvOk))

/-- O49. Links train, initialise, keep alive and fail. A fibre detected turns on its engine's channels without fibre and starts their training, and one removed darkens them. A trained Ethernet channel is up; a trained Galmel link enters Init with the next incarnation. An INIT is answered and, with an INIT_ACK that echoes the incarnation in force, the link is up with full credit limits. A channel not up after 2 s fails and trains again 10 s later. Keep-alives, credit frames and the re-initialisation of a silent link follow their timers. (R442, R443, R444, R451, R452, R453, R456) -/
def Obligations.LinksTrainInitialiseAndFail : Prop :=
  ∀ (s : State) (ch : Fin 128), let c := ch.val; let k := s.chan c
    (∀ engine : Fin 8, s.mod.oeOff.getLsbD engine = false → Runs (exec (.fibreDetect engine) s) fun u =>
      let t := { s with fab := { s.fab with fdet := bput s.fab.fdet engine true, detRaw := bput s.fab.detRaw engine true } }
      u = (t.chansOn engine).foldl (fun (a : State) x => if (a.chan x).state == .noFibre then a.startTraining x else a) t) ∧
    (∀ engine : Fin 8, Runs (exec (.fibreRemoved engine) s) fun u =>
      let t := { s with fab := { s.fab with fdet := bput s.fab.fdet engine false, detRaw := bput s.fab.detRaw engine false } }
      u = (t.chansOn engine).foldl State.darken t) ∧
    (k.state = .training → k.eth = true → Runs (exec (.linkTrained ch) s) fun u => (u.chan c).state = .up ∧ (u.chan c).lastRx = s.time.up) ∧
    (k.state = .training → k.eth = false → Runs (exec (.linkTrained ch) s) fun u =>
      (u.chan c).state = .init ∧ (u.chan c).incarnation = k.incarnation + 1 ∧ (u.chan c).initSeen = false ∧ (u.chan c).ackSeen = false ∧
      (u.chan c).ctl = k.ctl ++ [s.ctlFrame c 3 (linkPayload 1 k.width.toNat (k.incarnation + 1).toNat 0)]) ∧
    ((k.state = .training ∨ k.state = .init) → Runs (exec (.trainingTimeout ch) s) fun u =>
      (u.chan c).state = .failed ∧ max s.time.up (k.since + 2000000000) ≤ u.time.up ∧ u.errCount 0x0B = s.errCount 0x0B + 1) ∧
    (k.state = .failed → s.fab.fdet.getLsbD k.engine.toNat = true → Runs (exec (.trainingRetry ch) s) fun u => u = (s.advanceTo (k.since + 10000000000)).startTraining c) ∧
    (k.state = .up → Runs (exec (.lockLoss ch) s) fun u => u = s.leaveUp c .training) ∧
    (k.state = .init → Runs (exec (.initRepeat ch) s) fun u => u = s.sendInit c) ∧
    (k.state = .up → k.eth = false →
      Runs (exec (.keepaliveSend ch) s) (fun u => u = (s.advanceTo (k.lastTx + 10000)).sendCtl c 3 (linkPayload 3 k.width.toNat k.incarnation.toNat 0)) ∧
      Runs (exec (.linkRxTimeout ch) s) (fun u => u = (s.advanceTo (k.lastRx + 100000)).reinit c) ∧
      Runs (exec (.creditSend ch) s) fun u => (u.chan c).ctl = k.ctl ++ [s.ctlFrame c 2 ((k.avail.map fun v => toLE 4 v.toNat).flatten)] ∧ (u.chan c).unreported = false) ∧
    (∀ f : Bytes, TakesFrame s c f → let t := s.modChan c fun k => { k with lastRx := s.time.up }; let p := slice f 32 32
      let fixed := fieldAt p 1 1 = 1 ∧ fieldAt p 3 1 = 0 ∧ allZero (slice p 12 20) = true
      (frameKind f = .keepalive → fixed → fieldAt p 8 4 = 0 → Runs (exec (.keepalive ch f) s) fun u => u = t) ∧
      (frameKind f = .credit → Runs (exec (.credit ch f) s) fun u =>
        u.chan c = { k with lastRx := s.time.up, limit := (List.range 8).map fun i => BitVec.ofNat 32 (fieldAt f (32 + 4 * i) 4) }) ∧
      (frameKind f = .time → Runs (exec (.timeFrame ch f) s) fun u => u.chan c = { k with lastRx := s.time.up, lastPtp := slice f 32 (fieldAt f 2 2) }) ∧
      (frameKind f = .init → fixed → fieldAt p 8 4 = 0 → k.state = .init → k.ackSeen = false → fieldAt p 2 1 = k.width.toNat →
        Runs (exec (.linkInit ch f) s) fun u => let w := { t.chan c with peer := BitVec.ofNat 16 (fieldAt f 4 2) }
          u.chan c = { w with ctl := k.ctl ++ [(t.setChan c w).ctlFrame c 3 (linkPayload 2 k.width.toNat k.incarnation.toNat (fieldAt p 4 4))], initSeen := true }) ∧
      (frameKind f = .ack → fixed → k.state = .init → k.initSeen = true → fieldAt p 8 4 = k.incarnation.toNat →
        Runs (exec (.initAck ch f) s) fun u => (u.chan c).state = .up ∧ (u.chan c).ackSeen = true ∧
          (u.chan c).avail = List.replicate 7 (BitVec.ofNat 32 (512 * k.lanes)) ++ [0]))

/-- O50. Frames become messages, and a channel picks its next frame. An errored frame re-initialises its link, a frame for another node and one with a bad FCS are dropped and counted; a good DATA frame joins its reassembly, and a complete message is handed on. A reassembly incomplete after 1 ms is dropped. At a frame boundary LINK and CREDIT frames go first, then TIME frames, then queue 0 when eligible, then the eligible queue of lowest finish tag. A queue's shaper makes it eligible when its credit is back to 0. (R449, R450, R454, R462, R470, R471, R472) -/
def Obligations.FramesMessagesAndEgress : Prop :=
  ∀ (s : State) (ch : Fin 128) (f : Bytes), let c := ch.val; let k := s.chan c
    (s.inputStopped = false → s.comp.wanted = none → k.eth = false → (k.state = .up ∨ k.state = .init) →
      Runs (exec (.dataFrame ch f true) s) (fun u => u = (s.rxDropped c (some 0)).reinit c)) ∧
    (TakesFrame s c f → k.state = .up → fieldAt f 0 1 = 1 → Runs (exec (.dataFrame ch f false) s) fun u =>
      let t := s.modChan c fun k => { k with lastRx := s.time.up }
      let r := t.rxData c f (t.acctLen c (fieldAt f 2 2)) (bitsOf (fieldAt f 1 1) 5 4) 0
      u = match r.2 with | some m => r.1.handOn m | none => r.1) ∧
    (s.inputStopped = false → s.comp.wanted = none → k.eth = true → k.state = .up →
      (f.length < 64 ∨ fcs (f.take (f.length - 4)) ≠ fieldAt f (f.length - 4) 4) → Runs (exec (.ethernetFrame ch f) s) fun u => u = s.rxDropped c (some 4)) ∧
    (s.inputStopped = false → s.comp.wanted = none → k.eth = true → k.state = .up → 64 ≤ f.length → fcs (f.take (f.length - 4)) = fieldAt f (f.length - 4) 4 →
      beNat (slice f 0 6) ≠ (s.fab.mac + BitVec.ofNat 48 c).toNat → beNat (slice f 0 6) ≠ 0x011B19000000 → beNat (slice f 0 6) ≠ 0x0180C200000E →
      Runs (exec (.ethernetFrame ch f) s) fun u => u = s.rxDropped c none) ∧
    (∀ (bit : Option Nat), (s.rxDropped c bit).chan c = { k with rxDrop := k.rxDrop + 1, err := match bit with | some b => bput k.err b true | none => k.err }) ∧
    (∀ (src : BitVec 16) (cls : BitVec 3) (mid : BitVec 16) (r : Reasm), k.eth = true → k.reasm.find? (fun r => r.src == src && r.cls == cls && r.mid == mid) = some r →
      Runs (exec (.reassemblyTimeout ch src cls mid) s) fun u =>
        u = (((s.advanceTo (r.since + 1000000)).modChan c fun k => { k with reasm := k.reasm.filter fun r => !(r.src == src && r.cls == cls && r.mid == mid) }).freeUnits
          c cls.toNat r.units).rxDropped c (some 2)) ∧
    (s.cask.base = [] → s.cask.ring = [] →
      (∀ a l, (k.state = .up ∨ k.state = .init) → k.ctl = a :: l → Runs (exec (.egressSelect ch) s) fun u =>
        u = (s.setChan c { k with ctl := l, lastTx := s.time.up }).emit (.frame c a)) ∧
      (∀ a l, k.state = .up → k.ctl = [] → k.timeq = a :: l → Runs (exec (.egressSelect ch) s) fun u =>
        u = (s.setChan c { k with timeq := l, lastTx := s.time.up }).emit (.frame c a)) ∧
      (k.state = .up → k.ctl = [] → k.timeq = [] → let t := s.refreshTags c
        (t.eligible c 0 = true → Runs (exec (.egressSelect ch) s) fun u => u = t.sendHead c 0) ∧
        (∀ q, t.eligible c 0 = false → t.wfqPick c = some q → Runs (exec (.egressSelect ch) s) fun u => u = t.sendHead c q ∧ 1 ≤ q ∧ q < 8 ∧ t.eligible c q = true) ∧
        (t.eligible c 0 = false → t.wfqPick c = none → Runs (exec (.egressSelect ch) s) fun u => u = t ∧ ∀ q < 8, t.eligible c q = false))) ∧
    (∀ queue : Fin 8, let q := (nth k.queues queue {}).credited s.time.up
      (q.rate ≠ 0 → q.credit < 0 → Runs (exec (.shaperEligible ch queue) s) fun u => u = (s.advance (ceilDiv (-q.credit).toNat q.rate.toNat)).egress c) ∧
      ((q.rate = 0 ∨ 0 ≤ q.credit) → Runs (exec (.shaperEligible ch queue) s) fun u => u = s.egress c))

/-- O51. Rack time locks, holds over and slews. A sync message on an up channel sets the slew against the measured offset, half of it in ppm and at most 500, and keeps the master's channel. The sixteenth within 20 ns locks; a locked clock stays locked within 100 ns and holds over beyond; an offset beyond 1 ms after the first stamp sets FAULT and is reported. Three intervals without a message hold over. With SELF and no other master an announce interval locks the node to its own time. The first lock steps rack time, never below the stamp floor plus 1 ns. (R464, R466, R467, R668) -/
def Obligations.RackTimeLocksHoldsAndSlews : Prop :=
  ∀ s : State,
    (∀ (ch : Fin 128) (master : BitVec 64) (offset freq : Int), (s.chan ch).state = .up →
      let near := -20 ≤ offset ∧ offset ≤ 20
      let slewed : State := 
        { s with time := { s.time with good := (if near then s.time.good + 1 else 0), syncAt := s.time.up, offset := sat16 offset, port := BitVec.ofNat 7 ch, via := true, slew := slewOf offset, freq := freq } }
      ((s.time.issued = false ∨ (-1000000 ≤ offset ∧ offset ≤ 1000000)) →
        (s.time.state = .locked → -100 ≤ offset → offset ≤ 100 → Runs (exec (.ptpSync ch master offset freq) s) fun u => u = slewed) ∧
        (s.time.state = .locked → (offset < -100 ∨ 100 < offset) → Runs (exec (.ptpSync ch master offset freq) s) fun u =>
          u = { slewed with time := { slewed.time with state := .holdover, good := 0 } }) ∧
        (s.time.state ≠ .locked → slewed.time.good < 16 → Runs (exec (.ptpSync ch master offset freq) s) fun u => u = slewed) ∧
        (s.time.state ≠ .locked → 16 ≤ slewed.time.good → Runs (exec (.ptpSync ch master offset freq) s) fun u => u = slewed.lockTo master.toNat)) ∧
      (s.time.issued = true → (offset < -1000000 ∨ 1000000 < offset) → Runs (exec (.ptpSync ch master offset freq) s) fun u =>
        u.time.fault = true ∧ u.errCount 0x0D = s.errCount 0x0D + 1)) ∧
    (∀ offset : Int, -500 ≤ slewOf offset ∧ slewOf offset ≤ 500 ∧ (0 ≤ offset → slewOf offset ≤ 0) ∧ (offset ≤ 0 → 0 ≤ slewOf offset)) ∧
    Runs (exec .syncTimeout s) (fun u => let t := s.advanceTo (s.time.syncAt + 187500000)
      u = { t with time := { t.time with state := if t.time.state = .locked then .holdover else t.time.state, via := false, port := 0x7F, good := 0, slew := 0 } }) ∧
    (∀ kind : Fin 3, let ups := (s.fab.chans.filter fun e => e.2.state == .up).map fun e => e.1
      let sent := ups.foldl (fun (t : State) c => t.emit (.ptp c kind)) s
      ((kind.val ≠ 1 ∨ s.time.via = true) → Runs (exec (.syncInterval kind) s) fun u => u = sent) ∧
      (kind.val = 1 → s.time.via = false → s.fab.self = true → s.time.state ≠ .locked → Runs (exec (.syncInterval kind) s) fun u => u = sent.lockTo s.time.setTo.toNat) ∧
      (kind.val = 1 → s.time.via = false → s.fab.self = false → s.time.state = .locked → Runs (exec (.syncInterval kind) s) fun u =>
        u = { sent with time := { sent.time with state := .holdover } })) ∧
    (∀ target f : Nat, s.time.lockedOnce = false → s.time.issued = false → s.time.floor = some f → target < 2 ^ 64 → f + 1 < 2 ^ 64 →
      (s.firstLock target).rack = (if f = 0 then target else max target (f + 1)) ∧ (s.firstLock target).time.lockedOnce = true) ∧
    (∀ target, s.time.issued = true → (s.firstLock target).rack = s.rack)

/-- O52. Maps are offered, fetched and confirmed, and requests held for one are released. A map from the management path or a MAP_OFFER that passes the checks and has a higher epoch is adopted; the held map again confirms it; another is rejected with its code and changes nothing else, counted as a conflict where its epoch is the held one. A MAP_FETCH is answered with the current map. The fetch of a wanted map repeats after 1 ms, and of an unconfirmed one every 10 ms to the search nodes in reach. A held request whose limit passes is refused BUSY. (R486, R487, R489, R490, R492, R500) -/
def Obligations.MapsAreOfferedFetchedAndConfirmed : Prop :=
  ∀ s : State,
    (∀ path (b : Bytes), Live s → s.comp.busy = false → b.length = s.comp.hostLen.toNat → 0 < b.length → b.length ≤ 62528 → b.length % 8 = 0 → s.comp.hostAddr.toNat % 8 = 0 →
      RunsThen State.kick (exec (.compGo path (some b)) s) fun u => u = s.offerMap (some b)) ∧
    (∀ path, Live s → s.comp.busy = true → ∀ b, RunsThen State.kick (exec (.compGo path b) s) fun u => u = { s with comp := { s.comp with refused := true } }) ∧
    (∀ path, Live s → s.comp.busy = false → RunsThen State.kick (exec (.compGo path none) s) fun u => u = { s with comp := { s.comp with err := 1 } }) ∧
    (∀ src b, Runs (exec (.mapOffer src b) s) fun u => u = s.offerMap (some b)) ∧
    (∀ b : Bytes, (s.comp.map.isSome = true ∧ b = s.comp.raw → s.offerMap (some b) = s.confirmMap) ∧
      (¬ (s.comp.map.isSome = true ∧ b = s.comp.raw) → parseMap b = none → s.offerMap (some b) = { s with comp := { s.comp with err := 2 } }) ∧
      (∀ m, ¬ (s.comp.map.isSome = true ∧ b = s.comp.raw) → parseMap b = some m →
        (s.mapErr m b = 0 → s.offerMap (some b) = s.adopt m b true) ∧
        (s.mapErr m b = 3 → m.epoch = s.epoch → s.offerMap (some b) = State.conflict { s with comp := { s.comp with err := 3 } } 0 0xFFFF) ∧
        (s.mapErr m b ≠ 0 → s.mapErr m b ≠ 3 → s.offerMap (some b) = { s with comp := { s.comp with err := BitVec.ofNat 8 (s.mapErr m b) } }))) ∧
    (∀ (src : BitVec 16) (e : BitVec 32), s.comp.map.isSome = true → e.toNat < s.epoch → s.comp.wanted = none →
      Runs (exec (.mapFetch src e) s) fun u => u = s.sendNode src.toNat 0x21 s.comp.raw) ∧
    (∀ e n, s.comp.wanted = some (e, n) → n ≠ 0xFFFF → Runs (exec .mapFetchRepeat s) fun u =>
      let t := s.advanceTo (s.comp.fetchAt - 1 + 1000000)
      u = State.sendNode { t with comp := { t.comp with fetchAt := t.time.up + 1 } } n 0x20 (toLE 4 e ++ zeros 4)) ∧
    (s.comp.map.isSome = true → s.mapConfirmed = false → Runs (exec .confirmFetch s) fun u =>
      let t := s.advanceTo (s.comp.confirmAt + 10000000)
      u = s.reachable.foldl (fun (a : State) n => a.sendNode n 0x20 (toLE 4 s.epoch ++ zeros 4)) { t with comp := { t.comp with confirmAt := t.time.up } }) ∧
    (∀ (n : Nat) (h : HeldReq), s.req.held[n]? = some h → h.discard = false →
      let out (limit : Nat) : State := let t := s.advanceTo (h.since + limit)
        State.refuse { t with req := { t.req with held := t.req.held.eraseIdx n } } h.src h.data stBusy
      (h.claim = false → Runs (exec (.epochHoldTimeout n) s) fun u => u = out 2000000) ∧
      (h.claim = true → Runs (exec (.claimHoldTimeout n) s) fun u => u = out 5000000))

/-- O53. Claims are answered, mirrors confirm and follow, and meters are snapped. A CLAIM is answered NONE for a shard the node neither owns nor claims, KEEP with its ownership stamp for one it claims, and YIELD with its last acknowledgement stamp once every update is answered. A YIELD or NONE from the previous owner lets a claim go on. A mirror keeps an update in acknowledgement order and confirms it, or withholds the confirmation of a long backlog, and one that it has confirmed before it only confirms again (log entry 124); a confirmed update of the owner is acknowledged, and without a MIRROR_ACK for 1 ms acknowledgements are held. METER_SNAP copies the selected set. (R495, R496, R497, R499, R501, R514) -/
def Obligations.ClaimsMirrorsAndMeters : Prop :=
  ∀ (s : State) (src : BitVec 16) (shard : Fin 1024), s.cask.state = 0 → let i := shard.val; let k := s.shard i
    let reply (t : State) (result : Nat) (st : Stamp) : State := t.sendNode src.toNat 0x23 (claimReplyBody i result t.epoch st)
    (∀ e : BitVec 32, let n := BitVec.ofNat 16 i
      (s.mapShard i = none → RunsThen State.kick (exec (.claim src n e) s) fun u => u = reply s 2 Stamp.zero) ∧
      (∀ x, s.mapShard i = some x →
        (s.mapConfirmed = true → s.holder x = s.me → k.role ≠ .owner → RunsThen State.kick (exec (.claim src n e) s) fun u => u = reply s 1 k.ostamp) ∧
        (s.holder x ≠ s.me → (k.role = .owner ∨ k.role = .yielding) → s.updatesOf x = [] → RunsThen State.kick (exec (.claim src n e) s) fun u =>
          u = ((reply s 0 k.lastAck).modShard i fun k' => { k' with role := .yielding, yieldTo := some k.lastAck }).settleYield x) ∧
        (s.holder x ≠ s.me → (k.role = .owner ∨ k.role = .yielding) → s.updatesOf x ≠ [] → RunsThen State.kick (exec (.claim src n e) s) fun u => u = s) ∧
        (∀ stamp : BitVec 96, k.role = .claiming → x.previous = src.toNat →
          Runs (exec (.claimReply src n 0 e stamp) s) (fun u => u = (s.modShard i fun k => { k with yieldTo := some (stampAt (toLE 12 stamp.toNat) 0) }).tryOwn x) ∧
          Runs (exec (.claimReply src n 2 e stamp) s) fun u => u = (s.modShard i fun k => { k with yieldTo := some Stamp.ones }).tryOwn x))) ∧
    (∀ m, s.comp.map = some m → s.mapConfirmed = true → (m.shards.any fun x => (s.shard x.id).role == .claiming) = true → Runs (exec .claimRepeat s) fun u =>
      let t := s.advanceTo (s.comp.claimAt + 1000000)
      u = m.shards.foldl State.repeatClaim { t with comp := { t.comp with claimAt := t.time.up } }) ∧
    (∀ (body : Bytes) (x : MapShard), let b := pad8 body
      s.mapShard (fieldAt b 0 2) = some x → fieldAt b 2 2 = 0 → x.mirrored = true → x.mirror = s.me →
      let n := fieldAt b 0 2
      let it : MirrorItem := { ack := stampAt b 8, request := (b.drop 0x20).take (rqLen (b.drop 0x20)), journal := slice (b.drop 0x20) (rqLen (b.drop 0x20)) (fieldAt b 0x18 4), upd := 0, sentAt := s.time.up }
      let t := s.modShard n fun k => { k with toApply := insertItem it k.toApply, lastAck := if k.lastAck.before it.ack then it.ack else k.lastAck }
      Runs (exec (.mirrorUpdate src body) s) fun u =>
        u = if (s.shard n).lastAck.before it.ack then
              if mirrorMax < (t.shard n).toApply.length then t.modShard n fun k => { k with withheld := k.withheld ++ [it.ack] } else t.mirrorAckSend src.toNat n it.ack
            else if it.ack ∈ (s.shard n).withheld then s
            else s.mirrorAckSend src.toNat n it.ack) ∧
    (∀ body, Runs (exec (.mirrorSync src body) s) fun u => u = s.mirrorSync (pad8 body)) ∧
    (∀ x, s.mapShard i = some x → k.role = .resyncing → Runs (exec (.mirrorApply shard) s) fun u => u = s) ∧
    (∀ x p, s.mapShard i = some x → k.role ≠ .resyncing → s.svcPart (if x.owner = s.me then x.service else x.mirrorService) = some p →
      Runs (exec (.mirrorApply shard) s) fun u => u = (((s.applyItems x p (2 * k.toApply.length + 1)).releaseAcks x).tryOwn x).kick) ∧
    (∀ (stamp : BitVec 96) (it : MirrorItem) (up : Update), let a := stampAt (toLE 12 stamp.toNat) 0
      k.unacked.find? (·.ack == a) = some it → s.update? it.upd = some up → RunsThen (fun t => t.retryUpdates.kick) (exec (.mirrorAck src shard stamp) s) fun u =>
        u = (s.modShard i fun k => { k with unacked := k.unacked.filter (·.ack != a), held := k.held && decide (1 < k.unacked.length) }).ackUpdate up) ∧
    (∀ it rest, k.unacked = it :: rest → Runs (exec (.mirrorAckTimeout shard) s) fun u =>
      u = (s.advanceTo (it.sentAt + 1000000)).modShard i fun k => { k with held := true }) ∧
    (∀ path, Live s → let n := min s.meter.sel.toNat 288; let m := s.meter.sets.get MeterSet.reset n
      Runs (exec (.meterSnap path) s) fun u =>
        u = { s with meter := { s.meter with snap := m.cnt, snapWrap := m.wrap, sets := s.meter.sets.set MeterSet.reset n { m with wrap := 0 } } })

/-- O54. Lent extents are asked for, served and given an answer. The lend unit takes a command of its queue: one it cannot read is answered BAD_DESCRIPTOR, one with no entry NOT_LENT, and a good one goes to the lender with a fresh tag. The lender answers NOT_LENT without an entry, LOST where the extent is gone, and reads or writes lent memory otherwise. A reply puts the data of a read in place and completes the command, and without one for 2 ms it fails. (R505, R506, R507, R508, R509) -/
def Obligations.LendsAreAskedServedAndEnded : Prop :=
  ∀ (s : State) (src : BitVec 16), s.cask.state = 0 →
    (∀ (part : Fin 32) (p : Machine.Part) (q : QueueDef) (e : QEntry), s.part? part = some p → p.queueDef? lendQueue = some q → q.kind = 3 →
      (s.queue p.num q.id).oldest = some e → let d := s.slotRead p q e.slot; let t := s.modQueue p.num q.id (·.release e.slot)
      let ent : Option MapLend := t.comp.map.bind fun m => m.lends.find? fun l => l.id == fieldAt d 2 2 && l.borrower == t.me && l.borrowerPart == part
      (lendOk p d = false → Runs (exec (.lendCommand part) s) fun u => u = t.lendDone p d 4) ∧
      (lendOk p d = true → ent = none → Runs (exec (.lendCommand part) s) fun u => u = t.lendDone p d 0xC) ∧
      (∀ l, lendOk p d = true → ent = some l → lendShapeOk l.flash (fieldAt d 4 4) (fieldAt d 8 8) = true → fieldAt d 0 1 = 1 →
        Runs (exec (.lendCommand part) s) fun u =>
          u = State.sendNode { t with comp := { t.comp with nextTag := t.comp.nextTag + 1, lends := t.comp.lends ++ [⟨t.comp.nextTag, part, d, t.time.up⟩] } } l.lender 0x28
            (toLE 2 l.id ++ zeros 2 ++ toLE 4 (fieldAt d 4 4) ++ toLE 8 (fieldAt d 8 8) ++ toLE 8 t.comp.nextTag ++ []))) ∧
    (∀ body, let b := pad8 body
      let ent : Option MapLend := s.comp.map.bind fun m => m.lends.find? fun l => l.id == fieldAt b 0 2 && l.lender == s.me && l.borrower == src.toNat
      let answer (t : State) (st : Nat) (data : Bytes) : State := t.sendNode src.toNat 0x2A (toLE 2 (fieldAt b 0 2) ++ toLE 1 st ++ zeros 5 ++ toLE 8 (fieldAt b 0x10 8) ++ data)
      (ent = none → Runs (exec (.lendRead src body) s) (fun u => u = answer s 0xC []) ∧ Runs (exec (.lendWrite src body) s) fun u => u = answer s 0xC []) ∧
      (∀ l p (e : MemExt), ent = some l → l.flash = false → lendShapeOk false (fieldAt b 4 4) (fieldAt b 8 8) = true → s.part? l.lenderPart = some p →
        p.general[l.extent]? = some e → fieldAt b 8 8 + fieldAt b 4 4 ≤ e.len * GiB →
        ((s.memCtl e.stack).state = 2 → Runs (exec (.lendRead src body) s) fun u => u = answer s 0xB []) ∧
        ((s.memCtl e.stack).state ≠ 2 → s.comp.lost.find? (·.1 == l.id) = none → let a : Loc := .dram e.stack (e.base * GiB + fieldAt b 8 8)
          Runs (exec (.lendRead src body) s) (fun u => u = answer s 0 (s.locRead a (fieldAt b 4 4))) ∧
          Runs (exec (.lendWrite src body) s) fun u => u = answer (s.locWrite a (slice b 0x18 (fieldAt b 4 4))) 0 []))) ∧
    (∀ body (c : LendCmd) p, let b := pad8 body
      s.comp.lends.find? (·.tag == fieldAt b 8 8) = some c → s.part? c.part = some p → let t := { s with comp := { s.comp with lends := s.comp.lends.filter (·.tag != c.tag) } }
      (fieldAt c.desc 0 1 = 1 → fieldAt b 2 1 = 0 → Runs (exec (.lendReply src body) s) fun u =>
        u = (t.dWrite p (fieldAt c.desc 0x10 8) (slice b 0x10 (fieldAt c.desc 4 4))).lendDone p c.desc 0) ∧
      (fieldAt b 2 1 ≠ 0 → Runs (exec (.lendReply src body) s) fun u => u = t.lendDone p c.desc (fieldAt b 2 1))) ∧
    (∀ (c : LendCmd) p, s.comp.lends.find? (·.tag == c.tag) = some c → s.part? c.part = some p → Runs (exec (.lendTimeout c.tag) s) fun u =>
      let t := s.advanceTo (c.sentAt + 2000000)
      u = State.lendDone { t with comp := { t.comp with lends := t.comp.lends.filter (·.tag != c.tag) } } p c.desc 6)

/-- O55. The host link, the controller's enable and shutdown, and the doorbells. A trained link shows its speed and width; a loss of it, PERST, hot reset and FLR clear the controller and the MSI-X table, and a link that was up counts as down once. Enabling the controller with an image running makes it ready with its admin queues; clearing EN or entering D3hot clears it but for the admin registers; a shutdown request is complete when no command is outstanding, or after 100 ms. A doorbell inside its queue moves that queue's tail or head. A failed host read of an entry or write of a completion stops the controller. (R516, R517, R521, R522, R525, R535) -/
def Obligations.HostLinkControllerAndDoorbells : Prop :=
  ∀ s : State,
    (∀ (speed : BitVec 3) (width : BitVec 5) (flit msix : Bool), linkOk speed.toNat width.toNat = true → Runs (exec (.pcieLinkUp speed width flit msix) s) fun u =>
      u = { s with pins := { s.pins with perstN := true }, host := { s.host with speed := speed, width := width, flit := flit || speed == 6, d3 := false, msixEnabled := msix } }) ∧
    (∀ kind : Fin 3, Runs (exec (.perst kind) s) fun u =>
      u.host.speed = 0 ∧ u.host.nvme = {} ∧ u.host.msix = [] ∧ u.host.pba = [] ∧ u.host.msixEnabled = false ∧
      u.host.linkDn = (if s.host.speed = 0 then s.host.linkDn else s.host.linkDn + 1) ∧ u.pins.perstN = (if kind = 0 then false else s.pins.perstN) ∧
      u.nvmMem = s.nvmMem ∧ u.grist = s.grist ∧ u.cores = s.cores) ∧
    Runs (exec .flr s) (fun u => u.host.nvme = {} ∧ u.host.msix = [] ∧ u.host.pba = [] ∧ u.host.speed = s.host.speed ∧ u.host.linkDn = s.host.linkDn ∧ u.nvmMem = s.nvmMem) ∧
    Runs (exec .d3hotEntry s) (fun u => u.host.d3 = true ∧
      u.host.nvme = { aqa := s.host.nvme.aqa, asq := s.host.nvme.asq, acq := s.host.nvme.acq, cc := s.host.nvme.cc &&& 0xFFFFFFFE }) ∧
    (∀ (path : RegPath) (cc : BitVec 32), Live s → let w := cc &&& BitVec.ofNat 32 ccMask; let n := s.host.nvme
      (cc.getLsbD 0 = false → n.cc.getLsbD 0 = true → Runs (exec (.ccEnClear path cc) s) fun u =>
        u.host.nvme = { aqa := n.aqa, asq := n.asq, acq := n.acq, cc := w &&& 0xFFFFFFFE }) ∧
      (cc.getLsbD 0 = true → n.rdy = false → s.grist.state = .running → bitsOf w.toNat 15 14 = 0 → Runs (exec (.ccEnSet path cc) s) fun u =>
        u.host.nvme = { n with cc := w, rdy := true
                               sqs := [{ id := 0, cq := 0, size := bitsOf n.aqa.toNat 11 0 + 1, base := n.asq.toNat }]
                               cqs := [{ id := 0, size := bitsOf n.aqa.toNat 27 16 + 1, base := n.acq.toNat, ien := true, vector := 0 }] } ∧
        u = { s with host := u.host }) ∧
      (cc.extractLsb' 14 2 ≠ 0 → cc.getLsbD 0 = true → n.rdy = true → bitsOf n.cc.toNat 15 14 = 0 → bitsOf w.toNat 15 14 ≠ 0 → Runs (exec (.ccShn path cc) s) fun u =>
        u.host.nvme = { n with cc := w, shst := (if n.cmds = [] then 2 else 1), shutAt := s.time.up } ∧ u = { s with host := u.host })) ∧
    (s.host.nvme.shst = 1 → Runs (exec .shutdownTimeout s) fun u => u.host.nvme = { s.host.nvme with shst := 2, cmds := [], aers := [] } ∧
      u.time = (s.advanceTo (s.host.nvme.shutAt + 100000000)).time) ∧
    (∀ (path : RegPath) (queue : Fin 512) (v : BitVec 16), Live s →
      (∀ q, s.sq? queue = some q → v.toNat < q.size → Runs (exec (.sqTailDoorbell path queue v) s) fun u => u = s.setSq { q with tail := v.toNat }) ∧
      (∀ q, s.sq? queue = some q → q.size ≤ v.toNat → Runs (exec (.sqTailDoorbell path queue v) s) fun u => u = s) ∧
      (∀ q, s.cq? queue = some q → v.toNat < q.size → Runs (exec (.cqHeadDoorbell path queue v) s) fun u => u = s.setCq { q with head := v.toNat })) ∧
    (∀ sq cid : BitVec 16, Runs (exec (.hostReadFailure 0 sq cid) s) (fun u => u.host.nvme.cfs = true ∧ u.host.err = bput s.host.err 0 true) ∧
      Runs (exec (.hostReadFailure 2 sq cid) s) (fun u => u.host.nvme.cfs = true ∧ u.host.err = bput s.host.err 2 true) ∧
      ∀ t, s.fetch sq.toNat = some t → Runs (exec (.hostReadFailure 1 sq cid) s) fun u => u = (t.hostErr 1).postCqe sq.toNat cid 0 0 nvDataError) ∧
    (∀ (queue : BitVec 16) (c : NvCq), s.cq? queue.toNat = some c → 0 < c.coalesced → s.irqStopped = false → Runs (exec (.aggregationTime queue) s) fun u =>
      u = (s.setCq { c with coalesced := 0 }).fireIrq c.vector)

/-- O56. Admin commands, the memory namespace and Execute Program. An admin command whose turn it is makes, refuses or deletes its queue, writes its Identify page or log page, sets or reports its feature, waits as an event request, or is completed with its status. A read or write of the memory namespace inside it moves the bytes, and a range set is made or deleted by its number. Execute Program fails the first check that its parameters fail, and otherwise passes its request to admission. Load Program is an invalid opcode. (R523, R524, R527, R528, R529, R530, R531, R532) -/
def Obligations.QueuesMemoryAndPrograms : Prop :=
  ∀ (s t : State) (cid : BitVec 16),
    (s.fetch 0 = some t → let done (x : State) (dw st : Nat) : State := (x.postCqe 0 cid dw 0 st).shutCheck
      (∀ (queue size cq : BitVec 16) (base : BitVec 64), 1 ≤ queue.toNat → queue.toNat ≤ 128 → t.sq? queue.toNat = none → size ≠ 0 → cq ≠ 0 → (t.cq? cq.toNat).isSome = true →
        Runs (exec (.createIoSq cid queue size cq base true) s) fun u =>
          u = done (t.modNvme fun n => { n with sqs := n.sqs ++ [{ id := queue.toNat, cq := cq.toNat, size := size.toNat + 1, base := base.toNat }] }) 0 nvOk) ∧
      (∀ (queue size vector : BitVec 16) (base : BitVec 64) (ien : Bool), 1 ≤ queue.toNat → queue.toNat ≤ 128 → t.cq? queue.toNat = none → size ≠ 0 → vector.toNat ≤ 128 →
        Runs (exec (.createIoCq cid queue size vector base ien true) s) fun u =>
          u = done (t.modNvme fun n => { n with cqs := n.cqs ++ [{ id := queue.toNat, size := size.toNat + 1, base := base.toNat, ien := ien, vector := vector.toNat }] }) 0 nvOk) ∧
      (∀ (size cq : BitVec 16) (base : BitVec 64) (pc : Bool), Runs (exec (.createIoSq cid 0 size cq base pc) s) fun u => u = done t 0 nvQidInvalid) ∧
      (∀ queue : BitVec 16, queue ≠ 0 → (t.sq? queue.toNat).isSome = true → Runs (exec (.deleteIoSq cid queue) s) fun u =>
        u = done ((t.discardNvme (some queue.toNat)).modNvme fun n => { n with sqs := n.sqs.filter (·.id != queue.toNat), cmds := n.cmds.filter (·.sq != queue.toNat) }) 0 nvOk) ∧
      (∀ queue : BitVec 16, queue ≠ 0 → (t.cq? queue.toNat).isSome = true → Runs (exec (.deleteIoCq cid queue) s) fun u =>
        u = if t.host.nvme.sqs.any (·.cq == queue.toNat) then done t 0 nvQDelete else done (t.modNvme fun n => { n with cqs := n.cqs.filter (·.id != queue.toNat) }) 0 nvOk) ∧
      (∀ (cns csi : BitVec 8) (nsid : BitVec 32) (dptr : BitVec 64) b, t.identify cns.toNat csi.toNat nsid.toNat = some b → Runs (exec (.identify cid cns csi nsid dptr) s) fun u =>
        u = done (t.emit (.hostWrite dptr.toNat b)) 0 nvOk) ∧
      (∀ (lid : BitVec 8) (off dptr : BitVec 64) (len : BitVec 32) b, lid ≠ 4 → t.logPage lid.toNat = some b → Runs (exec (.getLogPage cid lid off len dptr) s) fun u =>
        u = done (t.emit (.hostWrite dptr.toNat (slice b off.toNat len.toNat))) 0 nvOk) ∧
      (∀ w : BitVec 32, Runs (exec (.setFeatures cid 0x0B w) s) (fun u => u = (done (t.modNvme fun n => { n with feats := { n.feats with asyncCfg := w } }) 0 nvOk).smartTemp) ∧
        Runs (exec (.getFeatures cid 0x0B w) s) fun u => u = done t t.host.nvme.feats.asyncCfg.toNat nvOk) ∧
      (t.host.nvme.events = [] → t.host.nvme.aers.length < 8 → Runs (exec (.asyncEventRequest cid) s) fun u => u = t.modNvme fun n => { n with aers := n.aers ++ [cid] }) ∧
      (t.host.nvme.events = [] → 8 ≤ t.host.nvme.aers.length → Runs (exec (.asyncEventRequest cid) s) fun u => u = t.postCqe 0 cid 0 0 nvAerLimit) ∧
      (∀ a b : BitVec 16, Runs (exec (.nvmeAbort cid a b) s) fun u => u = done t 1 nvOk)) ∧
    (∀ sq : BitVec 16, sq ≠ 0 → s.fetch sq.toNat = some t → let done (x : State) (dw st : Nat) : State := (x.postCqe sq.toNat cid dw 0 st).shutCheck
      (∀ (off dptr : BitVec 64) (len : BitVec 32), memSpanOk off.toNat len.toNat = true →
        Runs (exec (.memoryRead sq cid (BitVec.ofNat 32 memoryNs) off len dptr) s) (fun u => u = done (t.emit (.hostWrite dptr.toNat (t.nvmMem.read off.toNat len.toNat))) 0 nvOk) ∧
        (∀ b : Bytes, Runs (exec (.memoryWrite sq cid (BitVec.ofNat 32 memoryNs) off len (some b)) s) fun u =>
          u = done { t with nvmMem := t.nvmMem.write off.toNat (b.take len.toNat) } 0 nvOk)) ∧
      (∀ (off dptr : BitVec 64) (len : BitVec 32), memSpanOk off.toNat len.toNat = false →
        Runs (exec (.memoryRead sq cid (BitVec.ofNat 32 memoryNs) off len dptr) s) fun u => u = done t 0 nvBadField) ∧
      (∀ (rsid : BitVec 16) (a n : BitVec 64), 1 ≤ rsid.toNat → rsid.toNat ≤ 256 → (∀ r ∈ t.host.nvme.ranges, r.1 ≠ rsid.toNat) → a.toNat % 8 = 0 → n.toNat % 8 = 0 →
        a.toNat + n.toNat ≤ nvmBytes → Runs (exec (.memoryRangeSetCreate sq cid (BitVec.ofNat 32 memoryNs) rsid (some [(a, n)])) s) fun u =>
          u = done (t.modNvme fun v => { v with ranges := v.ranges ++ [(rsid.toNat, [(a.toNat, n.toNat)])] }) 0 nvOk) ∧
      (∀ rsid : BitVec 16, (t.host.nvme.ranges.any (·.1 == rsid.toNat)) = true → Runs (exec (.memoryRangeSetDelete sq cid (BitVec.ofNat 32 memoryNs) rsid) s) fun u =>
        u = done (t.modNvme fun v => { v with ranges := v.ranges.filter (·.1 != rsid.toNat) }) 0 nvOk) ∧
      Runs (exec (.loadProgram sq cid) s) (fun u => u = done t 0 nvBadOpcode) ∧
      (∀ program : BitVec 16, (t.programSvc program.toNat).isSome = true →
        Runs (exec (.programActivationManagement sq cid (BitVec.ofNat 32 computeNs) program 0) s) (fun u => u = done t 1 nvOk) ∧
        Runs (exec (.programActivationManagement sq cid (BitVec.ofNat 32 computeNs) program 1) s) (fun u => u = done t 0 nvOk) ∧
        Runs (exec (.programActivationManagement sq cid (BitVec.ofNat 32 computeNs) program 2) s) fun u => u = done t 0 nvBadField) ∧
      (∀ (nsid : BitVec 32) (program rsid : BitVec 16) (param : Option Bytes),
        (∀ st, s.execCheck nsid.toNat program.toNat rsid.toNat param = .inl st → st ≠ nvDataError → Runs (exec (.executeProgram sq cid nsid program rsid param) s) fun u =>
          u = done (t.hostErr 3) 0 st) ∧
        (∀ ra rl aa cap, s.execCheck nsid.toNat program.toNat rsid.toNat param = .inr (ra, rl, aa, cap) → s.canStamp = true → let b := t.substitute (s.nvmMem.read ra rl)
          RunsThen State.kick (exec (.executeProgram sq cid nsid program rsid param) s) fun u =>
            u = (b.2.modNvme fun n => { n with cmds := n.cmds ++ [{ sq := sq.toNat, cid := cid, answerAt := aa, capacity := cap }] }).takeRequest (.nvme sq cid) b.1)))

/-- O57. Self-tests are requested, run and end, and watchdogs fence. A test written to FLT_TEST keeps the unit, and is queued and drains an enabled unit, merges with one that waits or runs, or is refused with result 2; kinds 4 and 5 make a training or a calibration due. The head of the queue starts once its unit has drained; a test that ends gives its result, sets or clears the data bit and releases the unit; rotation requests the next enabled unit. An expired watchdog reports HANG once and fences the unit from the data path; with no work counted it changes nothing. (R591, R592, R593, R596, R597, R598, R600) -/
def Obligations.SelfTestsAndWatchdogs : Prop :=
  ∀ s : State,
    (∀ (path : RegPath) (unit : BitVec 10), Live s →
      let asked (k : BitVec 3) : State := { s with flt := { s.flt with testKind := k, testUnit := unit } }
      let queued (k : BitVec 3) : State := { s with flt := { s.flt with testKind := k, testUnit := unit, queue := s.flt.queue ++ [⟨k, unit⟩] } }
      let refused (k : BitVec 3) : State :=
        { s with flt := { s.flt with testKind := k, testUnit := unit, refused := true, lastKind := k, lastUnit := unit, lastResult := 2 } }
      let n := unit.toNat
      (n < 864 → s.coreEnabled n = true → s.underTest 1 n = false → s.flt.queue.length < 64 → Runs (exec (.coreTest path unit) s) fun u =>
        u = (queued 1).startDrain n) ∧
      (n < 864 → s.coreEnabled n = true → s.underTest 1 n = true → Runs (exec (.coreTest path unit) s) fun u => u = asked 1) ∧
      (864 ≤ n ∨ s.coreEnabled n = false ∨ (s.underTest 1 n = false ∧ 64 ≤ s.flt.queue.length) → Runs (exec (.coreTest path unit) s) fun u => u = refused 1) ∧
      (n < 384 → s.arrayEnabled (n / 4) (n % 4) = true → s.underTest 2 n = false → s.flt.queue.length < 64 → Runs (exec (.arrayTest path unit) s) fun u =>
        u = if s.arrayHeld (n / 4) (n % 4) then queued 2 else (queued 2).drainArray (n / 4) (n % 4)) ∧
      (384 ≤ n ∨ s.arrayEnabled (n / 4) (n % 4) = false → Runs (exec (.arrayTest path unit) s) fun u => u = refused 2) ∧
      (n < 96 → (s.enables n).getLsbD 13 = true → s.underTest 3 n = false → s.flt.queue.length < 64 → Runs (exec (.gatherTest path unit) s) fun u => u = queued 3) ∧
      (96 ≤ n ∨ (s.enables n).getLsbD 13 = false → Runs (exec (.gatherTest path unit) s) fun u => u = refused 3) ∧
      (n < 16 → Runs (exec (.stackRetrainTest path unit) s) fun u => u = (asked 4).modMem n fun m => if m.state = 2 then m else { m with trainPend := .allOnes 32 }) ∧
      (16 ≤ n → Runs (exec (.stackRetrainTest path unit) s) fun u => u = refused 4) ∧
      (n < 32 → (s.flashCh n).calDue = false → Runs (exec (.flashCalibrationTest path unit) s) fun u =>
        u = (asked 5).modFlashCh n fun k => { k with calDue := true, dueAt := s.time.up }) ∧
      (32 ≤ n → Runs (exec (.flashCalibrationTest path unit) s) fun u => u = refused 5)) ∧
    (∀ q rest k, s.flt.queue = q :: rest → testUnitKind q.kind.toNat = some k → s.testReady k q.unit.toNat = true → s.flt.running.length < 8 →
      (∀ o ∈ s.flt.running, o.tile ≠ q.tile) → Runs (exec .testStart s) fun u =>
        u = { s with flt := { s.flt with queue := rest, running := s.flt.running ++ [q] }, cores := u.cores } ∧
        (k = .core → (s.core q.unit.toNat).st = .fenced → (u.core q.unit.toNat).st = .testing) ∧ (k ≠ .core → u.cores = s.cores)) ∧
    (∀ q rest k, s.flt.queue = q :: rest → testUnitKind q.kind.toNat = some k → s.testReady k q.unit.toNat = false → Runs (exec .testStart s) fun u => u = s) ∧
    (∀ (unit : Fin 1344) (pass : Bool) (pattern : BitVec 32),
      let k := (rotUnit unit.val).1
      let n := (rotUnit unit.val).2
      ⟨BitVec.ofNat 3 k.code, BitVec.ofNat 10 n⟩ ∈ s.flt.running → s.cask.state = 0 →
      RunsThen (fun u => (if k = .core then u.waitedReset n else u).kick) (exec (.testEnd unit pass pattern) s) fun u => ∃ v : State,
        u = v.testRelease k n ∧ v.dataBit k n = !pass ∧ v.flt.lastResult = (if pass then 0 else 1) ∧ v.flt.lastUnit = BitVec.ofNat 10 n ∧
        v.flt.lastKind = BitVec.ofNat 3 k.code ∧ v.flt.running = s.flt.running.filter (· ≠ ⟨BitVec.ofNat 3 k.code, BitVec.ofNat 10 n⟩) ∧
        (pass = false → s.errCount 0x11 + 1 = v.errCount 0x11) ∧ (pass = true → v.errCount 0x11 = s.errCount 0x11)) ∧
    (∀ n, s.flt.period ≠ 0 → s.regsLive = true → Powered s → s.nextRot s.flt.rotPos.toNat = some n →
      let moved : State := { s with flt := { s.flt with rotPos := BitVec.ofNat 11 ((n + 1) % 1344) } }
      Runs (exec .testRotation s) fun u =>
        u = if s.rotSkips (rotUnit n).1 (rotUnit n).2 then moved else moved.acceptTest (rotUnit n).1 (rotUnit n).2) ∧
    (s.flt.period = 0 → Runs (exec .testRotation s) fun u => u = s) ∧
    (∀ (unit : Fin 1344) (addr : BitVec 64) (us : BitVec 32),
      let k := (rotUnit unit.val).1
      let n := (rotUnit unit.val).2
      (s.hungTag k n = none → Runs (exec (.watchdogExpiry unit addr us) s) fun u => u = s) ∧
      (∀ tag, s.hungTag k n = some tag → s.cask.state = 0 → RunsThen State.kick (exec (.watchdogExpiry unit addr us) s) fun u => ∃ v : State,
        u = v.dataFence k n ∧ v.errCount 0x10 = s.errCount 0x10 + 1 ∧ v = { s with flt := v.flt, time := v.time, out := v.out }))

/-- O58. Captures and replays start, stop, export and take feeds. A capture starts only with a collector in the map, else ERR is 5; it samples the partitions and the collector, and is cut at once when nothing is in flight or when the base export finds it drained; the end of the memory base starts capture proper. A replay starts empty; a feed that breaks R615 or that the host does not return ends it with ERR 3, one out of sequence with ERR 2; STOP ends each. (R605, R606, R609, R610, R615) -/
def Obligations.CasksCaptureAndReplay : Prop :=
  ∀ (s : State) (path : RegPath),
    (Live s →
      let begun : State :=
        { s with
          cask := { s.cask with
            mode := 1
            state := 1
            err := 0
            capParts := s.cask.parts
            capCollector := s.cask.collector
            cut := false
            segSeq := 0
            cur := []
            ring := []
            base := []
            todo := [] } }
      (s.isCollector s.cask.collector.toNat = false → Runs (exec (.captureStart path) s) fun u => u = { s with cask := { s.cask with mode := 1, err := 5 } }) ∧
      (s.isCollector s.cask.collector.toNat = true → (begun.caskParts.any s.partBusyWith = true ∨ s.canStamp = false) →
        Runs (exec (.captureStart path) s) fun u => u = begun) ∧
      (s.isCollector s.cask.collector.toNat = true → begun.caskParts.any s.partBusyWith = false → s.canStamp = true →
        Runs (exec (.captureStart path) s) fun u => u = begun.captureCut) ∧
      Runs (exec (.replayStart path) s) (fun u => u =
        { s with
          cask := { s.cask with
            mode := 2
            state := 4
            err := 0
            capParts := s.cask.parts
            nextSeg := 0
            begun := false
            todo := []
            cur := []
            ring := []
            base := [] } }) ∧
      Runs (exec (.caskStop path) s) (fun u => u = s) ∧
      (∀ buf, Runs (exec (.caskFeed path buf) s) fun u => u = s)) ∧
    (s.regsLive = true → s.cask.state = 1 → s.cask.cut = false → RunsThen State.kick (exec (.caskStop path) s) fun u =>
      u = { s with cask := { s.cask with state := 5, base := [] } }) ∧
    (s.regsLive = true → s.cask.state = 2 → s.cask.ring.length + 2 < caskRingMax → RunsThen State.kick (exec (.caskStop path) s) fun u =>
      u.cask.state = 5 ∧ u.cask.base = [] ∧ u.cask.cur = [] ∧ s.cask.ring.length < u.cask.ring.length ∧ u = { s with cask := u.cask }) ∧
    (s.regsLive = true → s.cask.state = 4 → Runs (exec (.caskStop path) s) fun u => u = { s with cask := { s.cask with state := 5, todo := [] } }) ∧
    (s.cask.state ≠ 1 → Runs (exec .baseExportEnd s) fun u => u = s) ∧
    (s.cask.state = 1 → s.cask.cut = false → Runs (exec .baseExportEnd s) fun u => u = s.captureCut) ∧
    (s.cask.state = 1 → s.cask.cut = true → s.cask.base.any CaskBase.isMem = false → RunsThen State.kick (exec .baseExportEnd s) fun u =>
      u = { s with cask := { s.cask with state := 2 } }) ∧
    (s.regsLive = true → s.cask.state = 4 →
      let ended (e : BitVec 4) (u : State) : Prop := u.cask.state = 5 ∧ u.cask.err = e ∧ u.cask.todo = [] ∧ u.errCount 0x15 = s.errCount 0x15 + 1
      Runs (exec (.caskFeed path none) s) (ended 3) ∧
      (∀ b, (s.cask.hostLen.toNat % 65536 ≠ 0 ∨ s.cask.hostAddr.toNat % 64 ≠ 0 ∨ b.length ≠ s.cask.hostLen.toNat) →
        Runs (exec (.caskFeed path (some b)) s) (ended 3)) ∧
      (∀ b, s.cask.hostLen = 65536 → s.cask.hostAddr.toNat % 64 = 0 → b.length = 65536 →
        (fieldAt b 0 4 ≠ 0x4B534143 → Runs (exec (.caskFeed path (some b)) s) (ended 3)) ∧
        (fieldAt b 0 4 = 0x4B534143 → fieldAt b 4 2 = 1 → fieldAt b 12 4 ≤ 65472 → fieldAt b 8 4 ≠ s.cask.nextSeg.toNat →
          Runs (exec (.caskFeed path (some b)) s) (ended 2))))

/-- O59. Input loss, flush mode and the return of power. A low input is flagged and reported, and clears; the bus trigger, PWR_FAIL and the drill each start flush mode: a flush stamp, contexts and queues stopped, what is staged kept. With no storage up the flushed state comes at once with LAST 3. The end record gives the flushed state, counts the flush, and switches the carriers off; a returned input resets the module with cause 5; a collapse without an end record is LAST 2 and loses what is staged, and the converter starts the module again. (R625, R626, R627, R630, R636, R640, R643) -/
def Obligations.InputLossFlushesAndReturns : Prop :=
  ∀ (s : State) (vin : BitVec 10),
    let low : State := s.setVin vin
    let flushing (u : State) : Prop :=
      u.pwr.state = 2 ∧ u.pwr.trip = false ∧ u.pwr.empty = false ∧ u.pwr.trigAt = u.time.up ∧ u.pwr.flushStamp = s.stampOrZero.1 ∧ u.cores = [] ∧ u.queues = [] ∧
      u.fls.cmds = [] ∧ u.staged = s.staged ∧ u.dur = s.dur ∧ u.coreSram = s.coreSram ∧ u.errCount 0x14 = s.errCount 0x14 + 1
    (vin.toNat < 700 → s.pwr.off = false → s.pwr.state = 0 → Runs (exec (.inputLow vin) s) fun u =>
      u.pwr = { s.pwr with vin := vin, state := 1, errLow := true } ∧ u.errCount 0x14 = s.errCount 0x14 + 1 ∧
      u = { s with pwr := u.pwr, flt := u.flt, time := u.time, out := u.out }) ∧
    (720 < vin.toNat → s.pwr.state = 1 → Runs (exec (.inputLowEnd vin) s) fun u => u = { s with pwr := { s.pwr with vin := vin, state := 0 } }) ∧
    (vin.toNat < 680 → Powered s → s.fls.state = .ready → Runs (exec (.busFlushTrigger vin) s) fun u => flushing u ∧ u.pwr.drill = false ∧
      u.pwr.returned = false ∧ u.pwr.vin = vin ∧ u.media.unsafeShutdowns = s.media.unsafeShutdowns + 1) ∧
    (Powered s → s.fls.state = .ready → Runs (exec .pwrFail s) fun u => flushing u ∧ u.pwr.drill = false ∧ u.pins.pwrFailN = false ∧
      u.media.unsafeShutdowns = s.media.unsafeShutdowns + 1) ∧
    (∀ path, Live s → Powered s → s.recovering = false → s.fls.state = .ready → Runs (exec (.drill path) s) fun u => flushing u ∧ u.pwr.drill = true ∧
      u.media.unsafeShutdowns = s.media.unsafeShutdowns) ∧
    (vin.toNat < 680 → Powered s → s.fls.state = .down → s.rst.modPend = none → Runs (exec (.busFlushTrigger vin) s) fun u =>
      u.pwr.state = 3 ∧ u.pwr.last = 3 ∧ u.pwr.flushCnt = s.pwr.flushCnt + 1 ∧ u.pwrKept.cnt = s.pwrKept.cnt + 1 ∧ u.mod.kOn = 0) ∧
    (s.pwr.off = false → s.pwr.state = 2 → s.pwr.returned = false → s.rst.modPend = none → Runs (exec .flushComplete s) fun u =>
      u.pwr.state = 3 ∧ u.pwr.last = (if s.pwr.drill then 4 else 1) ∧ u.pwr.flushCnt = s.pwr.flushCnt + 1 ∧ u.pwrKept.cnt = s.pwrKept.cnt + 1 ∧
      u.pwrKept.stamp = s.pwr.flushStamp ∧ u.dur.flushed = some (s.pwr.flushStamp, true) ∧ u.dur.journal = s.dur.journal ∧ u.staged = s.staged ∧
      u.flt.savedTo = s.flt.head ∧ u.mod.kOn = 0 ∧ (∀ c < 8, (u.carrier c).pwrEn = false)) ∧
    (740 < vin.toNat → s.pwr.off = false → s.pwr.state = 3 → s.pwr.tripped = [] → s.pins.pwrFailN = true → Runs (exec (.inputReturn vin) s) fun u =>
      u.clk.phase = .resetHold ∧ u.rst.cause = 5 ∧ u.pwr.state = 0 ∧ u.pwr.vin = vin) ∧
    (740 < vin.toNat → s.pwr.state.toNat < 2 → Runs (exec (.inputReturn vin) s) fun u => u = low) ∧
    (s.pwr.off = false → s.pwr.state = 3 → s.pwr.returned = true → s.pwr.tripped = [] → Runs (exec .pwrFailRelease s) fun u =>
      u.clk.phase = .resetHold ∧ u.rst.cause = 5 ∧ u.pins.pwrFailN = true) ∧
    (s.pwr.state.toNat < 2 → Runs (exec .pwrFailRelease s) fun u => u = { s with pins := { s.pins with pwrFailN := true } }) ∧
    (vin.toNat ≤ 400 → s.pwr.off = false → s.pwr.state = 2 → Runs (exec (.busCollapse vin) s) fun u =>
      u.pwr.off = true ∧ u.clk.phase = .held ∧ u.pwrKept.last = 2 ∧ u.pwrKept.cnt = s.pwrKept.cnt + 1 ∧ u.staged = [] ∧
      u.dur.flushed = some (s.pwr.flushStamp, false) ∧ u.dur.journal = s.dur.journal.filter (·.inTrail)) ∧
    (vin.toNat ≤ 400 → s.pwr.off = false → s.pwr.state = 3 → s.pwr.empty = false → Runs (exec (.busCollapse vin) s) fun u =>
      u = { s with pwr := { s.pwr with vin := vin, off := true }, clk := { s.clk with phase := .held } }) ∧
    (740 < vin.toNat → s.pwr.off = true → Runs (exec (.converterStart vin) s) fun u => u.pwr = { ({} : Pwr) with vin := vin } ∧ u.clk.phase = .held ∧
      u.pwrKept = s.pwrKept ∧ u.staged = s.staged ∧ u.dur = s.dur ∧ u.dram = [] ∧ u.cores = [] ∧ u.pins = s.pins) ∧
    (870 < vin.toNat → s.pwr.off = false → Runs (exec (.busHigh vin) s) fun u => u.mod.err = bput s.mod.err 5 true ∧ u.errCount 0x14 = s.errCount 0x14 + 1 ∧
      u = { s with pwr := { s.pwr with vin := vin }, mod := u.mod, flt := u.flt, time := u.time, out := u.out })

/-- O60. Thermal limits, carrier outputs, lamps and the test access port. A carrier output that trips goes off and fails its carrier; too much carrier power is reported. Cool readings are only kept; a stack, die or converter at its throttle level starts throttling, one at its trip level starts the flush; throttling lowers and raises the cap by 5 % steps; a cool optical engine trains its channels again; histories are saved. A lamp test lasts 3 s; MAX_CLR takes the fill; the test port loads its instructions, and drives contacts only while RESET_N is low. (R423, R581, R644, R652, R653, R657, R658, R659, R660, R664) -/
def Obligations.HeatCarriersLampsAndTestPort : Prop :=
  ∀ s : State,
    (∀ carrier : Fin 8, s.pwr.off = false → s.mod.kOn.getLsbD carrier.val = true →
      (s.carrier carrier.val).state ≠ .online → (s.carrier carrier.val).state ≠ .rebuilding → (s.carrier carrier.val).state ≠ .removal →
      Runs (exec (.carrierOvercurrent carrier) s) fun u => (u.carrier carrier.val).state = .failed ∧ (u.carrier carrier.val).pwrEn = false ∧
        u.mod.kOn.getLsbD carrier.val = false ∧ u.mod.kOff.getLsbD carrier.val = true ∧ u.mod.kTrip.getLsbD carrier.val = true ∧ u.cores = s.cores) ∧
    (∀ carrier : Fin 8, s.pwr.off = false → s.mod.kOn.getLsbD carrier.val = true →
      ((s.carrier carrier.val).state = .online ∨ (s.carrier carrier.val).state = .rebuilding ∨ (s.carrier carrier.val).state = .removal) →
      RunsThen (fun u => u.stagingFreed.smart) (exec (.carrierOvercurrent carrier) s) fun u => ∃ v : State, u = v.loseCarrier carrier.val .failed ∧
        v.mod.kOn.getLsbD carrier.val = false ∧ v.mod.kOff.getLsbD carrier.val = true ∧ v.mod.kTrip.getLsbD carrier.val = true ∧
        v.errCount 0x14 = s.errCount 0x14 + 1 ∧ v = { s with mod := v.mod, flt := v.flt, time := v.time, out := v.out }) ∧
    (∀ watts : BitVec 8, 150 < watts.toNat → s.pwr.off = false → Runs (exec (.carrierPowerExcess watts) s) fun u =>
      u.mod = { s.mod with cpwr := watts, err := bput s.mod.err 4 true } ∧ u.errCount 0x14 = s.errCount 0x14 + 1 ∧
      u = { s with mod := u.mod, flt := u.flt, time := u.time, out := u.out }) ∧
    (∀ temps : List (BitVec 8), temps.length = 44 → Powered s → (∀ c < 8, (s.carrier c).pgood = false) → s.mod.therm = 0 →
      let at_ (i : Nat) : Int := (temps.getD i 0).toInt
      ((∀ i < 44, at_ i < 75) → Runs (exec (.thermalSample temps) s) fun u => (∀ i < 27, u.mod.now.get 0 i = temps.getD i 0) ∧ u.mod.therm = 0 ∧ u = { s with mod := u.mod }) ∧
      (∀ i ∈ coreSensors, (∀ e < 8, at_ (19 + e) < 75) → (thermLevels i).1 ≤ at_ i → (∀ j ∈ coreSensors, at_ j < (thermLevels j).2) → i ∉ s.mod.warm →
        Runs (exec (.thermalSample temps) s) fun u => u.mod.therm = 1 ∧ u.mod.err.getLsbD 0 = true ∧ i ∈ u.mod.warm ∧ u.pwr = s.pwr) ∧
      (∀ i ∈ coreSensors, (∀ e < 8, at_ (19 + e) < 75) → (thermLevels i).2 ≤ at_ i → s.fls.state = .ready → Runs (exec (.thermalSample temps) s) fun u =>
        u.mod.therm = 2 ∧ u.mod.err.getLsbD 1 = true ∧ u.pwr.state = 2 ∧ u.pwr.trip = true ∧ i ∈ u.pwr.tripped ∧ u.cores = [])) ∧
    (s.mod.therm = 1 → s.someHot = true → Runs (exec .throttleStep s) fun u =>
      u = { s with cap := { s.cap with cap := min s.cap.cap (max 600 (s.cap.cap - s.grist.clock.cap / 20)) } }) ∧
    (s.mod.therm = 1 → s.someHot = false → s.allCool = true → Runs (exec .throttleStep s) fun u =>
      u.cap = { s.cap with cap := min s.grist.clock.cap (s.cap.cap + s.grist.clock.cap / 20) } ∧ u = { s with cap := u.cap, mod := u.mod }) ∧
    (s.mod.therm ≠ 1 → Runs (exec .throttleStep s) fun u => u = s) ∧
    (∀ (e : Fin 8) (temp : BitVec 8), temp.toInt ≤ 70 → s.mod.oeOff.getLsbD e.val = true → Runs (exec (.oeCool e temp) s) fun u =>
      u.mod.oeOff = bput s.mod.oeOff e.val false ∧ u.mod.now.get 0 (19 + e.val) = temp ∧ u = { s with mod := u.mod, fab := u.fab } ∧
      (s.fab.fdet.getLsbD e.val = true → ∀ c ∈ s.chansOn e.val, (s.chan c).state = .noFibre → (u.chan c).state = .training ∧ (u.chan c).txOn = true) ∧
      (s.fab.fdet.getLsbD e.val = false → u.fab = s.fab)) ∧
    Runs (exec .temperatureHistorySave s) (fun u => u = { s with carriers := u.carriers, media := { s.media with hist := u.media.hist } } ∧
      u.media.hist = (if s.storageUp then s.mod.hist.without (27 * 64) (43 * 64) else s.media.hist)) ∧
    (∀ path, Live s → Runs (exec (.lampTest path) s) (fun u => u = { s with mod := { s.mod with lampUntil := s.time.up + 3000000000 } }) ∧
      Runs (exec (.maxClr path) s) fun u => u = { s with disp := { s.disp with max := s.disp.fill } }) ∧
    (∀ captured shifted : BitVec 1368,
      Runs (exec (.samplePreload captured shifted) s) (fun u => u = { s with jtag := { s.jtag with instr := .samplePreload, scan := captured, boundary := shifted } }) ∧
      Runs (exec .idcode s) (fun u => u = { s with jtag := { s.jtag with instr := .idcode, scan := 0x248165A7 } }) ∧
      (∀ code : BitVec 8, bypassCode code.toNat = true → Runs (exec (.bypass code) s) fun u => u = { s with jtag := { s.jtag with instr := .bypass, scan := 0 } }) ∧
      (s.pins.resetN = false →
        Runs (exec (.extest captured shifted) s) (fun u => u = { s with jtag := { s.jtag with instr := .extest, scan := captured, boundary := shifted } }) ∧
        Runs (exec .clamp s) (fun u => u = { s with jtag := { s.jtag with instr := .clamp, scan := 0 } }) ∧
        Runs (exec .highz s) fun u => u = { s with jtag := { s.jtag with instr := .highz, scan := 0 } }) ∧
      (s.pins.resetN = true →
        let bypassed (u : State) : Prop := u = { s with jtag := { s.jtag with instr := .bypass, scan := 0 } }
        Runs (exec (.extest captured shifted) s) bypassed ∧ Runs (exec .clamp s) bypassed ∧ Runs (exec .highz s) bypassed))
end

