-- ==== Sys2Proof/Laws/Maps.lean ====
section
/-! SUPPORT. Sys2Proof/Laws/Maps.lean: reads after writes of the sparse maps, and that every operation keeps their canonical form. -/
namespace Sys2Proof

variable {α : Type} {d : α}

/-- The canonical form, said of pairs: keys rise, and no entry holds the default. -/
theorem SMap.wf_iff [DecidableEq α] (m : SMap α) : SMap.wf d m = true ↔ m.Pairwise (fun a b => a.1 < b.1) ∧ ∀ e ∈ m, e.2 ≠ d := by
  induction m with
  | nil => simp [SMap.wf]
  | cons a r ih =>
    obtain ⟨k, v⟩ := a
    cases r with
    | nil => simp [SMap.wf]
    | cons b r =>
      obtain ⟨k', v'⟩ := b
      simp only [SMap.wf, Bool.and_eq_true, decide_eq_true_eq, ih, List.pairwise_cons, List.forall_mem_cons]
      constructor
      · rintro ⟨⟨h1, h2⟩, ⟨h3, h4⟩, h5, h6⟩
        refine ⟨⟨⟨h2, fun e he => ?_⟩, h3, h4⟩, h1, h5, h6⟩
        exact lt_trans h2 (h3 e he)
      · rintro ⟨⟨⟨h2, _⟩, h3, h4⟩, h1, h5, h6⟩
        exact ⟨⟨h1, h2⟩, ⟨h3, h4⟩, h5, h6⟩

theorem SMap.mem_insert {m : SMap α} {k : Nat} {v : α} {e : Nat × α} (h : e ∈ SMap.insert m k v) : e = (k, v) ∨ e ∈ m := by
  induction m with
  | nil => simp [SMap.insert] at h; exact .inl h
  | cons a r ih =>
    unfold SMap.insert at h
    split at h
    · simpa using h
    · split at h
      · simp at h; tauto
      · simp at h
        rcases h with h | h
        · simp [h]
        · rcases ih h with h | h <;> simp [h]

theorem SMap.mem_erase {m : SMap α} {k : Nat} {e : Nat × α} (h : e ∈ SMap.erase m k) : e ∈ m := by
  induction m with
  | nil => simpa [SMap.erase] using h
  | cons a r ih =>
    unfold SMap.erase at h
    split at h
    · simp [ih h]
    · simp at h
      rcases h with h | h
      · simp [h]
      · simp [ih h]

/-- Setting a value keeps the canonical form. -/
theorem SMap.wf_set [DecidableEq α] {m : SMap α} (h : SMap.wf d m = true) (k : Nat) (v : α) : SMap.wf d (SMap.set m d k v) = true := by
  rw [SMap.wf_iff] at *
  obtain ⟨hs, hv⟩ := h
  unfold SMap.set
  split
  · refine ⟨?_, fun e he => hv e (SMap.mem_erase he)⟩
    clear hv
    induction m with
    | nil => simp [SMap.erase]
    | cons a r ih =>
      rw [List.pairwise_cons] at hs
      unfold SMap.erase
      split
      · exact ih hs.2
      · exact List.pairwise_cons.2 ⟨fun e he => hs.1 e (SMap.mem_erase he), ih hs.2⟩
  · rename_i hd
    constructor
    · clear hv
      induction m with
      | nil => simp [SMap.insert]
      | cons a r ih =>
        rw [List.pairwise_cons] at hs
        unfold SMap.insert
        split
        · rename_i hk
          refine List.pairwise_cons.2 ⟨fun e he => ?_, List.pairwise_cons.2 hs⟩
          simp at he
          rcases he with he | he
          · simpa [he] using hk
          · exact lt_trans hk (hs.1 e he)
        · split
          · rename_i hk
            exact List.pairwise_cons.2 ⟨fun e he => by have := hs.1 e he; simp at this ⊢; omega, hs.2⟩
          · rename_i h1 h2
            refine List.pairwise_cons.2 ⟨fun e he => ?_, ih hs.2⟩
            rcases SMap.mem_insert he with he | he
            · simp [he]; omega
            · exact hs.1 e he
    · intro e he
      rcases SMap.mem_insert he with he | he
      · simpa [he] using hd
      · exact hv e he

theorem SMap.get_insert_same (m : SMap α) (k : Nat) (v : α) : SMap.get (SMap.insert m k v) d k = v := by
  induction m with
  | nil => simp [SMap.insert, SMap.get]
  | cons a r ih =>
    unfold SMap.insert
    split
    · simp [SMap.get]
    · split
      · simp [SMap.get]
      · rename_i h1 h2
        simp [SMap.get, h2, ih]

theorem SMap.get_insert_ne (m : SMap α) {k j : Nat} (v : α) (h : j ≠ k) : SMap.get (SMap.insert m k v) d j = SMap.get m d j := by
  induction m with
  | nil => simp [SMap.insert, SMap.get, Ne.symm h]
  | cons a r ih =>
    unfold SMap.insert
    split
    · simp [SMap.get, Ne.symm h]
    · split
      · rename_i h2
        simp [SMap.get, Ne.symm h, h2]
      · simp [SMap.get, ih]

theorem SMap.get_erase_ne (m : SMap α) {k j : Nat} (h : j ≠ k) : SMap.get (SMap.erase m k) d j = SMap.get m d j := by
  induction m with
  | nil => rfl
  | cons a r ih =>
    unfold SMap.erase
    split
    · rename_i h2
      simp [SMap.get, h2, Ne.symm h, ih]
    · simp [SMap.get, ih]

/-- A key taken out reads as the default. -/
theorem SMap.get_erase_same (m : SMap α) (k : Nat) : SMap.get (SMap.erase m k) d k = d := by
  induction m with
  | nil => rfl
  | cons a r ih =>
    unfold SMap.erase
    split
    · exact ih
    · rename_i h2
      simp [SMap.get, h2, ih]

/-- A read of another key after a write is unchanged. -/
@[simp] theorem SMap.get_set_ne [DecidableEq α] (m : SMap α) {k j : Nat} (v : α) (h : j ≠ k) : SMap.get (SMap.set m d k v) d j = SMap.get m d j := by
  unfold SMap.set
  split
  · exact SMap.get_erase_ne m h
  · exact SMap.get_insert_ne m v h

/-- A read of the key just written gives the value written. -/
@[simp] theorem SMap.get_set_same [DecidableEq α] (m : SMap α) (k : Nat) (v : α) : SMap.get (SMap.set m d k v) d k = v := by
  unfold SMap.set
  split
  · rename_i hv
    rw [SMap.get_erase_same, hv]
  · exact SMap.get_insert_same m k v

/-- Writing a run of bytes keeps the canonical form. -/
theorem Memory.wf_write (b : Bytes) : ∀ {m : Memory} (a : Nat), m.wf = true → (m.write a b).wf = true := by
  induction b with
  | nil => intro m a h; exact h
  | cons x r ih => intro m a h; exact ih (a + 1) (SMap.wf_set h a x)

/-- Every byte below or above a written run reads as before. -/
theorem Memory.byte_write_outside (b : Bytes) : ∀ (m : Memory) (a i : Nat), (i < a ∨ a + b.length ≤ i) → (m.write a b).byte i = m.byte i := by
  induction b with
  | nil => intro m a i _; rfl
  | cons x r ih =>
    intro m a i h
    simp only [List.length_cons] at h
    rw [Memory.write, ih _ _ _ (by omega)]
    exact SMap.get_set_ne m x (by omega)

/-- The bytes of a written run read as written. -/
theorem Memory.byte_write_inside (b : Bytes) : ∀ (m : Memory) (a i : Nat) (h : i < b.length), (m.write a b).byte (a + i) = b[i] := by
  induction b with
  | nil => intro m a i h; simp at h
  | cons x r ih =>
    intro m a i h
    rw [Memory.write]
    cases i with
    | zero =>
      rw [Memory.byte_write_outside _ _ _ _ (by omega)]
      exact SMap.get_set_same m a x
    | succ j =>
      have := ih (m.setByte a x) (a + 1) j (by simpa using h)
      simpa [Nat.add_assoc, Nat.add_comm 1 j] using this

theorem SMap.wf_filter [DecidableEq α] {m : SMap α} (h : SMap.wf d m = true) (f : Nat × α → Bool) : SMap.wf d (m.filter f) = true := by
  rw [SMap.wf_iff] at *
  exact ⟨h.1.filter _, fun e he => h.2 e (List.mem_filter.1 he).1⟩

/-- Clearing a range keeps the canonical form. -/
theorem Memory.wf_clear {m : Memory} (h : m.wf = true) (a n : Nat) : (m.clear a n).wf = true := SMap.wf_filter h _

end Sys2Proof
end

