-- ==== Sys2Proof/Laws/State.lean ====
section
/-! SUPPORT. Sys2Proof/Laws/State.lean: what the end of a command leaves alone: only the list of software gates may change (R558). -/
namespace Sys2Proof.Machine

/-- The end of a command gives a next state. -/
@[simp] theorem settled_eq (s : State) : settled s = .next s.openGates := rfl

@[simp] theorem presented_true (r : Res) : presented true r = r := rfl

/-- Operands that no hardware could present stop the command. -/
@[simp] theorem presented_false (r : Res) : presented false r = .fault .illFormed := rfl

/-- The end of a command changes nothing but the gates. -/
theorem State.openGates_eq (s : State) : s.openGates = { s with clk := { s.clk with gates := s.openGates.clk.gates } } := by
  unfold State.openGates
  split <;> rfl

@[simp] theorem State.openGates_rst (s : State) : s.openGates.rst = s.rst := by rw [State.openGates_eq]
@[simp] theorem State.openGates_sys (s : State) : s.openGates.sys = s.sys := by rw [State.openGates_eq]
@[simp] theorem State.openGates_flt (s : State) : s.openGates.flt = s.flt := by rw [State.openGates_eq]
@[simp] theorem State.openGates_cask (s : State) : s.openGates.cask = s.cask := by rw [State.openGates_eq]
@[simp] theorem State.openGates_pwr (s : State) : s.openGates.pwr = s.pwr := by rw [State.openGates_eq]
@[simp] theorem State.openGates_pwrKept (s : State) : s.openGates.pwrKept = s.pwrKept := by rw [State.openGates_eq]
@[simp] theorem State.openGates_mod (s : State) : s.openGates.mod = s.mod := by rw [State.openGates_eq]
@[simp] theorem State.openGates_jtag (s : State) : s.openGates.jtag = s.jtag := by rw [State.openGates_eq]
@[simp] theorem State.openGates_pins (s : State) : s.openGates.pins = s.pins := by rw [State.openGates_eq]
@[simp] theorem State.openGates_time (s : State) : s.openGates.time = s.time := by rw [State.openGates_eq]
@[simp] theorem State.openGates_fab (s : State) : s.openGates.fab = s.fab := by rw [State.openGates_eq]
@[simp] theorem State.openGates_disp (s : State) : s.openGates.disp = s.disp := by rw [State.openGates_eq]
@[simp] theorem State.openGates_grist (s : State) : s.openGates.grist = s.grist := by rw [State.openGates_eq]
@[simp] theorem State.openGates_cap (s : State) : s.openGates.cap = s.cap := by rw [State.openGates_eq]
@[simp] theorem State.openGates_comp (s : State) : s.openGates.comp = s.comp := by rw [State.openGates_eq]
@[simp] theorem State.openGates_meter (s : State) : s.openGates.meter = s.meter := by rw [State.openGates_eq]
@[simp] theorem State.openGates_host (s : State) : s.openGates.host = s.host := by rw [State.openGates_eq]
@[simp] theorem State.openGates_fls (s : State) : s.openGates.fls = s.fls := by rw [State.openGates_eq]
@[simp] theorem State.openGates_media (s : State) : s.openGates.media = s.media := by rw [State.openGates_eq]
@[simp] theorem State.openGates_carriers (s : State) : s.openGates.carriers = s.carriers := by rw [State.openGates_eq]
@[simp] theorem State.openGates_staged (s : State) : s.openGates.staged = s.staged := by rw [State.openGates_eq]
@[simp] theorem State.openGates_mem (s : State) : s.openGates.mem = s.mem := by rw [State.openGates_eq]
@[simp] theorem State.openGates_dram (s : State) : s.openGates.dram = s.dram := by rw [State.openGates_eq]
@[simp] theorem State.openGates_tiles (s : State) : s.openGates.tiles = s.tiles := by rw [State.openGates_eq]
@[simp] theorem State.openGates_tileSram (s : State) : s.openGates.tileSram = s.tileSram := by rw [State.openGates_eq]
@[simp] theorem State.openGates_coreSram (s : State) : s.openGates.coreSram = s.coreSram := by rw [State.openGates_eq]
@[simp] theorem State.openGates_cores (s : State) : s.openGates.cores = s.cores := by rw [State.openGates_eq]
@[simp] theorem State.openGates_gather (s : State) : s.openGates.gather = s.gather := by rw [State.openGates_eq]
@[simp] theorem State.openGates_matrix (s : State) : s.openGates.matrix = s.matrix := by rw [State.openGates_eq]
@[simp] theorem State.openGates_refn (s : State) : s.openGates.refn = s.refn := by rw [State.openGates_eq]
@[simp] theorem State.openGates_queues (s : State) : s.openGates.queues = s.queues := by rw [State.openGates_eq]
@[simp] theorem State.openGates_req (s : State) : s.openGates.req = s.req := by rw [State.openGates_eq]
@[simp] theorem State.openGates_srch (s : State) : s.openGates.srch = s.srch := by rw [State.openGates_eq]
@[simp] theorem State.openGates_dur (s : State) : s.openGates.dur = s.dur := by rw [State.openGates_eq]
@[simp] theorem State.openGates_nvmMem (s : State) : s.openGates.nvmMem = s.nvmMem := by rw [State.openGates_eq]
@[simp] theorem State.openGates_freeCtr (s : State) : s.openGates.freeCtr = s.freeCtr := by rw [State.openGates_eq]
@[simp] theorem State.openGates_out (s : State) : s.openGates.out = s.out := by rw [State.openGates_eq]
@[simp] theorem State.openGates_pending (s : State) : s.openGates.pending = s.pending := by rw [State.openGates_eq]
@[simp] theorem State.openGates_clk_phase (s : State) : s.openGates.clk.phase = s.clk.phase := by rw [State.openGates_eq]
@[simp] theorem State.openGates_clk_attempts (s : State) : s.openGates.clk.attempts = s.clk.attempts := by rw [State.openGates_eq]
@[simp] theorem State.openGates_clk_oscEn (s : State) : s.openGates.clk.oscEn = s.clk.oscEn := by rw [State.openGates_eq]
@[simp] theorem State.openGates_clk_refOk (s : State) : s.openGates.clk.refOk = s.clk.refOk := by rw [State.openGates_eq]
@[simp] theorem State.openGates_clk_auxLock (s : State) : s.openGates.clk.auxLock = s.clk.auxLock := by rw [State.openGates_eq]
@[simp] theorem State.openGates_clk_rootLock (s : State) : s.openGates.clk.rootLock = s.clk.rootLock := by rw [State.openGates_eq]
@[simp] theorem State.openGates_clk_refLost (s : State) : s.openGates.clk.refLost = s.clk.refLost := by rw [State.openGates_eq]
@[simp] theorem State.openGates_clk_auxUnlock (s : State) : s.openGates.clk.auxUnlock = s.clk.auxUnlock := by rw [State.openGates_eq]
@[simp] theorem State.openGates_clk_mgmtOnAux (s : State) : s.openGates.clk.mgmtOnAux = s.clk.mgmtOnAux := by rw [State.openGates_eq]
@[simp] theorem State.openGates_clk_oscw (s : State) : s.openGates.clk.oscw = s.clk.oscw := by rw [State.openGates_eq]
@[simp] theorem State.openGates_clk_gsrc (s : State) : s.openGates.clk.gsrc = s.clk.gsrc := by rw [State.openGates_eq]
@[simp] theorem State.openGates_clk_domSel (s : State) : s.openGates.clk.domSel = s.clk.domSel := by rw [State.openGates_eq]
@[simp] theorem State.openGates_clk_doms (s : State) : s.openGates.clk.doms = s.clk.doms := by rw [State.openGates_eq]
@[simp] theorem State.openGates_clk_swNoTap (s : State) : s.openGates.clk.swNoTap = s.clk.swNoTap := by rw [State.openGates_eq]
@[simp] theorem State.openGates_clk_swTimeout (s : State) : s.openGates.clk.swTimeout = s.clk.swTimeout := by rw [State.openGates_eq]
@[simp] theorem State.openGates_clk_swBusy (s : State) : s.openGates.clk.swBusy = s.clk.swBusy := by rw [State.openGates_eq]
@[simp] theorem State.openGates_clk_swDom (s : State) : s.openGates.clk.swDom = s.clk.swDom := by rw [State.openGates_eq]
@[simp] theorem State.openGates_clk_gateSel (s : State) : s.openGates.clk.gateSel = s.clk.gateSel := by rw [State.openGates_eq]
@[simp] theorem State.openGates_clk_gateRefused (s : State) : s.openGates.clk.gateRefused = s.clk.gateRefused := by rw [State.openGates_eq]
@[simp] theorem State.openGates_clk_gateNode (s : State) : s.openGates.clk.gateNode = s.clk.gateNode := by rw [State.openGates_eq]
@[simp] theorem State.openGates_clk_holdover (s : State) : s.openGates.clk.holdover = s.clk.holdover := by rw [State.openGates_eq]

/-- What is in use does not depend on the gates. -/
theorem State.inUse_gates (s : State) (g : List Nat) (v : TreeNode) : State.inUse { s with clk := { s.clk with gates := g } } v = s.inUse v := by
  cases v <;> rfl

@[simp] theorem State.openGates_inUse (s : State) (v : TreeNode) : s.openGates.inUse v = s.inUse v := by
  rw [State.openGates_eq]
  exact State.inUse_gates s _ v

end Sys2Proof.Machine
end

