-- ==== Sys2Proof/Laws/Cores.lean ====
section
/-! SUPPORT. Sys2Proof/Laws/Cores.lean: what the shared operations of a context do: register updates, meters, retiring, and the bytes of a vector slot. -/
namespace Sys2Proof.Machine

@[simp] theorem State.core_setCore_same (s : State) (c : Nat) (v : Core) : (s.setCore c v).core c = v := by
  simp [State.setCore, State.core]

@[simp] theorem State.core_setCore_ne (s : State) {c d : Nat} (v : Core) (h : d ≠ c) : (s.setCore c v).core d = s.core d := by
  simp [State.setCore, State.core, h]

/-- A change of a context is what is read of it. -/
@[simp] theorem State.ctx_modCtx_same (s : State) (r : CtxRef) (f : Ctx → Ctx) : (s.modCtx r f).ctx r = f (s.ctx r) := by
  simp [State.modCtx, State.ctx, SMap.modify]

/-- A change of a context leaves every other context alone. -/
theorem State.ctx_modCtx_ne (s : State) {r q : CtxRef} (f : Ctx → Ctx) (h : q ≠ r) : (s.modCtx r f).ctx q = s.ctx q := by
  unfold State.modCtx State.ctx
  by_cases hc : q.core = r.core
  · have hx : q.ctx.val ≠ r.ctx.val := fun e => h (by cases q; cases r; simp_all [Fin.ext_iff])
    simp [hc, SMap.modify, hx]
  · simp [State.core_setCore_ne s _ hc]

/-- A change of a context leaves what its core holds besides. -/
theorem State.core_modCtx (s : State) (r : CtxRef) (f : Ctx → Ctx) :
    (s.modCtx r f).core r.core = { s.core r.core with ctxs := (s.core r.core).ctxs.modify Ctx.reset r.ctx.val f } := by
  simp [State.modCtx]

@[simp] theorem State.core_modCtx_slots (s : State) (r : CtxRef) (f : Ctx → Ctx) : ((s.modCtx r f).core r.core).slots = (s.core r.core).slots := by
  rw [State.core_modCtx]

/-- A charge changes the meters only. -/
theorem State.charge_eq (s : State) (tag : BitVec 9) (p i n : Nat) : ∃ m, s.charge tag p i n = { s with meter := m } := by
  unfold State.charge State.chargeSet
  split_ifs <;> exact ⟨_, rfl⟩

@[simp] theorem State.charge_ctx (s : State) (tag : BitVec 9) (p i n : Nat) (r : CtxRef) : (s.charge tag p i n).ctx r = s.ctx r := by
  obtain ⟨m, h⟩ := s.charge_eq tag p i n
  rw [h]; rfl

@[simp] theorem State.charge_core (s : State) (tag : BitVec 9) (p i n c : Nat) : (s.charge tag p i n).core c = s.core c := by
  obtain ⟨m, h⟩ := s.charge_eq tag p i n
  rw [h]; rfl

/-- What retiring changes in its context. -/
theorem State.ctx_retireTo (s : State) (p : Part) (r : CtxRef) (pc : BitVec 64) : (s.retireTo p r pc).ctx r =
    { s.ctx r with pc := pc, instret := (s.ctx r).instret + 1, grant := false, hook := (s.ctx r).hook && pc != (s.ctx r).abfepc } := by
  simp [State.retireTo]

/-- Retiring leaves every other context alone. -/
theorem State.ctx_retireTo_ne (s : State) (p : Part) {r q : CtxRef} (pc : BitVec 64) (h : q ≠ r) : (s.retireTo p r pc).ctx q = s.ctx q := by
  simp [State.retireTo, State.ctx_modCtx_ne _ _ h]

/-- Retiring changes nothing but the meters and the cores. -/
theorem State.retireTo_eq (s : State) (p : Part) (r : CtxRef) (pc : BitVec 64) : ∃ m c, s.retireTo p r pc = { s with meter := m, cores := c } := by
  obtain ⟨m, h⟩ := s.charge_eq (s.ctx r).tenant p.num 1 1
  exact ⟨m, _, by rw [State.retireTo, h]; rfl⟩

@[simp] theorem State.retireTo_slots (s : State) (p : Part) (r : CtxRef) (pc : BitVec 64) :
    ((s.retireTo p r pc).core r.core).slots = (s.core r.core).slots := by
  simp [State.retireTo]

@[simp] theorem State.openGates_core (s : State) (c : Nat) : s.openGates.core c = s.core c := by simp [State.core]
@[simp] theorem State.openGates_ctx (s : State) (r : CtxRef) : s.openGates.ctx r = s.ctx r := by simp [State.ctx]

/-! ### Numbers as bytes -/

@[simp] theorem toLE_length (n v : Nat) : (toLE n v).length = n := by
  induction n generalizing v with
  | zero => rfl
  | succ n ih => simp [toLE, ih]

/-- Bytes spell the number they were made from, up to their width. -/
theorem leNat_toLE (n v : Nat) : leNat (toLE n v) = v % 256 ^ n := by
  induction n generalizing v with
  | zero => simp [toLE, leNat, Nat.mod_one]
  | succ n ih =>
    simp only [toLE, leNat, ih, BitVec.toNat_ofNat]
    rw [show (2 : Nat) ^ 8 = 256 from rfl, pow_succ, mul_comm (256 ^ n) 256, Nat.mod_mul]

theorem Memory.read_length (m : Memory) (n : Nat) : ∀ a, (m.read a n).length = n := by
  induction n with
  | zero => intro a; rfl
  | succ n ih => intro a; simp [Memory.read, ih]

theorem Memory.read_eq (m : Memory) (n : Nat) : ∀ a, m.read a n = (List.range n).map fun i => m.byte (a + i) := by
  induction n with
  | zero => intro a; rfl
  | succ n ih =>
    intro a
    rw [Memory.read, ih, List.range_succ_eq_map]
    simp [Function.comp_def, Nat.add_assoc, Nat.add_comm 1]

/-- A run just written reads as written. -/
theorem Memory.read_write_same (m : Memory) (b : Bytes) (a : Nat) : (m.write a b).read a b.length = b := by
  rw [Memory.read_eq]
  refine List.ext_getElem (by simp) fun i h1 h2 => ?_
  simp [Memory.byte_write_inside b m a i h2]

/-- A part of a written run. -/
theorem Memory.read_write_part (m : Memory) (b : Bytes) (a o n : Nat) (h : o + n ≤ b.length) : (m.write a b).read (a + o) n = (b.drop o).take n := by
  rw [Memory.read_eq]
  refine List.ext_getElem (by simp; omega) fun i h1 h2 => ?_
  simp only [List.length_map, List.length_range] at h1
  rw [List.getElem_map, List.getElem_range, Nat.add_assoc, Memory.byte_write_inside b m a (o + i) (by omega)]
  simp

/-- A read outside a written run is unchanged. -/
theorem Memory.read_write_outside (m : Memory) (b : Bytes) (a c n : Nat) (h : c + n ≤ a ∨ a + b.length ≤ c) : (m.write a b).read c n = m.read c n := by
  rw [Memory.read_eq, Memory.read_eq]
  refine List.map_congr_left fun i hi => ?_
  rw [List.mem_range] at hi
  exact Memory.byte_write_outside b m a (c + i) (by omega)

end Sys2Proof.Machine
end

