-- ==== Sys2Proof/Laws/Vectors.lean ====
section
/-! SUPPORT. Sys2Proof/Laws/Vectors.lean: keys and payloads that a sort instruction writes are what is then read (R177, R178). -/
namespace Sys2Proof.Machine

@[simp] theorem State.vwrite_slot (s : State) (r : CtxRef) (o : Nat) (b : Bytes) : ((s.vwrite r o b).ctx r) = s.ctx r := by
  unfold State.vwrite
  split
  · simp [State.ctx]
  · rfl

/-- What a slot holds after a write. -/
theorem State.vread_vwrite (s : State) (r : CtxRef) (o : Nat) (b : Bytes) (v : Fin 8) (h : (s.ctx r).slot = some v) (a n : Nat) :
    (s.vwrite r o b).vread r a n = (Memory.write ((s.core r.core).slots.get [] v.val) o b).read a n := by
  unfold State.vread
  rw [State.vwrite_slot, h]
  simp [State.vwrite, h]

theorem State.vread_eq (s : State) (r : CtxRef) (v : Fin 8) (h : (s.ctx r).slot = some v) (a n : Nat) :
    s.vread r a n = Memory.read ((s.core r.core).slots.get [] v.val) a n := by
  unfold State.vread
  rw [h]

/-- A part of what was written. -/
theorem State.vread_vwrite_part (s : State) (r : CtxRef) (o : Nat) (b : Bytes) (h : (s.ctx r).slot.isSome = true) (a n : Nat)
    (ha : o ≤ a) (hb : a + n ≤ o + b.length) : (s.vwrite r o b).vread r a n = (b.drop (a - o)).take n := by
  obtain ⟨v, hv⟩ := Option.isSome_iff_exists.1 h
  rw [s.vread_vwrite r o b v hv, ← Memory.read_write_part _ b o (a - o) n (by omega), Nat.add_sub_cancel' ha]

/-- A run outside what was written. -/
theorem State.vread_vwrite_outside (s : State) (r : CtxRef) (o : Nat) (b : Bytes) (a n : Nat) (ha : a + n ≤ o ∨ o + b.length ≤ a) :
    (s.vwrite r o b).vread r a n = s.vread r a n := by
  cases h : (s.ctx r).slot with
  | none => simp [State.vwrite, h]
  | some v => rw [s.vread_vwrite r o b v h, s.vread_eq r v h, Memory.read_write_outside _ _ _ _ _ ha]

theorem drop_flatten_toLE (n : Nat) (l : List Nat) (i : Nat) (h : i < l.length) :
    (((l.map (toLE n)).flatten.drop (n * i)).take n) = toLE n l[i] := by
  induction l generalizing i with
  | nil => simp at h
  | cons x r ih =>
    cases i with
    | zero => simp
    | succ j =>
      simp only [List.map_cons, List.flatten_cons, List.getElem_cons_succ]
      rw [show n * (j + 1) = (toLE n x).length + n * j by simp; ring, List.drop_append, List.drop_eq_nil_of_le (by simp)]
      simp only [toLE_length, Nat.add_sub_cancel_left, List.nil_append]
      exact ih j (by simpa using h)

theorem flatten_toLE_length (n : Nat) (l : List Nat) : ((l.map (toLE n)).flatten).length = n * l.length := by
  simp [List.length_flatten, Function.comp_def, mul_comm]

/-- 128 keys just written are what is read. -/
theorem State.keys_setKeys (s : State) (r : CtxRef) (v : Fin 32) (l : List Nat) (h : (s.ctx r).slot.isSome = true) (hl : l.length = 128)
    (hb : ∀ x ∈ l, x < 2 ^ 32) : (s.setKeys r v l).keys r v = l := by
  unfold State.keys State.setKeys
  refine List.ext_getElem (by simp [hl]) fun i h1 h2 => ?_
  simp only [List.length_map, List.length_range] at h1
  have hlen := flatten_toLE_length 4 l
  rw [List.getElem_map, List.getElem_range, s.vread_vwrite_part r _ _ h _ _ (by omega) (by omega),
    show 512 * v.val + 4 * i - 512 * v.val = 4 * i by omega, drop_flatten_toLE 4 l i h2, leNat_toLE]
  exact Nat.mod_eq_of_lt (by simpa using hb _ (List.getElem_mem h2))

/-- 128 payloads just written are what is read. -/
theorem State.pays_setPays (s : State) (r : CtxRef) (v : Fin 32) (l : List Nat) (h : (s.ctx r).slot.isSome = true) (hl : l.length = 128)
    (hb : ∀ x ∈ l, x < 2 ^ 64) : (s.setPays r v l).pays r v = l := by
  unfold State.pays State.setPays
  refine List.ext_getElem (by simp [hl]) fun i h1 h2 => ?_
  simp only [List.length_map, List.length_range] at h1
  have hlen := flatten_toLE_length 8 l
  rw [List.getElem_map, List.getElem_range, s.vread_vwrite_part r _ _ h _ _ (by omega) (by omega),
    show 512 * v.val + 8 * i - 512 * v.val = 8 * i by omega, drop_flatten_toLE 8 l i h2, leNat_toLE]
  exact Nat.mod_eq_of_lt (by simpa using hb _ (List.getElem_mem h2))

/-- Keys written to one register leave the keys of another. -/
theorem State.keys_setKeys_ne (s : State) (r : CtxRef) {v w : Fin 32} (l : List Nat) (hl : l.length = 128) (h : w ≠ v) :
    (s.setKeys r v l).keys r w = s.keys r w := by
  unfold State.keys State.setKeys
  refine List.map_congr_left fun i hi => ?_
  rw [List.mem_range] at hi
  have hlen := flatten_toLE_length 4 l
  have : w.val ≠ v.val := fun e => h (Fin.ext e)
  rw [s.vread_vwrite_outside r _ _ _ _ (by omega)]

/-- Keys written to one register leave the payloads of others. -/
theorem State.pays_setKeys (s : State) (r : CtxRef) {v w : Fin 32} (l : List Nat) (hl : l.length = 128) (h : v.val ≠ w.val ∧ v.val ≠ w.val + 1) :
    (s.setKeys r v l).pays r w = s.pays r w := by
  unfold State.pays State.setKeys
  refine List.map_congr_left fun i hi => ?_
  rw [List.mem_range] at hi
  have hlen := flatten_toLE_length 4 l
  rw [s.vread_vwrite_outside r _ _ _ _ (by omega)]

/-- Payloads written to two registers leave the keys of others. -/
theorem State.keys_setPays (s : State) (r : CtxRef) {v w : Fin 32} (l : List Nat) (hl : l.length = 128) (h : w.val ≠ v.val ∧ w.val ≠ v.val + 1) :
    (s.setPays r v l).keys r w = s.keys r w := by
  unfold State.keys State.setPays
  refine List.map_congr_left fun i hi => ?_
  rw [List.mem_range] at hi
  have hlen := flatten_toLE_length 8 l
  rw [s.vread_vwrite_outside r _ _ _ _ (by omega)]

/-- Payloads written to two registers leave the payloads of others. -/
theorem State.pays_setPays_ne (s : State) (r : CtxRef) {v w : Fin 32} (l : List Nat) (hl : l.length = 128)
    (h : w.val ≠ v.val ∧ w.val ≠ v.val + 1 ∧ v.val ≠ w.val + 1) : (s.setPays r v l).pays r w = s.pays r w := by
  unfold State.pays State.setPays
  refine List.map_congr_left fun i hi => ?_
  rw [List.mem_range] at hi
  have hlen := flatten_toLE_length 8 l
  rw [s.vread_vwrite_outside r _ _ _ _ (by omega)]

@[simp] theorem State.setKeys_ctx (s : State) (r : CtxRef) (v : Fin 32) (l : List Nat) : (s.setKeys r v l).ctx r = s.ctx r := s.vwrite_slot r _ _
@[simp] theorem State.setPays_ctx (s : State) (r : CtxRef) (v : Fin 32) (l : List Nat) : (s.setPays r v l).ctx r = s.ctx r := s.vwrite_slot r _ _

/-- A vector arithmetic word of a context without a slot is an illegal instruction (R249). -/
theorem State.vectorArith_noSlot (s : State) (p : Part) (r : CtxRef) (w : Nat) (h : (s.ctx r).slot = none) :
    s.vectorArith p r w = s.trap p r 2 w := by
  simp [State.vectorArith, h]

/-- A word of vector elements leaves everything outside its destination group's bytes of the slot as it was. -/
theorem State.vput_group_outside (s : State) (r : CtxRef) (e : VEnv) (d : VGroup) (a b : Nat) (els : List (Option VEl)) (o n : Nat)
    (h : o + n ≤ d.v * 512 ∨ d.v * 512 + (e.merged d a b els).length ≤ o) :
    (s.vput r e (.group d a b els)).vread r o n = s.vread r o n :=
  s.vread_vwrite_outside r _ _ o n h

end Sys2Proof.Machine
end

