-- ==== Sys2Proof/Tests/Slice0.lean ====
section
/-! SUPPORT. Sys2Proof/Tests/Slice0.lean: small tests. The first ones show that WellFormed refuses what hardware could not present; the others each show a
concrete state and operands that meet the hypotheses of one statement of Certificates/Slice0/Obligations.lean, clause by clause, or check one step against
values worked out from the rules by hand. -/
set_option maxRecDepth 100000
set_option Elab.async false
namespace Sys2Proof.Tests
open Sys2Proof Sys2Proof.Machine

/-! ### A small node: one partition on tile 0 that runs one program -/

def prog : Program := { id := 1, code := zeros 64, data := [], zeroed := 0, entry := 0, assigns := [⟨0, 0x000F, 0x003⟩] }

def queueDefs : List QueueDef :=
  [⟨10, 0, 2, 10, 0xFF, 90, 0x10000⟩, ⟨11, 1, 2, 10, 0xFF, 90, 0x20000⟩, ⟨12, 2, 2, 10, 0xFF, 90, 0x30000⟩, ⟨13, 3, 2, 6, 0xFF, 90, 0x40000⟩,
   ⟨14, 4, 2, 6, 0xFF, 90, 0x50000⟩, ⟨15, 5, 2, 6, 0xFF, 90, 0x60000⟩, ⟨16, 6, 2, 6, 0, 90, 0x100000⟩, ⟨17, 7, 2, 7, 0, 90, 0x110000⟩]

def svc (i k : Nat) : Service :=
  { index := i, kind := k, reqQ := 10, updQ := 11, ansQ := 12, entryProg := 1, maxK := 100, beam := 8, widen := 16, defBudget := 1000, ceiling := 2000, nvme := 0,
    dist := 7, stages := [⟨1, false, 1⟩] }

/-- Services 0 to 3: search, updates, embedding, storage filters, all bound to tenant 5 with every right. -/
def part0 : Machine.Part :=
  { num := 0, prio := 0, name := [], tiles := [(0, 0x3FFF)], seed := 7, mem := [⟨0, false, 0, 8⟩, ⟨8, true, 0, 1⟩],
    flash := [⟨0, false, false, 10, 0⟩, ⟨1, true, true, 1, 0⟩], queues := queueDefs, tenants := (List.range 4).map fun i => ⟨5, i, 15, 10, 0xFF⟩, routes := [],
    programs := [prog], services := (List.range 4).map fun i => svc i i }

def ctx0 : Ctx := { pc := 0x400000, wait := .ready, prog := 1 }

def core0 : Core := { st := .running, cur := 0, ctxs := [(0, ctx0)] }

def clkUp : Clk := { phase := .up, rootLock := true, auxLock := true }

/-- The node, up, with its image running. -/
def node : State :=
  { clk := clkUp, cores := [(0, core0)], time := { lockedOnce := true, floor := some 0, state := .locked },
    grist := { state := .running, parts := [part0], pstate := [(0, .running)], admitting := true } }

/-- The node with another context 0. -/
def withCtx (c : Ctx) : State := { node with cores := [(0, { core0 with ctxs := [(0, c)] })] }

/-- The node with a queue of partition 0 in a given state. -/
def withQueue (s : State) (id : Nat) (q : QState) : State := s.setQueue 0 id q

/-- The state that an outcome goes on to. -/
def after (r : Host.Outcome State Fault Refusal) : State := match r with | .next t => t | _ => {}

/-! ### WellFormed -/

theorem test_wf_registers : (Instr.registerWrite .host 2 [(0, true)] {}).wf = false ∧ (Instr.registerWrite .host 0x3FFFFFC [(0, true), (0, true)] {}).wf = false ∧
    (Instr.registerWrite .mgmt 0 [(0, false)] {}).wf = false ∧ (Instr.registerWrite .host 0x3FFFFFC [(0, false)] {}).wf = true ∧
    (Instr.bitAliasWrite .host 4 [] {}).wf = false ∧ (Instr.registerAccessRead [2]).wf = false ∧ (Instr.registerAccessWrite [1] {}).wf = false := by decide

theorem test_wf_words : (Instr.load 0 0x13).wf = false ∧ (Instr.store 0 0x03).wf = false ∧ (Instr.amo 0 0x1000202F).wf = false ∧ (Instr.lr 0 0x1800202F).wf = false ∧
    (Instr.sc 0 0x1000202F).wf = false ∧ (Instr.fence 0 0x100F).wf = false ∧ (Instr.lr 0 0x1000202F).wf = true ∧ (Instr.fence 0 0x0F).wf = true := by decide

theorem test_wf_frames : (Instr.dataFrame 0 [2] false).wf = false ∧ (Instr.dataFrame 0 [2] true).wf = true ∧ (Instr.credit 0 [1]).wf = false ∧
    (Instr.linkInit 0 [3]).wf = false ∧ (Instr.initAck 0 [3]).wf = false ∧ (Instr.keepalive 0 [3]).wf = false ∧ (Instr.timeFrame 0 [3]).wf = false ∧
    (Instr.timeFrame 0 [4]).wf = true := by decide

theorem test_wf_host : (Instr.ccEnSet .host 0).wf = false ∧ (Instr.ccEnClear .host 1).wf = false ∧ (Instr.ccShn .host 1).wf = false ∧
    (Instr.nvmeFlush 0 0 1).wf = false ∧ (Instr.nvmeFlush 1 0 1).wf = true ∧ linkOk 7 4 = false ∧ linkOk 4 3 = false ∧ linkOk 6 16 = true := by decide

theorem test_wf_levels : (Instr.inputLow 700).wf = false ∧ (Instr.inputLowEnd 720).wf = false ∧ (Instr.busFlushTrigger 680).wf = false ∧
    (Instr.inputReturn 740).wf = false ∧ (Instr.converterStart 740).wf = false ∧ (Instr.busHigh 870).wf = false ∧ (Instr.busCollapse 401).wf = false ∧
    (Instr.inputLow 699).wf = true ∧ (Instr.busCollapse 400).wf = true := by decide

theorem test_wf_others : (Instr.carrierPowerExcess 150).wf = false ∧ (Instr.oeCool 0 71).wf = false ∧ (Instr.oeCool 0 70).wf = true ∧
    (Instr.thermalSample (List.replicate 43 0)).wf = false ∧ (Instr.bypass 0x04).wf = false ∧ (Instr.bypass 0xFF).wf = true := by decide

theorem test_ill_formed_stops : exec (.inputLow 700) node = .fault .illFormed := rfl

theorem test_no_row_has_bits : decodeTableWord 32 0x13 = none ∧ node.withFetchWord 32 0x13 = node := by decide +kernel

/-! ### Steps, resets and clocks -/

def held : State := {}
def phase (p : StartPhase) : State := { clk := { phase := p, rootLock := true, auxLock := true }, pins := { gsrc := true } }

theorem test_hyp_StepRunsFrontCommand : ({ node with pending := [.referenceReturn] } : State).pending = .referenceReturn :: [] := by decide +kernel

theorem test_hyp_IdleStepPassesOneNanosecond : node.pending = [] ∧ node.cask.state ≠ 4 ∧ (after (step node)).time.up = 1 := by decide +kernel

theorem test_hyp_WellFormedCommandsRun : Instr.referenceReturn.wf = true ∧ (Instr.inputLow 700).wf = false := by decide

theorem test_ResetValues : (State.reset.regRead 0x40000).1 = 0x024816B1 ∧ (State.reset.regRead 0xE0070).1 = 0x6400 ∧ (State.reset.regRead 0x400014).1 = 0x8000 := by
  decide +kernel

theorem test_hyp_StepKeepsGatesOpen : GatesOpen node ∧ ∃ t, step node = .next t := by
  refine ⟨?_, _, rfl⟩
  intro n hn
  have e : node.clk.gates = [] := rfl
  simp [e] at hn

theorem test_hyp_StartSequenceAdvances : held.clk.phase = .held ∧ held.pwr.off = false ∧ (phase .delay).clk.phase = .delay ∧
    (phase .checking).clk.phase = .checking ∧ (phase .locking).clk.phase = .locking ∧ (phase .locking).rst.cause ≠ 4 ∧ (phase .training).clk.phase = .training ∧
    (phase .training).pins.gsrc = true := by decide +kernel

theorem test_hyp_ReferenceAndPllLosses : node.timeRuns = true ∧ node.clk.phase = .up ∧ node.pwr.off = false ∧ node.pwr.state ≠ 2 := by decide +kernel

/-- Domain 0 with a switch to tap 3 pending; the gate register names the node of tile 5, which no partition owns. -/
def tapped : State := node.setDom 0 ⟨3, 4, true⟩
def gateAt (n : Nat) : State := { node with clk := { node.clk with gateSel := BitVec.ofNat 11 n } }

theorem test_hyp_TapSwitchesAndSoftwareGates : (node.regsLive = true ∧ node.cask.state = 0) ∧ tapOffered node.clk.selDom 5 = true ∧
    (node.clk.dom node.clk.selDom).pend = false ∧ (tapped.clk.dom tapped.clk.selDom).pend = true ∧ tapOffered node.clk.selDom 9 = false ∧
    (tapped.clk.dom 0).pend = true ∧ tapped.clk.tapReady 3 = true ∧ ((tapped.clk.dom 0).tap = 3) ∧
    (let t : State := { tapped with clk := { tapped.clk with rootLock := false } }; (t.clk.dom 0).pend = true ∧ t.clk.tapReady (t.clk.dom 0).tap.toNat = false) ∧
    treeNode (gateAt 19).clk.gateSel.toNat = some (.dom 5) ∧ (gateAt 19).inUse (.dom 5) = false ∧ (gateAt 19).regsLive = true ∧
    treeNode (gateAt 14).clk.gateSel.toNat = some (.dom 0) ∧ (gateAt 14).inUse (.dom 0) = true := by decide +kernel

/-- R557: a gate over a tile that no partition owns closes, and one over a tile in use is refused. -/
theorem test_gate_write : (after (exec (.gateWrite .host true) (gateAt 19))).clk.gates = [19] ∧ (after (exec (.gateWrite .host true) (gateAt 14))).clk.gates = [] ∧
    (after (exec (.gateWrite .host true) (gateAt 14))).clk.gateRefused = true := by decide +kernel

def resetHeld (low ov : Bool) : State :=
  { (phase .resetHold) with pins := { resetN := !low }, rst := { holdOver := ov } }

theorem test_hyp_ModuleResetsHoldAndRelease : node.clk.phase = .up ∧ (node.pwr.off = false ∧ node.pwr.state.toNat < 2) ∧ node.cask.state = 0 ∧
    (resetHeld false false).clk.phase = .resetHold ∧ (resetHeld false false).clk.rootLock = true ∧ (resetHeld false false).clk.auxLock = true ∧
    (resetHeld false false).pins.resetN = true ∧ (resetHeld true false).pins.resetN = false ∧ (resetHeld true true).rst.holdOver = true := by decide +kernel

def partResetting : State := { node with rst := { partBusy := [0] }, grist := { node.grist with pstate := [(0, .reloading)] } }

theorem test_hyp_PartitionAndCoreResets : (node.regsLive = true ∧ node.cask.state = 0) ∧ node.modResetRuns = false ∧ node.part? 0 = some part0 ∧
    node.pstate 0 = .running ∧ 0 ∉ node.rst.partBusy ∧ node.grist.load = none ∧ partResetting.part? 0 = some part0 ∧ 0 ∈ partResetting.rst.partBusy ∧
    node.ownerOf 0 = some part0 ∧ (node.core 8).st ≠ .testing ∧ node.flt.running = [] := by decide +kernel

/-- R561: a partition reset reloads the partition, and its end starts its contexts at their entry points. -/
theorem test_partition_reset : (after (exec (.partitionReset .mgmt 0) node)).pstate 0 = .reloading ∧
    (after (exec (.partitionResetEnd 0 none) partResetting)).pstate 0 = .running := by decide +kernel

/-! ### Registers -/

theorem test_hyp_RegisterWordsAndMessages : (node.regsLive = true ∧ node.cask.state = 0) ∧ (0x3FFFFFC : BitVec 26).toNat % 4 = 0 ∧
    (0x3FFFFFC : BitVec 26).toNat + 4 ≤ 0x4000000 ∧ parseRegMsg [1] = none ∧ fieldAt [1] 0 1 ≠ 2 := by decide +kernel

theorem test_hyp_UnmappedWritesAreFlagged : windowBlock 0x3FFFFFC = none ∧ node.cask.state = 0 ∧ node.regsLive = true ∧ held.regsLive = false ∧
    held.cask.state = 0 := by decide +kernel

theorem test_hyp_LockedAndWriteOneFields : node.regsLive = true ∧ node.cask.state = 0 := by decide +kernel

/-- R577: one alias word of SYS_SCRATCH writes one bit. -/
theorem test_alias : (after (exec (.bitAliasWrite .host (BitVec.ofNat 27 (32 * 0x4001C + 4 * 31)) [(1, true)] {}) node)).sys.scratch = 0x80000000 := by decide +kernel

theorem test_coretest_is_its_write : exec (.coreTest .host 3) node = exec (.registerWrite .host 0xF0100 [(0x80000301, true)] {}) node := rfl

/-! ### Requests: an index of 2 dimensions in partition 0, and one message of each kind -/

/-- The descriptor of an active index: INT8, Euclidean and inner product, 2 dimensions (R85), its check over the first 128 bytes. -/
def descBytes : Bytes :=
  let b := toLE 4 0x58444E49 ++ [0, 7] ++ toLE 2 2 ++ zeros 6 ++ toLE 2 16 ++ zeros 112
  b ++ [2] ++ zeros 123 ++ toLE 4 (crc32c b)

def indexed : State := node.pmWrite part0 (descAt 0) descBytes

def header (kind service : Nat) (n : Nat) : Bytes :=
  toLE 1 kind ++ [1] ++ toLE 1 service ++ [5] ++ toLE 4 (64 + n) ++ toLE 8 77 ++ zeros 12 ++ zeros 4 ++ zeros 4 ++ toLE 2 0xFFFF ++ zeros 2 ++ zeros 24

def queryBody (cnt : Nat) (x : Bytes) : Bytes :=
  [0, 0] ++ toLE 2 1 ++ zeros 12 ++ toLE 2 cnt ++ zeros 6 ++ x ++ zeros ((8 - x.length % 8) % 8)
def updateBody (cnt : Nat) (x : Bytes) : Bytes := [0, 0] ++ toLE 2 cnt ++ zeros 12 ++ x ++ zeros ((8 - x.length % 8) % 8)
def filterBody (mx : Nat) : Bytes := toLE 2 1 ++ toLE 2 16 ++ zeros 4 ++ zeros 8 ++ toLE 4 1 ++ toLE 4 mx

def message : Nat → Bytes
  | 1 => let b := queryBody 2 [3, 4]; header 1 0 b.length ++ b
  | 2 => let b := queryBody 1 [9, 0, 0, 0]; header 2 0 b.length ++ b
  | 3 => let b := updateBody 2 [3, 4]; header 3 1 b.length ++ b
  | 4 => let b := updateBody 2 [3, 4]; header 4 1 b.length ++ b
  | 5 => let b := updateBody 0 []; header 5 1 b.length ++ b
  | 6 => let b := updateBody 1 [9, 0, 0, 0]; header 6 2 b.length ++ b
  | 0x10 => let b := filterBody 1; header 0x10 3 b.length ++ b
  | _ => let b := filterBody 0; header 0x11 3 b.length ++ b

def fromHost : Source := .nvme 1 1

/-- The message is of good format, its epoch is held, the node serves it, and every check passes. -/
def admitted (k : Nat) : Bool :=
  formatOk fromHost (ofKind k (message k)) && rqEpoch (ofKind k (message k)) ≤ indexed.epoch &&
    indexed.addressed k (rqSvc (message k)) (rqVid (message k)) && indexed.requestShards k (rqSvc (message k)) (rqVid (message k)) == [] &&
    match indexed.checks fromHost (ofKind k (message k)) with | (0, some _, _) => true | _ => false

theorem test_hyp_RequestsAreAdmitted : indexed.inputStopped = false ∧ ([1, 2, 3, 4, 5, 6, 0x10, 0x11].map admitted) = List.replicate 8 true := by decide +kernel

theorem test_hyp_RefusedRequestsAreBuffered : formatOk fromHost (ofKind 0x01 [1]) = false ∧ node.disp.fill.toNat < refusalMax := by decide +kernel

/-- R146, R148: the rejected message leaves one refusal with BAD_FORMAT. -/
theorem test_refused : (after (exec (.vectorQuery fromHost [1]) node)).disp.lastStatus = 0x20 := by decide +kernel

def req0 (place : ReqAt) : Req :=
  { id := 3, src := fromHost, data := message 1, part := 0, svc := 0, tenant := 5, queue := 10, ansQ := 12, ta := 0, td := 1000000, place := place }
def withReq (place : ReqAt) : State := { indexed with req := { indexed.req with reqs := [req0 place] } }

def refusing : State := { node with req := { node.req with refusals := [⟨fromHost, [1, 2]⟩] }, disp := { node.disp with fill := 1 } }
def relaying : State := { node with req := { node.req with relays := [⟨77, ⟨0, 0, 0⟩, fromHost⟩] } }

def query0 : Query :=
  { req := 3, part := 0, svc := 0, stamp := ⟨0, 0, 0⟩, index := 0, dist := 0, k := 1, beam := 8, widen := 16, cands := 8, rescore := 8, level := 0, ranking := false,
    raw := [3, 4], q := [0x40400000, 0x40800000], pred := [], ctx := [], stage := .scan }
def searching : State := { withReq .queued with srch := { queries := [query0] } }

theorem test_hyp_HeldRequestsRefusalsAndAnswers : (withReq .hold).req? 3 = some (req0 .hold) ∧ (withReq .hold).part? 0 = some part0 ∧
    refusing.req.refusals = ⟨fromHost, [1, 2]⟩ :: [] ∧ refusing.req.stalled = [] ∧
    searching.req? 3 = some (req0 .queued) ∧ searching.query? 3 = some query0 ∧ (withReq (.answered [1])).req? 3 = some (req0 (.answered [1])) ∧
    (relaying.req.relays.find? (fun r => r.tag.toNat == fieldAt (message 1) 8 8 && r.stamp == stampAt (message 1) 0x10)).isSome = true := by decide +kernel

def scanCmd : ScanCmd :=
  { id := 1, part := 0, queue := 14, desc := zeros 64, tag := 5, layout := 0, c := 8, ranges := [], std := some (.scan 3 0 0), finished := some 0 }
def lauterCmd : LauterCmd :=
  { id := 1, carrier := 0, part := 0, queue := 15, desc := zeros 64, tag := 5, std := some (.rescore 3 0 0), finished := some ([], 0, 0) }
def returning : State := { (indexed.modMem 8 fun m => { m with cmds := [scanCmd] }) with fls := { cmds := [lauterCmd] } }

theorem test_hyp_UpdatesAndReturnsGoOn : (returning.memCtl 8).cmds.find? (·.id == 1) = some scanCmd ∧ scanCmd.std = some (.scan 3 0 0) ∧
    scanCmd.finished = some 0 ∧ returning.lauterCmd? 1 = some lauterCmd ∧ lauterCmd.std = some (.rescore 3 0 0) ∧ lauterCmd.finished = some ([], 0, 0) ∧
    lauterCmd.refuse = none ∧ indexed.part? 0 = some part0 ∧
    (match indexed.useIndex part0 0 with | (some x, s) => s.dirDue part0 0 x | _ => false) = true := by decide +kernel

/-! ### Images -/

/-- Sections at the next multiples of 64 from `at_`. -/
def place (at_ : Nat) : List (Nat × Nat × Bytes) → List (Nat × Nat × Nat × Bytes)
  | [] => []
  | (t, p, b) :: r => (t, p, at_, b) :: place (alignUp (at_ + b.length) 64) r

/-- A grist image of R27 to R30, but for its signature block. -/
def imageBody (target : Nat) (id base : Nat) (secs : List (Nat × Nat × Bytes)) : Bytes :=
  let n := secs.length
  let l := place (alignUp (0x40 + 16 * n) 64) secs
  let body := l.flatMap fun (e : Nat × Nat × Nat × Bytes) => e.2.2.2 ++ zeros (alignUp e.2.2.2.length 64 - e.2.2.2.length)
  let dir := l.flatMap fun (e : Nat × Nat × Nat × Bytes) =>
    toLE 1 e.1 ++ toLE 1 e.2.1 ++ zeros 2 ++ toLE 4 e.2.2.1 ++ toLE 4 e.2.2.2.length ++ toLE 4 (crc32c e.2.2.2)
  let pad := zeros (alignUp dir.length 64 - dir.length)
  let len := 0x40 + dir.length + pad.length + body.length + 256
  let head := toLE 4 0x54535247 ++ toLE 2 2 ++ toLE 1 (b2n (target != 0xFF)) ++ toLE 1 target ++ toLE 2 0xB1 ++ zeros 2 ++ toLE 4 len ++ toLE 4 0x40 ++
    toLE 2 n ++ zeros 2 ++ toLE 8 id ++ toLE 8 base ++ zeros 12 ++ toLE 4 (crc32c dir) ++ zeros 4
  head ++ toLE 4 (crc32c head) ++ dir ++ pad ++ body

/-- A signature block of R33: key slot 0, the public key and the signature. -/
def sigBlock (x y r s : Nat) : Bytes := toLE 4 0x47495347 ++ zeros 4 ++ toLE 48 x ++ toLE 48 y ++ toLE 48 r ++ toLE 48 s ++ zeros 56

/-- Partition 0 with tile 0, no cores, and one queue of 16 slots of 64 bytes at 0x100000. -/
def partSecs : List (Nat × Nat × Bytes) :=
  [(3, 0, zeros 2 ++ toLE 1 1 ++ zeros 17 ++ toLE 12 1 ++ zeros 24),
   (5, 0, toLE 2 10 ++ toLE 1 0 ++ toLE 1 4 ++ toLE 1 6 ++ toLE 1 0 ++ toLE 1 90 ++ toLE 1 0 ++ toLE 4 0x100000 ++ zeros 4)]

/-- CLOCK with the resets of R40, FABRIC with channel 0 on lane 0 of engine 0. -/
def fullSecs : List (Nat × Nat × Bytes) :=
  [(1, 0xFF, toLE 1 5 ++ toLE 1 2 ++ toLE 1 12 ++ toLE 1 0 ++ toLE 2 1450 ++ toLE 2 0 ++ zeros 56), (2, 0xFF, zeros 5 ++ toLE 1 0xFE ++ zeros 2)] ++ partSecs

def fullBody : Bytes := imageBody 0xFF 9 0 fullSecs
def partBody : Bytes := imageBody 0 10 9 partSecs
def fullImage : Bytes := fullBody ++ sigBlock 0x9B254EB1430D2F61B57D22016D688C6DF659C2FF5753E9A8FCB723DEA92FC76CCDD76CD162F647BAF72996BEF9CD35B4
    0xEB434D16C34A5C9FF58FA05DE77D3FB284CC8D85C6CBBBC0093D0368979C000199CF7098F9F5074DB1824F04C76BDDC9
    0x99056E27DA7B998DA1EEEC2904816C57FE935ED5837C37456C9FD14892D3F8C4749B66E3AFB81D626356F3B55B4DDD8
    0x8B3B33CD05D29E16AE980FD6F15F6D6BE16FCAB4F886106CF3FB0E61851AC34C48F9922A0D5E3588998A8A34EF703E11
def partImage : Bytes := partBody ++ sigBlock 0xF375CF960FE5F055EBD777E9853AFA45498A385B98BFD4B4D14017CA6C7011DC4F58FA5FB74BFFCEBC4340534E3EF99B
    0xCCFFA5C085A032EA031836C6460736A7F17F0DB570F7E5BBD0F14530EF07275EB99D4DA7A18C8DE9A189B3D517602D62
    0x99056E27DA7B998DA1EEEC2904816C57FE935ED5837C37456C9FD14892D3F8C4749B66E3AFB81D626356F3B55B4DDD8
    0xBDFFD21A84B558EECBF12E4330D7087F3CA7DFE2ADE1135A8EE91A6F4ED4811DCF72DDEA1AE75102675208CA96A90F13

/-- The digest of the two images' keys, which slot 0 of the fuses must hold for the node to take them. -/
def keyDigest (image : Bytes) : BitVec 384 := BitVec.ofNat 384 (leNat (sha384 (slice (imgSig image) 8 96)))

theorem full_signed : chkSignature fullImage = true := by decide +kernel
theorem part_signed : chkSignature partImage = true := by decide +kernel

theorem key_ok (b : Bytes) (h : Config.fuseKeyHash 0 = some (keyDigest b)) (h0 : fieldAt (imgSig b) 4 1 = 0)
    (h1 : (fieldAt (imgSig b) 0 4 == 0x47495347 && allZero (slice (imgSig b) 5 3) && allZero (slice (imgSig b) 0xC8 56)) = true) : chkKey b 0 = true := by
  simp only [chkKey, h0, h, h1, keyDigest]
  simp

/-- The full image passes every check of a node with no revoked key, and so does the partial one against it (R30 to R65, R68, R76). -/
theorem full_checks (h : Config.fuseKeyHash 0 = some (keyDigest fullImage)) (n : Option Nat) (hn : n = none ∨ n = some 0x280) :
    checkImage fullImage n 0 0 ⟨[], none, false, 92000⟩ 0 = none := by
  have hk := key_ok fullImage h (by decide +kernel) (by decide +kernel)
  unfold checkImage
  rw [hk, full_signed]
  obtain rfl | rfl := hn <;> decide +kernel

theorem part_checks (h : Config.fuseKeyHash 0 = some (keyDigest partImage)) : checkImage partImage (some 0x200) 0 0 ⟨[], some part0, true, 92000⟩ 9 = none := by
  have hk := key_ok partImage h (by decide +kernel) (by decide +kernel)
  unfold checkImage
  rw [hk, part_signed]
  decide +kernel

theorem full_load (h : Config.fuseKeyHash 0 = some (keyDigest fullImage)) (s : State) (n : Option Nat) (hn : n = none ∨ n = some 0x280)
    (hs : s.againstFull = ⟨[], none, false, 92000⟩ ∧ s.grist.revoke = 0 ∧ s.grist.svnMin = 0 ∧ s.grist.imageId = 0) : s.checkLoad false fullImage n = none := by
  obtain ⟨h1, h2, h3, h4⟩ := hs
  have hp : (imgPartial fullImage != false) = false := by decide +kernel
  have hc := full_checks h n hn
  simp only [State.checkLoad, Bool.false_eq_true, if_false, h1, h2, h3, h4, show (0 : BitVec 16).toNat = 0 from rfl, hc, hp]

/-- A node with no image whose carrier 0 holds the full image in both slots of its store, or in one. -/
def withStore (st : GState) (f : FlashStore) : State :=
  { clk := clkUp, carriers := [(0, { state := .online, present := true, pgood := true, store := f })], grist := { state := st } }
def loadable : State := withStore .empty { slotA := some fullImage, slotB := some fullImage }
def goFrom (src : BitVec 2) : State := { loadable with grist := { loadable.grist with src := src, persist := false, drainMs := 1 } }

theorem test_hyp_GristLoadsAndRegrist_store (h : Config.fuseKeyHash 0 = some (keyDigest fullImage)) :
    (loadable.regsLive = true ∧ loadable.cask.state = 0) ∧ loadable.grist.busy = false ∧ loadable.loadBarred = false ∧ loadable.grist.state ≠ .running ∧
      loadable.storeRec.pending = none ∧ loadable.copies.reduceOption.any (·.failing) = false ∧
      (∀ b : Bool, ((goFrom 0).beginLoad none).pickCopy false (1, none) 0 (loadable.copies.map fun x => x.bind fun y => storeSlot y b) = .ok (fullImage, 0)) ∧
      (∀ b : Bool, ((goFrom 1).beginLoad none).pickCopy false (1, none) 0 (loadable.copies.map fun x => x.bind fun y => storeSlot y b) = .ok (fullImage, 0)) := by
  have hc (b : Bool) : loadable.copies.map (fun x => x.bind fun y => storeSlot y b) = [some fullImage] := by cases b <;> decide +kernel
  refine ⟨by decide +kernel, by decide +kernel, by decide +kernel, by decide +kernel, by decide +kernel, by decide +kernel, fun b => ?_, fun b => ?_⟩
  · rw [hc, State.pickCopy, full_load h _ none (.inl rfl) (by decide +kernel)]
  · rw [hc, State.pickCopy, full_load h _ none (.inl rfl) (by decide +kernel)]

/-- The node with its image's id set, and a host buffer of the partial image's length. -/
def regristing : State := { node with grist := { node.grist with imageId := 9, hostLen := 0x200, drainMs := 1 } }
def goHost : State := { regristing with grist := { regristing.grist with src := 2, persist := false, drainMs := 1 } }

theorem test_hyp_GristLoadsAndRegrist_host (h : Config.fuseKeyHash 0 = some (keyDigest partImage)) :
    (regristing.regsLive = true ∧ regristing.cask.state = 0) ∧ regristing.grist.busy = false ∧ regristing.loadBarred = false ∧
      regristing.grist.state = .running ∧ regristing.hostImage (some partImage) = some partImage ∧ imgPartial partImage = true ∧
      (goHost.beginLoad (some (imgTarget partImage % 32))).checkLoad true partImage (some partImage.length) = none := by
  refine ⟨by decide +kernel, by decide +kernel, by decide +kernel, by decide +kernel, by decide +kernel, by decide +kernel, ?_⟩
  have hp : (imgPartial partImage != true) = false := by decide +kernel
  have ht : imgTarget partImage = 0 := by decide +kernel
  have hl : partImage.length = 0x200 := by decide +kernel
  obtain ⟨h1, h2, h3, h4⟩ : (goHost.beginLoad (some (0 % 32))).againstPart 0 = ⟨[], some part0, true, 92000⟩ ∧
    (goHost.beginLoad (some (0 % 32))).grist.revoke = 0 ∧ (goHost.beginLoad (some (0 % 32))).grist.svnMin.toNat = 0 ∧
    (goHost.beginLoad (some (0 % 32))).grist.imageId = 9 := by decide +kernel
  simp only [State.checkLoad, ht, hl, if_true, h1, h2, h3, h4, part_checks h, hp, Bool.false_eq_true, if_false]

def runningStore : State := withStore .running { slotA := some fullImage }

theorem test_hyp_GristLoadsAndRegrist_update (h : Config.fuseKeyHash 0 = some (keyDigest fullImage)) :
    (runningStore.regsLive = true ∧ runningStore.cask.state = 0) ∧ runningStore.grist.busy = false ∧ runningStore.loadBarred = false ∧
      runningStore.grist.state = .running ∧ (runningStore.beginLoad none).checkLoad false fullImage none = none ∧
      runningStore.copies.reduceOption.any (·.failing) = false ∧ (runningStore.carrier 0).pgood = true :=
  ⟨by decide +kernel, by decide +kernel, by decide +kernel, by decide +kernel, full_load h _ none (.inl rfl) (by decide +kernel), by decide +kernel,
    by decide +kernel⟩

/-- GO from the store brings the image up: partition 0 of the parsed image, running (R69). -/
theorem test_parse : (parseImage fullImage).parts.map (fun p => (p.num, p.tiles, p.queues.map (·.id))) = [(0, [(0, 0)], [10])] ∧
    (parseImage fullImage).id = 9 ∧ (parseImage fullImage).clock.cap = 1450 ∧ (parseImage partImage).base = 9 := by decide +kernel

def drain (ms : Nat) : Machine.Load := ⟨parseImage partImage, partImage, false, 100, ms⟩
def draining : State := { regristing with grist := { regristing.grist with state := .draining, load := some (drain 1) } }

theorem test_hyp_RegristDrainsEnd : draining.grist.load = some (drain 1) ∧ draining.grist.state = .draining ∧ (drain 1).image.target = 0 ∧
    (draining.part? 0 = some part0 ∧ draining.partBusyWith part0 = false) ∧ (drain 1).image.target ∉ draining.rst.partBusy ∧ draining.flt.queue = [] ∧
    draining.flt.running = [] ∧ (drain 1).persist = false := by decide +kernel

def part2 : Machine.Part := { part0 with num := 2, prio := 3, tiles := [(2, 0x3FFF)] }
def capped (hold : Bool) : State :=
  { node with time := { node.time with up := 1000000 }, cap := { cap := 900, hold := hold },
              grist := { node.grist with parts := [part0, part2], clock := { tileDiv := 4, meshDiv := 2, flashDiv := 12 } } }
def uncapped : State := { capped false with grist := { node.grist with parts := [] } }

/-- 901 W slows partition 2, whose priority number is the highest, and with no partition to slow holds the engines; 899 W releases them (R42). -/
theorem test_hyp_PowerCappingSteps : (capped false).grist.state = .running ∧ (capped false).cap.stepAt + 250000 ≤ (capped false).time.up ∧
    (capped false).cap.cap < (901 : BitVec 16).toNat ∧ (capped false).nextSlow = some part2 ∧ uncapped.grist.state = .running ∧ uncapped.nextSlow = none ∧
    (899 : BitVec 16).toNat < (capped true).cap.cap ∧ (capped true).cap.hold = true := by decide +kernel

/-! ### Cores -/

/-- Context 0 with vector slot 3, and its registers. -/
def vecCtx : Ctx := { ctx0 with slot := some 3, x := [(10, 5), (11, 0x20)] }
def ref0 : CtxRef := ⟨0, 0⟩

/-- The common hypotheses of the statements about instructions: the core issues, and its context is quiet. -/
def ready (s : State) (core : Nat) (r : CtxRef) : Prop := Issues s core part0 r ∧ Quiet s r

theorem ready_of (c : Ctx) (h : c.wait = .ready ∧ c.pc = 0x400000 ∧ c.loads = [] ∧ c.outst = 0) : ready (withCtx c) 0 ref0 := by
  obtain ⟨h1, h2, h3, h4⟩ := h
  refine ⟨⟨rfl, rfl, .inl rfl, ?_, ?_⟩, ?_, ?_, rfl⟩
  · show (c.wait == .ready) = true
    rw [h1]; rfl
  · show fetchOk 0 c.pc = true
    rw [h2]; rfl
  · exact h3
  · exact h4

theorem test_hyp_SortKeysConvert : ready (withCtx vecCtx) 0 ref0 ∧ HasVector (withCtx vecCtx) ref0 ∧ (0 : Fin 32) ≠ 31 :=
  ⟨ready_of _ (by decide), ⟨rfl, rfl, .inl rfl⟩, by decide⟩

/-- R173: the keys of 0.5, −1.0, −0 and a NaN, and the scores back. -/
theorem test_keys : keyOf 0x3F000000 = 0xBF000000 ∧ keyOf 0xBF800000 = 0x407FFFFF ∧ keyOf 0x80000000 = 0x80000000 ∧ keyOf 0x7FC00000 = 0x007FFFFF ∧
    scoreOf 0xBF000000 = 0x3F000000 ∧ scoreOf 0x407FFFFF = 0xBF800000 := by decide +kernel

/-- V 1.0 by hand: 0x7F + 1 saturates, −128 / −1 overflows to itself, 5 / 2 rounds by vxrm, and the estimates of 1 / 1.0 and 1 / √4.0. -/
theorem test_vector_elements : viOp 33 8 0 0x7F 1 = some { v := 0x7F, sat := true } ∧ vmOp 33 8 0 0x80 0xFF 0 = some { v := 0x80 } ∧
    (viOp 42 8 0 5 1).map (·.v) = some 3 ∧ (viOp 42 8 1 5 1).map (·.v) = some 2 ∧ (viOp 42 8 2 5 1).map (·.v) = some 2 ∧
    (viOp 42 8 3 5 1).map (·.v) = some 3 ∧ (vfrec7 Fmt.fp32 .rne 0x3F800000).v = 0x3F7F0000 ∧ (vfrsqrt7 Fmt.fp32 0x40800000).v = 0x3EFF0000 := by
  decide +kernel

/-- A vector word with vl 2 on bytes, registers holding their own numbers counted on. -/
def vecEnv (w : Nat) : VEnv where
  w := w
  vtype := 0
  vl := 2
  vstart := 0
  vxrm := 0
  rm := some .rne
  x := 0
  f := 0
  read := fun o n => (List.range n).map fun i => BitVec.ofNat 8 (o / 512 + i)

/-- vadd.vv v24, v8, v16 adds two elements, and with v0 as mask on a destination of v0 it is illegal. -/
theorem test_vector_word :
    (match (vecEnv 0x02880C57).run.1 with | .group d a b els => (d.v, a, b, els.map fun x => x.map (·.v)) | _ => (0, 0, 0, [])) = (24, 0, 2, [some 24, some 26]) ∧
    (match (vecEnv 0x00880057).run.1 with | .bad => true | _ => false) = true := by decide +kernel

theorem test_hyp_SortCompareAndCross : ready (withCtx vecCtx) 0 ref0 ∧ HasVector (withCtx vecCtx) ref0 ∧ sortRegsOk [31] [28] = true ∧ (0 : Fin 8) < 7 ∧
    sortRegsOk [0, 1] [2, 30] = true ∧ sortRegsOk [1] [0] = false :=
  ⟨ready_of _ (by decide), ⟨rfl, rfl, .inl rfl⟩, by decide, by decide, by decide, by decide⟩

/-- R181: of two pairs, the lane with the higher key goes to the first for d = 0. -/
theorem test_cross : scoreBefore (9, 1) (8, 0) = true ∧ scoreBefore (9, 1) (9, 0) = false ∧ comesFirst true (1, 3) (2, 4) = true := by decide +kernel

def entry (n : Nat) : QEntry := { slot := n, tag := 5 }
def queue13 : QueueDef := ⟨13, 3, 2, 6, 0xFF, 90, 0x40000⟩
def takeCtx (poll : BitVec 64) : Ctx := { ctx0 with x := [(5, 13), (6, poll)] }
def putCtx : Ctx := { ctx0 with x := [(5, 13), (6, 0x1000)] }
def relCtx : Ctx := { ctx0 with taken := [⟨13, 2⟩], x := [(5, BitVec.ofNat 64 (queue13.slotAddr 2))] }
def waitTake : State := withQueue (withCtx { ctx0 with wait := .qtake 13 7 }) 13 { entries := [entry 1], takers := [ref0] }
def waitPut : State := withQueue (withCtx { ctx0 with wait := .qput 13 0x1000 7 }) 13 { entries := [entry 0, entry 1, entry 2], posters := [ref0] }

theorem test_hyp_QueueTakesAndPosts : ready (withQueue (withCtx (takeCtx 0)) 13 { entries := [entry 1] }) 0 ref0 ∧ ready (withCtx (takeCtx 1)) 0 ref0 ∧
    ready (withCtx putCtx) 0 ref0 ∧ ready (withCtx relCtx) 0 ref0 ∧
    part0.queueDef? ((withCtx (takeCtx 0)).ctx ref0 |>.rx 5).toNat = some queue13 ∧ ((withCtx (takeCtx 1)).ctx ref0 |>.rx 6).toNat = 1 ∧
    ((withQueue node 13 { entries := [entry 1] }).queue 0 13).oldest = some (entry 1) ∧ (node.queue 0 13).oldest = none ∧
    (part0.putSource 0 ((withCtx putCtx).ctx ref0 |>.rx 6).toNat queue13.bytes).isSome = true ∧ node.queueFull 0 queue13 = false ∧
    freeSlot [] queue13.size = some 0 ∧ ((withCtx relCtx).ctx ref0).taken.find? (fun e => (part0.queueDef? e.queue).any fun q =>
      q.slotAddr e.slot == ((withCtx relCtx).ctx ref0 |>.rx 5).toNat) = some ⟨13, 2⟩ ∧
    waitTake.part? 0 = some part0 ∧ (waitTake.queue 0 13).oldest = some (entry 1) ∧ (waitTake.queue 0 13).takers = [ref0] ∧
    (waitTake.core 0).st = .running ∧ (waitTake.ctx ref0).wait = .qtake 13 7 ∧ (waitPut.queue 0 13).posters = [ref0] ∧
    waitPut.queueFull 0 queue13 = false ∧ (waitPut.ctx ref0).wait = .qput 13 0x1000 7 ∧ freeSlot [0, 1, 2] queue13.size = some 3 :=
  ⟨ready_of _ (by decide), ready_of _ (by decide), ready_of _ (by decide), ready_of _ (by decide), by decide +kernel⟩

def twoReady : State := { node with cores := [(0, { core0 with ctxs := [(0, ctx0), (1, ctx0)] })] }
def watching (v : BitVec 64) (limit : BitVec 64) : State := withCtx { ctx0 with wait := .waitw 0x100 v 7, abwaitlim := limit }
def stamping : State := withCtx { ctx0 with wait := .stamp 0x200 }

theorem test_hyp_YieldsAndWordWaits : ready twoReady 0 ref0 ∧ (∃ q : Fin 16, q ≠ 0 ∧ (twoReady.ctx ⟨0, q⟩).isReady = true) ∧
    ready (withCtx { ctx0 with x := [(5, 0x100), (6, 1)] }) 0 ref0 ∧ part0.watchLoc 0 0x100 = some (.core 0 0x100) ∧
    node.locRead (.core 0 0x100) 8 = zeros 8 ∧ part0.stampLoc 0 0x200 = some (.core 0 0x200) ∧ node.corePart 0 = some part0 ∧ (node.core 0).st = .running ∧
    ((watching 1 0).ctx ref0).wait = .waitw 0x100 1 7 ∧ ((watching 0 5).ctx ref0).abwaitlim ≠ 0 ∧ (stamping.ctx ref0).wait = .stamp 0x200 ∧
    stamping.canStamp = true :=
  ⟨⟨⟨rfl, rfl, .inl rfl, rfl, rfl⟩, rfl, rfl, rfl⟩, ⟨1, by decide +kernel⟩, ready_of _ (by decide), by decide +kernel⟩

def slotWaiter : State := { node with cores := [(0, { core0 with ctxs := [(0, ctx0), (2, { ctx0 with wait := .vacq })], slotWait := [2] })] }

theorem test_hyp_SmallControlInstructions : ready (withCtx { ctx0 with x := [(5, 5)] }) 0 ref0 ∧
    (part0.tenants.any fun b => b.tenant == ((withCtx { ctx0 with x := [(5, 5)] }).ctx ref0 |>.rx 5).toNat) = true ∧
    (node.ctx ref0).slot = none ∧ node.freeVSlot 0 = some 0 ∧ (node.core 0).slotWait = [] ∧ ready (withCtx vecCtx) 0 ref0 ∧
    ((withCtx vecCtx).ctx ref0).slot.isSome = true ∧ ((withCtx vecCtx).core 0).vbusy ≠ some 0 ∧ ready (withCtx { ctx0 with hook := true }) 0 ref0 ∧
    ((withCtx { ctx0 with hook := true }).ctx ref0).held = none ∧ slotWaiter.freeVSlot 0 = some 0 ∧ (slotWaiter.core 0).slotWait = [2] :=
  ⟨ready_of _ (by decide), by decide +kernel, rfl, by decide +kernel, rfl, ready_of _ (by decide), rfl, by decide +kernel, ready_of _ (by decide), rfl,
    by decide +kernel, rfl⟩

/-- LD, SD, AMOADD.D, LR.D, SC.D and FENCE with rd = x7 (or none), rs1 = x5, rs2 = x6; the last aligned word of the core's SRAM. -/
def memCtx : Ctx := { ctx0 with x := [(5, 0x3FFF8), (6, 9)] }
def reserved : Ctx := { memCtx with resv := some (2 ^ 40 + 0x3FFF8 / 64) }

theorem test_hyp_CoreLoadsStoresAndAtomics : ready (withCtx memCtx) 0 ref0 ∧ ready (withCtx reserved) 0 ref0 ∧
    (let w := 0x0002B383; w % 4 = 3 ∧ w % 128 = 0x03 ∧ fF3 w = 3 ∧ fRs1 w = 5 ∧ fRd w = 7 ∧ immI w = 0) ∧
    (let w := 0x0062B023; w % 4 = 3 ∧ w % 128 = 0x23 ∧ fF3 w = 3 ∧ fRs1 w = 5 ∧ fRs2 w = 6 ∧ immS w = 0) ∧
    (let w := 0x0062B3AF; w % 128 = 0x2F ∧ fF3 w = 3 ∧ fF7 w / 4 = 0 ∧ fRs1 w = 5) ∧
    (let w := 0x1002B3AF; w % 128 = 0x2F ∧ fF3 w = 3 ∧ fF7 w / 4 = 2 ∧ fRs2 w = 0 ∧ fRs1 w = 5) ∧
    (let w := 0x1862B3AF; w % 128 = 0x2F ∧ fF3 w = 3 ∧ fF7 w / 4 = 3 ∧ fRs1 w = 5) ∧
    (((withCtx reserved).ctx ref0).rx 5).toNat = 0x3FFF8 ∧ 0x3FFF8 % 8 = 0 ∧ ((withCtx reserved).ctx ref0).resv = some (2 ^ 40 + (0 + 0x3FFF8) / 64) ∧
    ((withCtx memCtx).ctx ref0).resv ≠ some (2 ^ 40 + (0 + 0x3FFF8) / 64) ∧ (0x0F % 128 = 0x0F ∧ fF3 0x0F = 0) :=
  ⟨ready_of _ (by decide), ready_of _ (by decide), by decide +kernel, by decide +kernel, by decide +kernel, by decide +kernel, by decide +kernel,
    by decide +kernel, by decide, by decide +kernel, by decide +kernel, by decide +kernel⟩

def arriving : State := withCtx { ctx0 with wait := .memory, loads := [.int 7 9] }
def dividing : State := withCtx { ctx0 with wait := .unit_ }
def vectoring : State := { node with cores := [(0, { core0 with ctxs := [(0, { vecCtx with wait := .vunit })], vbusy := some 0 })] }

theorem test_hyp_IntegerInstructionsOfTheProfile : ready node 0 ref0 ∧ 0x000013B7 % 128 = 0x37 ∧ (0xFFF28393 % 128 = 0x13 ∧ fF3 0xFFF28393 = 0) ∧
    0x0080036F % 128 = 0x6F ∧ (0x00628463 % 128 = 0x63 ∧ fF3 0x00628463 = 0) ∧ (arriving.core 0).st = .running ∧
    (arriving.ctx ref0).loads = .int 7 9 :: [] ∧ (arriving.ctx ref0).wait = .memory ∧ (dividing.ctx ref0).wait = .unit_ ∧ vectoring.corePart 0 = some part0 ∧
    (∀ e ∈ (vectoring.core 0).ctxs, e.1 < 16 ∧ e.2.wait ≠ .vrel ∧ (e.2.wait = .vunit → e.1 = 0)) ∧ (vectoring.ctx ref0).wait = .vunit :=
  ⟨ready_of ctx0 (by decide), by decide, by decide +kernel, by decide, by decide +kernel, rfl, rfl, rfl, rfl, rfl, by decide +kernel, rfl⟩

/-- ADDI x7, x5, −1 with x5 = 0 (RISC-V): x7 is all ones, and the pc goes on by 4. -/
theorem test_addi : ((after (exec (.rvInstruction 0 0xFFF28393) node)).ctx ref0).rx 7 = 0xFFFFFFFFFFFFFFFF ∧
    ((after (exec (.rvInstruction 0 0xFFF28393) node)).ctx ref0).pc = 0x400004 := by decide +kernel

/-- SD of 9 to the last word of the SRAM, then the byte read back. -/
theorem test_sd : ((after (exec (.store 0 0x0062B023) (withCtx memCtx))).coreSram.byte 0x3FFF8) = 9 := by decide +kernel

theorem test_hyp_ContextExceptionsRestart : ready node 0 ref0 ∧ part0.ctxProg ref0 = some prog ∧ (node.ctx ref0).held = none ∧ (node.ctx ref0).taken = [] ∧
    (node.ctx ref0).slot = none ∧ (node.ctx ref0).faultAt = [] ∧ (node.core 0).st = .running :=
  ⟨ready_of ctx0 (by decide), by decide +kernel, rfl, rfl, rfl, rfl, rfl⟩

/-- R268–R270: ECALL restarts the context at its entry point, with one fault counted. -/
theorem test_ecall : ((after (exec (.ecall 0) (withCtx { ctx0 with pc := 0x400010 }))).ctx ref0).pc = 0x400000 ∧
    ((after (exec (.ecall 0) (withCtx { ctx0 with pc := 0x400010 }))).ctx ref0).faults = 1 := by decide +kernel

def fenced : State := node.modTile 0 fun t => { t with core := 1 }
def coreDraining : State := { fenced with cores := [(0, { core0 with st := .draining, ctxs := [(0, { ctx0 with wait := .parked })] })] }

theorem test_hyp_CoreFencesDrainAndForce : (node.regsLive = true ∧ node.cask.state = 0) ∧ node.coreHeld 0 = false ∧ (node.core 0).st = .running ∧
    (node.tile 0).limitUs ≠ 0 ∧ (fenced.regsLive = true ∧ fenced.cask.state = 0) ∧ (fenced.tile 0).core.getLsbD 0 = true ∧
    (coreDraining.core 0).st = .draining ∧ coreDraining.drained 0 = true := by decide +kernel

/-! ### Gather and matrix engines -/

/-- A table of 16 dimensions and 4,096 rows at 0x100090000, with a decay period of 50, a heat queue and one entry of its root (R202 to R205). -/
def tableBytes (heatQ root : Nat) : Bytes :=
  let a := toLE 4 0x4C424154 ++ toLE 2 7 ++ toLE 2 16 ++ [0, 0] ++ toLE 2 1 ++ toLE 2 heatQ ++ [0, 0] ++ toLE 8 4096 ++ zeros 168
  let c := toLE 8 root ++ zeros 248
  a ++ (zeros 24 ++ toLE 2 50 ++ zeros 34) ++ toLE 4 (crc32c (a ++ c)) ++ c

def gatherDesc : Bytes :=
  let b := [1, 0] ++ toLE 2 7 ++ toLE 4 1 ++ toLE 8 1000 ++ zeros 4 ++ toLE 2 13 ++ toLE 2 9 ++ toLE 8 (2 ^ 63 + 0x120000) ++ toLE 8 (2 ^ 63 + 0x120100) ++
    zeros 8 ++ toLE 8 (2 ^ 63 + 0x130000) ++ toLE 4 0x140000
  b ++ toLE 4 (crc32c b)

/-- The node with the table, a command of two indices in queue 16, and its bag and index arrays in tile SRAM. -/
def tabled : State := ((node.pmSet part0 (tableEntryAt 7) 8 0x100090001).pmWrite part0 0x100090000 (tableBytes 0xFFFF 0))
def gathering : State :=
  (((withQueue tabled 16 { entries := [{ slot := 0, tag := 5 }] }).locWrite (.tile 0 0x100000) gatherDesc).locWrite (.tile 0 0x120000)
    (toLE 4 0 ++ toLE 4 2)).locWrite (.tile 0 0x120100) (toLE 8 3 ++ toLE 8 5)

/-- Every premise of the first clause at tile 0, with the values that the parts of the command give. -/
def gatherTakes (s : State) : Bool :=
  (s.gth 0).cmd == none && !(s.gth 0).pause && s.gatherOn 0 &&
  match lowestQueue (s.engineQueues 6 0 fun t => (s.enables t).getLsbD 13) with
  | none => false
  | some (p, q) => match s.unitTake p q with
    | none => false
    | some (_, d, s') => s'.gatherOk p 0 (d.take 64) && s'.rack ≤ (stampAt (d.take 64) 8).time.toNat + 50000000 &&
      match s'.tableHead p (fieldAt (d.take 64) 2 2) with
      | none => false
      | some off => match s'.tableVersion p (fieldAt (d.take 64) 2 2) (stampAt (d.take 64) 8) chainFuel off with
        | .found t => t.dims != 0 && p.gOk 0 (fieldAt (d.take 64) 0x30 8) (fieldAt (d.take 64) 4 4 * t.dims * gOutBytes (d.take 64)) &&
            fieldAt (d.take 64) 0x38 4 + 256 * t.dims ≤ 0x400000
        | _ => false

def gthCmd0 : GthCmd := { part := 0, desc := gatherDesc, tag := 5, ver := 0x100090000 }
def withGth (c : GthCmd) : State := tabled.modGth 0 fun g => { g with cmd := some c }
def retiring : State := withGth { gthCmd0 with windowOpen := true, todo := [3, 5] }
def gthEnded : State := withGth { gthCmd0 with status := some 0 }

theorem test_hyp_GatherEngineServesItsQueue : gatherTakes gathering = true ∧ (retiring.gth 0).cmd = some { gthCmd0 with windowOpen := true, todo := [3, 5] } ∧
    retiring.part? 0 = some part0 ∧ (gthEnded.gth 0).cmd = some { gthCmd0 with status := some 0 } ∧
    part0.queueDef? (fieldAt gatherDesc 0x14 2) = some ⟨13, 3, 2, 6, 0xFF, 90, 0x40000⟩ ∧ gthEnded.queueFull 0 ⟨13, 3, 2, 6, 0xFF, 90, 0x40000⟩ = false ∧
    freeSlot ((gthEnded.queue 0 13).entries.map (·.slot)) 4 = some 0 ∧ gthEnded.cask.state = 0 ∧ (node.regsLive = true ∧ node.cask.state = 0) ∧
    (node.gth 0).pause = false ∧ ((node.modGth 0 fun g => { g with pause := true }).gth 0).pause = true := by decide +kernel

/-- Row 3 is absent: it pools as zeros, and row 5 is next (R230). -/
theorem test_retire : (((after (exec (.gatherReadRetire 0) retiring)).gth 0).cmd.map fun c => (c.todo, c.status)) = some ([5], none) := by decide +kernel

/-- INT8 with INT8, one token, two outputs, 70 elements, in partition memory: two chunks. -/
def matrixDesc (op : Nat) : Bytes :=
  let b := toLE 1 op ++ zeros 5 ++ [0, 0] ++ toLE 4 1 ++ toLE 4 1 ++ toLE 4 70 ++ toLE 4 80 ++ toLE 4 80 ++ toLE 4 16 ++ toLE 8 0x200000 ++ toLE 8 0x201000 ++
    toLE 8 0x202000 ++ zeros 8 ++ toLE 8 (if op == 2 then 0x203000 else 0) ++ zeros 24 ++ toLE 4 (if op == 2 then 16 else 0) ++ toLE 2 13 ++ zeros 22
  b ++ toLE 4 (crc32c b)

def matrixing (op : Nat) : State := (withQueue node 17 { entries := [{ slot := 0, tag := 5 }] }).locWrite (.tile 0 0x110000) (matrixDesc op)

def matrixTakes (s : State) (op2 : Bool) : Bool :=
  (s.mtx 0).cmd == none && !(s.mtx 0).pause && s.arrayEnabled 0 0 &&
  match lowestQueue (s.engineQueues 7 0 fun t => (List.range 4).any (s.arrayEnabled t)) with
  | none => false
  | some (p, q) => match (s.queue p.num q.id).oldest, s.unitTake p q with
    | some e, some (_, b, _) => matrixOk p 0 (b.take 128) && (fieldAt (s.slotRead p q e.slot) 0 1 == 2) == op2
    | _, _ => false

def mtxCmd0 : MtxCmd := { part := 0, desc := matrixDesc 1, tag := 5, serving := [0], running := true }
def withMtx (c : MtxCmd) : State := (((node.pmWrite part0 0x200000 (List.replicate 70 2)).pmWrite part0 0x201000 (List.replicate 70 3)).pmWrite part0 0x201050
  (List.replicate 70 0xFF)).modMtx 0 fun m => { m with cmd := some c }
def phasing : State := withMtx mtxCmd0
def mtxEnded : State := withMtx { mtxCmd0 with running := false, status := some 0 }

theorem test_hyp_MatrixEngineServesItsQueue : matrixTakes (matrixing 1) false = true ∧ matrixTakes (matrixing 2) true = true ∧
    (phasing.mtx 0).cmd = some mtxCmd0 ∧ phasing.part? 0 = some part0 ∧ phasing.phaseBad part0 0 (parseM mtxCmd0.desc) mtxCmd0 (List.range 64) = false ∧
    ((List.range 64).filterMap fun i => if 64 * mtxCmd0.chunk + i < 70 then some (64 * mtxCmd0.chunk + i) else none) = List.range 64 ∧
    mtxCmd0.chunk + 1 < (parseM mtxCmd0.desc).chunks ∧ (mtxEnded.mtx 0).cmd = some { mtxCmd0 with running := false, status := some 0 } ∧
    part0.queueDef? (parseM mtxCmd0.desc).queue = some ⟨13, 3, 2, 6, 0xFF, 90, 0x40000⟩ ∧ mtxEnded.queueFull 0 ⟨13, 3, 2, 6, 0xFF, 90, 0x40000⟩ = false ∧
    freeSlot ((mtxEnded.queue 0 13).entries.map (·.slot)) 4 = some 0 ∧ (node.regsLive = true ∧ node.cask.state = 0) ∧ (node.mtx 0).pause = false := by decide +kernel

/-- R291, R282: 64 products of 2 × 3 as INT32 after the first chunk. -/
theorem test_phase : (((after (exec (.matrixPhaseEnd 0) phasing)).mtx 0).cmd.map fun c => (c.chunk, SMap.get c.acc 0 0)) =
    some (1, 384) := by decide +kernel

def arrayFencedNode : State := node.modTile 0 fun t => { t with array := 1 }
def arrayDrainingNode : State := arrayFencedNode.modMtx 0 fun m => { m with draining := 1 }

theorem test_hyp_ArrayAndGatherFences : (node.regsLive = true ∧ node.cask.state = 0) ∧ (node.tile 0).array.getLsbD 0 = false ∧
    (arrayFencedNode.regsLive = true ∧ arrayFencedNode.cask.state = 0) ∧ (arrayFencedNode.tile 0).array.getLsbD 0 = true ∧
    arrayFencedNode.underTest 2 0 = false ∧ arrayDrainingNode.arrayDraining 0 0 = true ∧ (retiring.regsLive = true ∧ retiring.cask.state = 0) ∧
    (retiring.tile 0).gather = false ∧ (retiring.tile 0).gdata = false ∧ ((retiring.gth 0).cmd.map (·.status)) = some none ∧
    ((node.modTile 0 fun t => { t with gather := true }).tile 0).gather = true := by decide +kernel

/-- The table with one row map page, whose row 3 has heat 9, and a heat entry for that row in queue 13. -/
def heated : State :=
  ((((withQueue tabled 13 { entries := [{ slot := 0 }] }).pmWrite part0 0x100090000 (tableBytes 13 0x100092001)).pmSet part0 (0x100092000 + 16 * 3 + 6) 1 9).pmWrite
    part0 0x40000 (heatEntry 7 [3]))

theorem test_hyp_HeatAndPlacement : node.part? 0 = some part0 ∧ node.works 0 = true ∧ part0.queueDef? 13 = some ⟨13, 3, 2, 6, 0xFF, 90, 0x40000⟩ ∧
    (heated.curTable part0 7).map (fun t => (t.decay, t.dims)) = some (50, 16) := by decide +kernel

/-- R219: the sample raises the row's heat to 10. -/
theorem test_heat : (after (exec (.heatApply 0 13) heated)).pmNum part0 0x100092036 1 = 10 := by decide +kernel

/-! ### Racking -/

/-- Index 0 of partition 0: INT8, Euclidean, 2 dimensions, records of 4,096 bytes in extent 0, 1 neighbour, places for 8 body and 4 delta slots, 8 leaves and
8 nodes (R85); with the delta trigger, hole limit, split and merge thresholds given. -/
def rackDesc (deltaTrig holes splitAt mergeAt : Nat) : Bytes :=
  let b := toLE 4 0x58444E49 ++ [0, 1] ++ toLE 2 2 ++ [0, 0, 7, 1] ++ toLE 2 4096 ++ zeros 4 ++ toLE 2 8 ++ toLE 2 4 ++ toLE 2 8 ++
    toLE 4 8 ++ toLE 4 8 ++ toLE 8 0x10000 ++ toLE 8 0x20000 ++ toLE 8 0x30000 ++ zeros 72
  b ++ ([2] ++ toLE 1 deltaTrig ++ [100] ++ toLE 1 holes ++ toLE 2 splitAt ++ toLE 2 mergeAt ++ zeros 116) ++ toLE 4 (crc32c b)

/-- A header of leaf `id` at 0x100000 × (id + 1): `n` body entries on flash page `id`, `m` neighbours (the other leaf), and a centroid of zeros. -/
def rackLeafBytes (id n m : Nat) : Bytes :=
  let a := 0x100000 * (id + 1)
  let h := toLE 4 id ++ toLE 1 0 ++ toLE 1 m ++ toLE 2 n ++ zeros 16 ++ toLE 8 8 ++ toLE 8 8 ++ toLE 8 (a + 0x10000) ++ toLE 8 (a + 0x20000) ++
    toLE 8 (a + 0x30000) ++ toLE 8 (a + 0x40000) ++ toLE 8 (a + 0x50000) ++ toLE 8 (a + 0x60000) ++ toLE 2 1 ++ toLE 2 4 ++ zeros 4 ++
    toLE 4 (1 - id) ++ zeros 28 ++ zeros 64
  h ++ (zeros 22 ++ toLE 2 n ++ zeros 36) ++ toLE 4 (crc32c (h ++ zeros 4))

/-- The root, a level-1 node of leaf 0, and of leaf 1 where there are two. -/
def rackRoot (two : Bool) : Bytes :=
  let es := toLE 4 0 ++ toLE 4 2 ++ zeros 56 ++ (if two then toLE 4 1 ++ toLE 4 1 ++ zeros 56 else [])
  let h := toLE 4 0 ++ [1, 0] ++ toLE 2 (if two then 2 else 1) ++ toLE 4 0xFFFFFFFF ++ zeros 12
  h ++ zeros 36 ++ toLE 4 (crc32c (h ++ es)) ++ es

/-- A record: its vector id, and two INT8 elements. -/
def rackRec (vid x y : Nat) : Bytes := toLE 6 vid ++ zeros 10 ++ toLE 1 x ++ toLE 1 y

/-- The bytes of a memory that runs of bytes at rising addresses make. -/
def memoryOf (l : List (Nat × Bytes)) : Memory :=
  l.flatMap fun (e : Nat × Bytes) => (List.zipIdx e.2).filterMap fun (x : BitVec 8 × Nat) => if x.1 == 0 then none else some (e.1 + x.2, x.1)

def leafRuns (id n m : Nat) : List (Nat × Bytes) :=
  let a := 0x100000 * (id + 1)
  [(a, rackLeafBytes id n m), (a + 0x40000, toLE 5 id), (a + 0x50000, toLE 1 (2 ^ n - 1))]

/-- The index: leaf 0 holds vectors 5 (1, 2) and 6 (9, 9), and leaf 1, where there is one, vector 8 (4, 4); the other leaf ids are free. -/
def racking (two : Bool) (deltaTrig holes splitAt mergeAt : Nat) : State :=
  let m := b2n two
  let runs := [(0x10000, toLE 8 (0x100001 + m * 2 ^ 48) ++ (if two then toLE 8 (0x200001 + 2 ^ 48) else [])), (0x20000, toLE 8 0x40001), (0x30000, [2]),
    (0x40000, rackRoot two)] ++ leafRuns 0 2 m ++ (if two then leafRuns 1 1 m else []) ++ [(descAt 0, rackDesc deltaTrig holes splitAt mergeAt)]
  { node with fls := { node.fls with state := .ready }, dram := memoryOf runs, srch := { node.srch with used := [0, 1] },
              media := { node.media with data := memoryOf [(0, rackRec 5 1 2), (4096, rackRec 6 9 9), (16384, rackRec 8 4 4)] } }

def rackPlace (n : Nat) : List Nat :=
  let a := 0x600000 + 0x1000 * n
  [a, 16 * (0x2000 + 64 * n) + 8, 16 * (0x3000 + 64 * n) + 8, a + 0x200, a + 0x300, a + 0x310, a + 0x340, a + 0x360, a + 0x380]

/-- The premises of the clause that a decision belongs to, with the triggers that hold, and what the publication finds. -/
def rackChecks (s : State) (want : Nat × Nat) (ts : List Nat) (go : RackCtx → LeafPlace → LeafPlace → Option State) (some_ : Bool) : Bool :=
  match s.rackCtx 0 0 0, leafPlace (rackPlace 0), leafPlace (rackPlace 1) with
  | some (p, c), some a, some b =>
    a.ok p c.x && b.ok p c.x && p.placeOk 0x700000 16 16 && p.placeOk 0x700040 64 64 && p.placeOk 0x700080 64 64 && s.decision p 0 c == some want &&
      s.triggers p c.x 0 c.l == ts && (go c a b).isSome == some_
  | _, _, _ => false

def rack3 : State := racking false 0 100 100 0
def rackFull : State := racking false 0 0 100 0
def rackSplit : State := racking false 100 100 1 0
def rackMerge : State := racking true 100 100 10 4

theorem test_hyp_RackingFollowsTheHighestTrigger_rack :
    rackChecks rack3 (1, 3) [3] (fun c a _ => rack3.rackLeaf part0 0 c a 0x700000 0x701001 []) true = true := by decide +kernel

theorem test_hyp_RackingFollowsTheHighestTrigger_unread :
    rackChecks rackFull (1, 3) [3] (fun c a _ => rackFull.rackLeaf part0 0 c a 0x700000 0x701001 [0]) false = true := by decide +kernel

/-- The decision of a split needs that splitFails is false, and that of a merge that mergeWith names a leaf. -/
theorem test_hyp_RackingFollowsTheHighestTrigger_split :
    rackChecks rackSplit (2, 2) [2] (fun c a b => rackSplit.split part0 0 c a b 0x700000 [0x701001] 0x700040 []) true = true := by decide +kernel

theorem test_hyp_RackingFollowsTheHighestTrigger_merge :
    rackChecks rackMerge (3, 5) [5] (fun c a _ => rackMerge.merge part0 0 c a 0x700000 [0x701001] 0x700040 0x700080 []) true = true := by decide +kernel

/-! ### Sweeps, refinement, stacks and scans -/

def changedIndex : State := let s := racking false 0 100 100 0; { s with srch := { s.srch with changed := [(0, 0, 0), (0, 0, 0xFFFFFFFF)] } }
def oldNode : OldVersion := { part := 0, index := 0, kind := 1, id := 0, header := 0x50001, until_ := ⟨5, 0, 0⟩, pages := [] }
def hugeTrail (n : Nat) : State :=
  let s := racking false 0 100 100 0
  { s with dur := { s.dur with journal := [{ typ := 2, part := 0, objKind := 1, flags := 0, obj := 0, seq := 0, stamp := ⟨0, 0, 0⟩, body := zeros n, at_ := 0, inTrail := true }] } }

theorem huge_trail (n : Nat) : (hugeTrail n).trailBytes = 0x34 + n := by
  simp [hugeTrail, racking, State.trailBytes, State.rack, JRec.len, zeros, node]

theorem test_hyp_SweepsReclaimAndImage : node.part? 0 = some part0 ∧ node.works 0 = true ∧ node.reclaimable part0 ⟨6, 0, 0⟩ oldNode = true ∧
    oldNode.kind ≠ 2 ∧ oldNode.kind ≠ 0 ∧ changedIndex.part? 0 = some part0 ∧ (changedIndex.desc? part0 0).isSome = true ∧
    changedIndex.canPublish = true ∧ changedIndex.sweepDue 0 0 0xFFFFFFFF = true ∧ changedIndex.sweepDue 0 0 0 = true ∧
    changedIndex.leafLocked 0 0 0 = false ∧ changedIndex.leafLocked 0 0 0xFFFFFFFF = false ∧
    ((changedIndex.desc? part0 0).bind fun x => changedIndex.curLeaf part0 x 0).isSome = true ∧ changedIndex.storageUp = true ∧
    lateSeals changedIndex.dur.journal = [] ∧ changedIndex.trailBytes ≤ 64 * 10 ^ 9 ∧ node.storageUp = false := by decide +kernel

theorem test_hyp_SweepsReclaimAndImage_full : 64 * 10 ^ 9 < (hugeTrail (64 * 10 ^ 9)).trailBytes ∧ (hugeTrail (64 * 10 ^ 9)).storageUp = true ∧
    lateSeals (hugeTrail (64 * 10 ^ 9)).dur.journal = [] := by
  refine ⟨?_, rfl, by simp [hugeTrail, lateSeals]⟩
  rw [huge_trail]
  decide

/-- The refinement record of index 0 (R320), training queue 13, with a window in ms and a state. -/
def refineBytes (window st : Nat) : Bytes :=
  let a := toLE 4 0x4E494652 ++ toLE 2 0 ++ toLE 2 13 ++ zeros 180
  a ++ toLE 4 (crc32c a) ++ ([0, 0] ++ toLE 2 256 ++ toLE 2 window ++ [1, 1, 2, 8] ++ toLE 2 1 ++ toLE 2 0 ++ [1, 1] ++ zeros 4 ++ zeros 2 ++ toLE 2 16 ++
    toLE 2 16 ++ zeros 38) ++ toLE 1 st ++ zeros 255

def sampleBytes (vid : Nat) : Bytes := [1, 0] ++ zeros 6 ++ toLE 6 vid ++ zeros 2 ++ toLE 8 7 ++ zeros 40
/-- Index 0 of two dimensions with its refinement record, and a sample in queue 13. -/
def refining (window st : Nat) : State :=
  let s := racking false 0 100 100 0
  let q : QState := { entries := [{ slot := 0 }] }
  let s := withQueue { s with dram := memoryOf [(0x40000, sampleBytes 1)] ++ (s.dram.filter fun e => 0x50000 ≤ e.1) } 13 q
  { s with dram := s.dram ++ memoryOf [(refineAt 0, refineBytes window st)] }

theorem test_hyp_RefinementCommandsSamplesAndRounds : (node.regsLive = true ∧ node.cask.state = 0) ∧ ((refining 10 1).refSel.map (·.2)) = some 0 ∧ node.refSel = none ∧
    (refining 10 1).part? 0 = some part0 ∧ (refining 10 1).works 0 = true ∧ ((refining 10 1).queue 0 13).oldest = some { slot := 0 } ∧
    (refining 10 1).slotRead part0 ⟨13, 3, 2, 6, 0xFF, 90, 0x40000⟩ 0 = sampleBytes 1 ∧ fieldAt (sampleBytes 1) 0 1 = 1 ∧ fieldAt (sampleBytes 1) 1 1 < 16 ∧
    (refining 10 1).refineOk part0 0 = true ∧ ((refining 10 1).rfn part0 0).queue = 13 ∧ (refining 10 1).replaying 0 = false ∧
    ((refining 10 1).rfn part0 0).state = 1 ∧ ((refining 10 1).rfn part0 0).windowOf (stampAt (sampleBytes 1) 0x10) = some 0 ∧
    bitsOf ({ part := 0, index := 0, ack := stampAt (sampleBytes 1) 0x10, data := sampleBytes 1 } : RefSample).hash 3 0 ≠ 0 ∧
    bitsOf ({ part := 0, index := 0, ack := stampAt (sampleBytes 12) 0x10, data := sampleBytes 12 } : RefSample).hash 3 0 = 0 ∧
    part0.memBytes ≥ 0x100003000 ∧ (refining 10 1).pmNum part0 (refineAt 0 + 0x100) 1 ≠ 3 ∧ ((refining 10 1).rfn part0 0).controlOk = true ∧
    ((refining 0 1).rfn part0 0).controlOk = false ∧ (refining 0 1).refineOk part0 0 = true ∧ node.refineOk part0 0 = false ∧
    ((refining 10 1).desc? part0 0).isSome = true := by decide +kernel

def bankIs (b : Bank) : State := node.modMem 8 fun m => { m with banks := [(3, b)], trainPend := 3 }

theorem test_hyp_StackEventsAndRefreshes : (node.bank 8 3).refresh = false ∧ ((bankIs { refresh := true }).bank 8 3).refresh = true ∧
    ((bankIs { refresh := true }).bank 8 3).state ≠ 1 ∧ (∀ e ∈ ((bankIs { refresh := true }).memCtl 8).banks, e.1 / 32 = 0 → e.2.state ≠ 1) ∧
    ((bankIs {}).memCtl 8).trainPend.getLsbD 0 = true ∧ (∃ e ∈ ((bankIs { state := 1 }).memCtl 8).banks, e.1 / 32 = 0 ∧ e.2.state = 1) ∧
    (node.regsLive = true ∧ node.cask.state = 0) ∧ (node.memCtl 8).state ≠ 2 ∧
    ((node.modMem 8 fun m => { m with reissued := true }).memCtl 8).reissued = true := by
  refine ⟨by decide +kernel, by decide +kernel, by decide +kernel, by decide +kernel, by decide +kernel, ⟨(3, { state := 1 }), ?_⟩, by decide +kernel⟩
  decide +kernel

def pausedMash : State := node.modMem 8 fun m => { m with pause := true }

theorem test_hyp_BankOperationsAndPauses : (node.regsLive = true ∧ node.cask.state = 0) ∧ (node.memCtl 8).pause = false ∧ (pausedMash.memCtl 8).pause = true ∧
    (pausedMash.regsLive = true ∧ pausedMash.cask.state = 0) := by decide +kernel

def scanRun (l : List (Nat × Nat)) : Option (List (Nat × Nat) × Nat × Nat × Nat × Nat) :=
  let r := l.foldl (fun (a : List (Nat × Nat) × Nat × Nat) x => let o := offer 2 x a.1; (o.1, a.2.1 + (if o.2.isSome then 1 else 0), a.2.2 + o.2.getD 0)) ([], 0, 0)
  some (r.1, 0, 0, r.2.1, r.2.2)

theorem test_hyp_ChunksScoreTheirCodes : (node.bank 8 3).state ≠ 1 ∧ ((bankIs { state := 1, count := 3 }).bank 8 3).state = 1 ∧
    ((bankIs { state := 1, count := 3 }).bank 8 3).held = [] ∧ ((bankIs { state := 1, count := 3 }).bank 8 3).refresh = false ∧
    ((bankIs { state := 1, count := 3 }).bank 8 3).cmd = none ∧ ((bankIs { state := 1, count := 3 }).memCtl 8).bad = [] ∧
    bitOf (nth ({ deadMap := [2] } : Bank).deadMap 0 0).toNat 1 = true ∧ bitOf (nth ({ deadMap := [2] } : Bank).deadMap 0 0).toNat 0 = false := by decide +kernel

/-- R359, R369: of 7, 3, 5 and 5 with room for two, the higher sums stay, of equal ones the lower slot; the merge of two scans is one scan. -/
theorem test_offers : scanRun [(0, 7), (1, 3), (2, 5), (3, 5)] = some ([(0, 7), (2, 5)], 0, 0, 2, 8) ∧
    mergeRanges 2 [{ stack := 8, off := 0, count := 2, first := 0, result := scanRun [(0, 7), (1, 3)] },
      { stack := 8, off := 0, count := 2, first := 2, result := scanRun [(2, 5), (3, 5)] }] = ([(0, 7), (2, 5)], 0, 0, 2, 8) := by decide +kernel

def scanDesc (op crcAdd : Nat) : Bytes :=
  let b := toLE 1 op ++ [0] ++ toLE 2 4 ++ [1, 0, 0, 0] ++ toLE 8 8 ++ toLE 2 3 ++ zeros 14 ++ toLE 8 0x200000 ++ zeros 8 ++ toLE 8 0x201000 ++ toLE 4 9
  b ++ toLE 4 (crc32c b + crcAdd)
def scanQueue : QueueDef := ⟨14, 4, 2, 6, 0xFF, 90, 0x50000⟩
def scanning : State := (withQueue node 14 { entries := [{ slot := 0, tag := 5 }] }).pmWrite part0 0x50000 (scanDesc 1 0)
def scanDone : ScanCmd :=
  { id := 1, part := 0, queue := 14, desc := scanDesc 1 0, tag := 5, layout := 0, c := 4, ranges := [{ stack := 8, off := 0, count := 3, first := 0, result := scanRun [(0, 7)] }] }
def scanHeld : State := node.modMem 8 fun m => { m with cmds := [scanDone] }

theorem test_hyp_ScansAreTakenRunAndAnswered : (scanning.workQueues 4).head?.map (·.2) = some scanQueue ∧ (scanning.queue 0 14).oldest = some { slot := 0, tag := 5 } ∧
    scanning.headStack part0 scanQueue = some 8 ∧ ((scanning.memCtl 8).cmds.filter (·.finished.isNone)).length < scanCmdMax ∧ node.workQueues 4 = [] ∧
    crc32c ((scanDesc 1 1).take 0x3C) ≠ fieldAt (scanDesc 1 1) 0x3C 4 ∧ crc32c ((scanDesc 2 0).take 0x3C) = fieldAt (scanDesc 2 0) 0x3C 4 ∧
    scanOk part0 (scanDesc 2 0) = false ∧ part0.regionOk (fieldAt (scanDesc 2 0) 0x30 8) 32 = true ∧ fieldAt (scanDesc 2 0) 0x30 8 % 64 = 0 ∧
    crc32c ((scanDesc 1 0).take 0x3C) = fieldAt (scanDesc 1 0) 0x3C 4 ∧ scanOk part0 (scanDesc 1 0) = true ∧ (node.memCtl 8).state ≠ 2 ∧
    (scanHeld.memCtl 8).cmds.find? (·.id == 1) = some scanDone ∧ scanHeld.part? 0 = some part0 ∧ scanDone.finished = none ∧ scanDone.std = none ∧
    scanDone.ranges.all (·.result.isSome) = true ∧ scanHeld.cask.state = 0 := by decide +kernel

/-! ### Lauter commands and pages -/

def lauterQueue : QueueDef := ⟨15, 5, 2, 6, 0xFF, 90, 0x60000⟩
/-- One entry, page 0, with its extent, record size and source or vector address. -/
def lauterDesc (op crcAdd : Nat) : Bytes :=
  let b := toLE 1 op ++ zeros 3 ++ toLE 2 1 ++ zeros 2 ++ zeros 12 ++ toLE 2 0 ++ toLE 2 (if op == 2 then 4096 else 0) ++ toLE 8 0x200000 ++
    toLE 8 (if op == 1 || op == 3 then 0x200100 else 0) ++ zeros 8 ++ toLE 8 0x201000 ++ toLE 4 9
  b ++ toLE 4 (crc32c b + crcAdd)
def lautering (op : Nat) : State := (withQueue node 15 { entries := [{ slot := 0, tag := 5 }] }).pmWrite part0 0x60000 (lauterDesc op 0)
def storing : State := { node with fls := { node.fls with state := .ready } }

def lauterTakes (op : Nat) : Bool :=
  let s := lautering op
  (s.workQueues 5).head?.map (·.2) == some lauterQueue && s.headLauter part0 lauterQueue == (some op, 0) &&
    (s.fls.cmds.filter fun c => c.carrier == 0 && c.finished.isNone).length < lauterMax

def lauter0 (op : Nat) (refuse : Option Nat) (reads : List PageRead) (applied : Nat) : LauterCmd :=
  { id := 1, carrier := 0, part := 0, queue := 15, desc := lauterDesc op 0, tag := 5, refuse := refuse, reads := reads, applied := applied }
def lauterHeld (c : LauterCmd) : State := { storing with fls := { storing.fls with cmds := [c] } }

theorem test_hyp_LauterCommandsAreTakenAndAnswered : [1, 2, 3, 4].map lauterTakes = [true, true, true, true] ∧
    crcOk (lauterDesc 2 1) 0x3C = false ∧ crcOk (lauterDesc 2 0) 0x3C = true ∧ node.lauterOk part0 (lauterDesc 2 0) = true ∧ node.lauterOk part0 (lauterDesc 5 0) = false ∧
    crcOk (lauterDesc 5 0) 0x3C = true ∧ node.noStorage 2 = true ∧ storing.noStorage 2 = false ∧ storing.lauterOk part0 (lauterDesc 2 0) = true ∧
    (storing.lauterPlace part0 (lauterDesc 2 0)).isSome = true ∧ (lauterHeld (lauter0 2 (some 0x0A) [] 0)).lauterCmd? 1 = some (lauter0 2 (some 0x0A) [] 0) ∧
    (lauterHeld (lauter0 4 none [] 1)).lauterCmd? 1 = some (lauter0 4 none [] 1) ∧ fieldAt (lauterDesc 4 0) 0 1 = 4 ∧ fieldAt (lauterDesc 4 0) 4 2 ≤ 1 ∧
    (lauter0 2 none [{ key := 0 }] 0).done = false := by decide +kernel

def reading (r : PageRead) : State := lauterHeld (lauter0 2 none [r] 0)
def readOf (r : PageRead) : Bool := match (reading r).lauterCmd? 1 with | some c => c.reads.find? (·.key == pageKey 0 0 0) == some r && r.got == none | none => false
def patrolling : State := { storing with media := { storing.media with map := [(0, 1)] }, fls := { storing.fls with patrolDays := 30 }, carriers := [(0, { state := .online })] }

theorem test_hyp_PagesComeByTheLadder : ([({ key := 0 } : PageRead), { key := 0, step := 8, rebuildFailed := true }, { key := 0, step := 3, rebuilding := true },
      { key := 0, step := 9, rebuilding := true }].map readOf) = [true, true, true, true] ∧ patrolling.fls.patrolDays ≠ 0 ∧ patrolling.background = true ∧
    patrolling.media.map.get 0 (pageKey 0 0 0) ≠ 0 ∧ patrolling.posMissing (homeOf (pageKey 0 0 0)) = false := by decide +kernel

/-! ### Storage and carriers -/

def onlineCars (n : Nat) : SMap Carrier := (List.range n).map fun c => (c, { state := .online, present := true, pwrEn := true, pgood := true, ident := some {} })
/-- Storage ready with `n` carriers online. -/
def stored (n : Nat) : State := { node with fls := { node.fls with state := .ready, decided := true }, carriers := onlineCars n }

/-- One page staged on each carrier but that of the parity of block 0's first stripe, and page 8 too. -/
def staging (l : List Nat) : State := { stored 8 with staged := l.map fun c => (c, { since := 100 + c }) }
def withStripe (v : Stripe) : State := { stored 8 with media := { (stored 8).media with stripes := [(3, v)] } }
def stripe0 : Stripe := { block := 0, page := 0, slots := List.replicate 8 none, stream := .steep, programming := true }
def withBlock (v : SBlock) : State := { stored 8 with media := { (stored 8).media with blocks := [(0, v)] } }
def erasing0 : SBlock := { oneBit := true, stream := .steep, closed := true, order := 0, erasing := true }

theorem test_hyp_StagedBytesAndStripes : (staging [1, 2, 3, 4, 5, 6, 7]).peekPos (streamNo 0) = some (0, 0) ∧ (staging []).storageUp = true ∧
    (((staging [1, 2, 3, 4, 5, 6, 7]).gatherStripe (streamNo 0) (parityPos 0 0)).filter Option.isSome).length = 7 ∧
    (((staging [1, 2]).gatherStripe (streamNo 0) (parityPos 0 0)).filter Option.isSome).length = 2 ∧ (staging [1, 2]).closeDue (streamNo 0) = some 2000101 ∧
    (withStripe stripe0).media.stripes.find? (·.1 == 3) = some (3, stripe0) ∧ stripe0.programming = true ∧ (withBlock erasing0).block? 0 = some erasing0 ∧
    erasing0.erasing = true ∧ (withBlock erasing0).pwr.state.toNat < 2 ∧
    ((List.range 8).all fun c => !(withBlock erasing0).posMissing c && (withBlock erasing0).media.weak.get 0 c < 3) = true ∧
    (5 ∉ node.media.failedDies) ∧ node.media.timeouts.get 0 5 < 2 ∧ (stored 8).storageUp = true ∧ (stored 8).pwr.state.toNat < 2 := by decide +kernel

def steepFull : State := withBlock { oneBit := true, stream := .steep, closed := true, order := 0, next := 2000000 }
def coldBlock : SBlock := { oneBit := false, stream := .cold, closed := true, order := 0, next := 2560 }
def collecting (v : SBlock) (start urgent : BitVec 8) : State := let s := withBlock v; { s with fls := { s.fls with gcStart := start, gcUrgent := urgent } }
def worn : State := let s := withBlock coldBlock; { s with media := { s.media with wear := [(8, 900)] } }
def calibrating : State := (stored 8).modFlashCh 0 fun k => { k with trained := true }
def calWindow : State := { calibrating with grist := { calibrating.grist with clock := { calibrating.grist.clock with calUs := 100 } } }

theorem test_hyp_BackgroundWorkAndCalibration : steepFull.background = true ∧ steepFull.kilnAt ≤ steepFull.steepPct ∧ steepFull.gcUrgent = false ∧
    (leastBlock (fun e => e.2.order) (steepFull.media.blocks.filter fun e => e.2.oneBit && steepFull.quiet e)).isSome = true ∧
    (collecting coldBlock 101 101).background = true ∧ (collecting coldBlock 101 101).gcUrgent = true ∧
    (collecting coldBlock 101 101).freePct < (collecting coldBlock 101 101).fls.gcStart.toNat ∧ (collecting coldBlock 101 101).gcVictim.isSome = true ∧
    ((List.range 8).all fun c => node.wearSpread c ≤ node.fls.spread.toNat) = true ∧ worn.background = true ∧
    (worn.posMissing 0 = false ∧ worn.fls.spread.toNat < worn.wearSpread 0) ∧
    (leastBlock (fun e => worn.blockWear e.1) (worn.media.blocks.filter fun e => !e.2.oneBit && e.2.closed && e.2.stream == .cold && worn.quiet e)).isSome = true ∧
    worn.wornFree = some 1 ∧ calibrating.channelServes 0 = true ∧ calWindow.channelServes 0 = true ∧ calWindow.grist.clock.calUs ≠ 0 := by decide +kernel

/-- Carrier 0 in a state, with seven others online. -/
def carIs (st : CarState) : State := (stored 8).modCarrier 0 fun k => { k with state := st }
def carOnly (fs : FlsState) (st : CarState) : State := { node with fls := { node.fls with state := fs }, carriers := [(0, { state := st, present := true })] }
def adopting : State := let s := carIs .absent; { s with fls := { s.fls with adopt := true } }

theorem test_hyp_CarriersComeAndGo : (carIs .absent).pwr.state.toNat < 2 ∧ (carIs .absent).pwr.off = false ∧ ((carIs .absent).carrier 0).state = .absent ∧
    ((carIs .lost).carrier 0).state = .lost ∧ ((carOnly .down .powering).carrier 0).state = .powering ∧ (carOnly .down .powering).fls.decided = false ∧
    (carOnly .down .powering).fls.state = .down ∧ (carOnly .forming .powering).fls.state = .forming ∧ (carOnly .down .powering).found = [] ∧
    (node.regsLive = true ∧ node.cask.state = 0) ∧ (stored 8).storageUp = true ∧ (stored 8).onlineCount = 8 ∧ node.storageUp = false ∧ (stored 7).onlineCount < 8 ∧
    ((stored 8).carrier 0).state = .online ∧ ((carIs .rebuilding).carrier 0).state = .rebuilding ∧ ((carIs .removal).carrier 0).state = .removal ∧
    ((carIs .safe).carrier 0).state = .safe ∧ ((carIs .safe).carrier 0).present = true ∧ (carIs .absent).storageUp = true ∧
    (carIs .absent).slotMissing 0 = true ∧ ((carIs .absent).carrier 0).state ≠ .refused ∧ adopting.fls.adopt = true ∧ (carIs .rebuilding).fls.mbps ≠ 0 ∧
    (carIs .rebuilding).pause75 = false ∧ (carIs .rebuilding).storageUp = true := by decide +kernel

def pressed (st : CarState) : State := let s := carIs st; { s with mod := { s.mod with pressed := 1, pressAt := [(0, 5)] } }

theorem test_hyp_CarrierButtonsAndSensors : ([CarState.online, .rebuilding, .removal, .safe].all fun st =>
      (pressed st).buttonsLive && (pressed st).mod.pressed.getLsbD 0 && (pressed st).time.up < (pressed st).mod.pressAt.get 0 0 + 4000000000 &&
        ((pressed st).carrier 0).state == st) = true ∧
    ([CarState.safe, .refused, .failed].all fun st => ((carIs st).carrier 0).state == st) = true := by decide +kernel

/-! ### NVMe namespaces -/

/-- The controller ready with I/O queues 1, namespace 2 of partition 0 (extent 1, 1 GB, 512-byte blocks), and a free slot to complete into. -/
def nvmed (s : State) : State :=
  { s with host := { s.host with speed := 4, width := 16, nvme := { s.host.nvme with rdy := true, sqs := [⟨1, 1, 8, 0x10000, 1, 0⟩], cqs := [⟨1, 8, 0x20000, false, 0, 0, 0, true, 0⟩] } } }
def namespaced : State := nvmed (stored 8)
def readOnly : State := { namespaced with fls := { namespaced.fls with state := .readOnly } }
/-- 4,096 pages staged on carrier 0, none of them page 0 of extent 1. -/
def stagedFull : State := { namespaced with staged := (List.replicate 4096 (8, {})) }

theorem test_hyp_NamespacesReadAndWrite : (namespaced.fetch 1).isSome = true ∧ (namespaced.nsOf 0).isNone = true ∧
    (namespaced.fetch 1).map (fun t => (t.nsOf 0).isNone) = some true ∧ (namespaced.nsOf 2).map (·.2) = some ⟨1, true, true, 1, 0⟩ ∧
    (namespaced.fetch 1).map (fun t => (t.nsOf 2).map (·.2)) = some (some ⟨1, true, true, 1, 0⟩) ∧
    (let e : FlashExt := ⟨1, true, true, 1, 0⟩; e.lbas < e.lbas + 1 ∧ 0 + 1 ≤ e.lbas) ∧ (namespaced.fetch 1).map (·.storageUp) = some true ∧
    ((FlashExt.blockSpans ⟨1, true, true, 1, 0⟩ 0 1).all fun x => !namespaced.stagingFull (pageKey 0 1 x.1)) = true ∧
    (namespaced.fetch 1).map (fun t => decide (t.fls.state ≠ .readOnly)) = some true ∧ (readOnly.fetch 1).map (·.fls.state) = some .readOnly ∧
    ((FlashExt.blockSpans ⟨1, true, true, 1, 0⟩ 0 1).any fun x => stagedFull.stagingFull (pageKey 0 1 x.1)) = true ∧ (stagedFull.fetch 1).isSome = true := by
  decide +kernel

/-! ### Links and frames -/

def chanIs (k : Chan) : State := { node with fab := { node.fab with fdet := 1, chans := [(0, k)] } }
def linkFrame (sub inc echo width : Nat) (typ : Nat) (n : Nat) : Bytes :=
  galmelFrame typ 0 n 3 0xFFFF 0 0 0 0 (zeros 12) (if typ == 3 then linkPayload sub width inc echo else zeros n)

theorem test_hyp_LinksTrainInitialiseAndFail : node.mod.oeOff.getLsbD 0 = false ∧ ((chanIs { state := .training, eth := true }).chan 0).state = .training ∧
    ((chanIs { state := .init }).chan 0).state = .init ∧ ((chanIs { state := .failed }).chan 0).state = .failed ∧
    (chanIs { state := .failed }).fab.fdet.getLsbD 0 = true ∧ ((chanIs { state := .up }).chan 0).state = .up ∧ ((chanIs { state := .up }).chan 0).eth = false ∧
    (let f := linkFrame 3 1 0 0 3 32; let p := slice f 32 32
     frameKind f = .keepalive ∧ fieldAt p 1 1 = 1 ∧ fieldAt p 3 1 = 0 ∧ allZero (slice p 12 20) = true ∧ fieldAt p 8 4 = 0) ∧
    frameKind (linkFrame 0 0 0 0 2 32) = .credit ∧ frameKind (linkFrame 0 0 0 0 4 44) = .time ∧
    (let f := linkFrame 1 1 0 0 3 32; let p := slice f 32 32
     frameKind f = .init ∧ fieldAt p 1 1 = 1 ∧ fieldAt p 3 1 = 0 ∧ allZero (slice p 12 20) = true ∧ fieldAt p 8 4 = 0 ∧ fieldAt p 2 1 = 0) ∧
    ((chanIs { state := .init }).chan 0).ackSeen = false ∧
    (let f := linkFrame 2 5 7 0 3 32; let p := slice f 32 32
     frameKind f = .ack ∧ fieldAt p 1 1 = 1 ∧ fieldAt p 3 1 = 0 ∧ allZero (slice p 12 20) = true ∧ fieldAt p 8 4 = 7) ∧
    ((chanIs { state := .init, initSeen := true, incarnation := 7 }).chan 0).initSeen = true ∧
    ((chanIs { state := .init, initSeen := true, incarnation := 7 }).chan 0).incarnation.toNat = 7 := by decide +kernel

/-- The header premises of TakesFrame for the frames above, by the state of the channel. -/
theorem test_hyp_TakesFrame_keepalive : TakesFrame (chanIs { state := .up }) 0 (linkFrame 3 1 0 0 3 32) := by unfold TakesFrame; decide +kernel
theorem test_hyp_TakesFrame_credit : TakesFrame (chanIs { state := .up }) 0 (linkFrame 0 0 0 0 2 32) := by unfold TakesFrame; decide +kernel
theorem test_hyp_TakesFrame_time : TakesFrame (chanIs { state := .up }) 0 (linkFrame 0 0 0 0 4 44) := by unfold TakesFrame; decide +kernel
theorem test_hyp_TakesFrame_init : TakesFrame (chanIs { state := .init }) 0 (linkFrame 1 1 0 0 3 32) := by unfold TakesFrame; decide +kernel
theorem test_hyp_TakesFrame_ack : TakesFrame (chanIs { state := .init, initSeen := true, incarnation := 7 }) 0 (linkFrame 2 5 7 0 3 32) := by
  unfold TakesFrame; decide +kernel
theorem test_hyp_TakesFrame_data : TakesFrame (chanIs { state := .up }) 0 (galmelFrame 1 8 8 3 0xFFFF 0 0 0 1 (zeros 12) (zeros 8)) := by
  unfold TakesFrame; decide +kernel

def eth0 : State := chanIs { state := .up, eth := true }
def ethFrame (bad : Nat) : Bytes := let f := toBE 6 0x020000000009 ++ zeros 54; f ++ toLE 4 (fcs f + bad)
def msg0 (cls : Nat) : EgMsg := { dest := BitVec.ofNat 16 cls, tenant := 0, colour := 0, msgId := 1, stamp := ⟨0, 0, 0⟩, data := zeros 8 }
def queued (cls : Nat) : State := chanIs { state := .up, limit := List.replicate 8 100, queues := resetQueues.set cls { (nth resetQueues cls {}) with msgs := [msg0 cls] } }
def reasm0 : Reasm := { src := 3, cls := 2, mid := 4, next := 1, data := zeros 4096, tenant := 0, colour := 0, acct := 4096, units := 64, since := 10, mac := 0, epoch := 0 }
def shaped (credit : Int) : State := chanIs { state := .up, queues := resetQueues.set 0 { rate := 100, credit := credit } }

theorem test_hyp_FramesMessagesAndEgress : node.inputStopped = false ∧ node.comp.wanted = none ∧ ((chanIs { state := .up }).chan 0).eth = false ∧
    fieldAt (galmelFrame 1 8 8 3 0xFFFF 0 0 0 1 (zeros 12) (zeros 8)) 0 1 = 1 ∧ (eth0.chan 0).eth = true ∧ (eth0.chan 0).state = .up ∧
    fcs ((ethFrame 1).take 60) ≠ fieldAt (ethFrame 1) 60 4 ∧ (ethFrame 0).length = 64 ∧ fcs ((ethFrame 0).take 60) = fieldAt (ethFrame 0) 60 4 ∧
    beNat (slice (ethFrame 0) 0 6) ≠ (eth0.fab.mac + 0).toNat ∧ beNat (slice (ethFrame 0) 0 6) ≠ 0x011B19000000 ∧ beNat (slice (ethFrame 0) 0 6) ≠ 0x0180C200000E ∧
    ((chanIs { state := .up, eth := true, reasm := [reasm0] }).chan 0).reasm.find? (fun r => r.src == 3 && r.cls == 2 && r.mid == 4) = some reasm0 ∧
    node.cask.base = [] ∧ node.cask.ring = [] ∧ ((chanIs { state := .up, ctl := [[1]] }).chan 0).ctl = [1] :: [] ∧
    (((chanIs { state := .up, timeq := [[1]] }).chan 0).ctl = [] ∧ ((chanIs { state := .up, timeq := [[1]] }).chan 0).timeq = [1] :: []) ∧
    (((queued 0).chan 0).ctl = [] ∧ ((queued 0).chan 0).timeq = []) ∧ ((queued 0).refreshTags 0).eligible 0 0 = true ∧
    ((queued 3).refreshTags 0).eligible 0 0 = false ∧ ((queued 3).refreshTags 0).wfqPick 0 = some 3 ∧
    ((chanIs { state := .up }).refreshTags 0).eligible 0 0 = false ∧ ((chanIs { state := .up }).refreshTags 0).wfqPick 0 = none ∧
    (let q := (nth ((shaped (-5)).chan 0).queues 0 {}).credited (shaped (-5)).time.up; q.rate ≠ 0 ∧ q.credit < 0) ∧
    (let q := (nth ((shaped 5).chan 0).queues 0 {}).credited (shaped 5).time.up; 0 ≤ q.credit) := by decide +kernel

/-! ### Time and maps -/

def timeIs (st : TimeState) (issued : Bool) (good : Nat) (via : Bool) : State :=
  { chanIs { state := .up } with time := { node.time with state := st, issued := issued, good := good, via := via } }
def selfTimed : State := let s := timeIs .free false 0 false; { s with fab := { s.fab with self := true } }
def unlocked (f : Nat) : State := { node with time := { node.time with lockedOnce := false, issued := false, floor := some f } }

theorem test_hyp_RackTimeLocksHoldsAndSlews : ((timeIs .locked false 0 true).chan 0).state = .up ∧ (timeIs .locked false 0 true).time.state = .locked ∧
    (timeIs .free false 3 true).time.state ≠ .locked ∧ (3 + 1 < 16 ∧ 16 ≤ (timeIs .free false 15 true).time.good + 1) ∧
    (timeIs .free true 0 true).time.issued = true ∧ (timeIs .free false 0 true).time.issued = false ∧ (timeIs .locked false 0 true).time.via = true ∧
    (selfTimed.time.via = false ∧ selfTimed.fab.self = true ∧ selfTimed.time.state ≠ .locked) ∧
    ((timeIs .locked false 0 false).fab.self = false ∧ (timeIs .locked false 0 false).time.via = false) ∧
    ((unlocked 9).time.lockedOnce = false ∧ (unlocked 9).time.issued = false ∧ (unlocked 9).time.floor = some 9 ∧ (unlocked 0).time.floor = some 0) := by decide +kernel

/-! ### Composition -/

/-- A map of search nodes 1 and 2 with the MAC addresses 1 and 2, and no shards, at a given epoch. -/
def mapOf (epoch : Nat) (b2 : Nat) : Bytes :=
  toLE 4 0x504D4F43 ++ toLE 2 1 ++ zeros 2 ++ toLE 4 epoch ++ toLE 2 2 ++ zeros 10 ++ zeros 40 ++
    (toLE 2 1 ++ zeros 2 ++ toLE 6 1 ++ zeros 6) ++ (toLE 2 2 ++ zeros 2 ++ toLE 6 b2 ++ zeros 6)
def shardRow (owner mirror : Nat) : MapShard := ⟨0, 0, true, true, owner, 0, 0, mirror, 2, 0⟩
def shardMap (owner mirror : Nat) : CompMap :=
  { epoch := 3, nodes := [⟨1, 0, false, 1⟩, ⟨2, 0, false, 2⟩], links := [⟨1, 0, 2, 0⟩], corpora := [⟨0, 1, 0⟩], shards := [shardRow owner mirror],
    lends := [⟨7, false, 0, 2, 0, 1, 0⟩, ⟨8, false, 0, 1, 0, 2, 0⟩] }
/-- The node as node 1 of a map of epoch 3. -/
def composed (m : CompMap) : State :=
  { node with fab := { node.fab with mac := 1 }, comp := { node.comp with map := some m, raw := mapOf 3 2, node := 1, confirmed := true } }
def sharded (owner mirror : Nat) (k : Shard) : State := (composed (shardMap owner mirror)).modShard 0 fun _ => k
def reqSrc : Source := .nvme 1 7
def heldOne (claim : Bool) : State := { node with req := { node.req with held := [⟨claim, reqSrc, [], 0, 5, false⟩] } }

theorem test_hyp_MapsAreOfferedFetchedAndConfirmed : Live node ∧ node.comp.busy = false ∧
    (mapOf 4 2).length = ({ node.comp with hostLen := 96 } : Comp).hostLen.toNat ∧ (mapOf 4 2).length % 8 = 0 ∧ node.comp.hostAddr.toNat % 8 = 0 ∧
    ((composed (shardMap 1 2)).comp.map.isSome = true ∧ mapOf 3 2 = (composed (shardMap 1 2)).comp.raw) ∧
    (mapOf 3 5 ≠ (composed (shardMap 1 2)).comp.raw ∧ parseMap (zeros 64) = none) ∧
    (parseMap (mapOf 4 2)).map (fun m => (composed (shardMap 1 2)).mapErr m (mapOf 4 2)) = some 0 ∧
    (parseMap (mapOf 3 5)).map (fun m => ((composed (shardMap 1 2)).mapErr m (mapOf 3 5), m.epoch)) = some (3, (composed (shardMap 1 2)).epoch) ∧
    (let s : State := { composed (shardMap 1 2) with fab := { node.fab with mac := 9 } }
     (parseMap (mapOf 4 2)).map (fun m => s.mapErr m (mapOf 4 2)) = some 4) ∧
    (2 < (composed (shardMap 1 2)).epoch ∧ (composed (shardMap 1 2)).comp.wanted = none) ∧
    (let s := composed (shardMap 1 2)
     State.mapConfirmed { s with comp := { s.comp with confirmed := false } } = false) ∧
    (heldOne false).req.held[0]? = some ⟨false, reqSrc, [], 0, 5, false⟩ ∧ (heldOne true).req.held[0]? = some ⟨true, reqSrc, [], 0, 5, false⟩ := by
  unfold Live; decide +kernel

def item0 : MirrorItem := { ack := ⟨9, 1, 1⟩, request := [], journal := [], upd := 4, sentAt := 20 }
def stamp0 : BitVec 96 := BitVec.ofNat 96 (leNat (Stamp.bytes ⟨9, 1, 1⟩))
def updating : State :=
  let s := sharded 1 2 { role := .owner, unacked := [item0] }
  { s with srch := { s.srch with updates := [⟨4, 0, 0, true, false, 1, [], [], .nothing, none, none, none, 0, none, none, 0, 0⟩] } }
/-- A MIRROR_UPDATE of shard 0, with a request of 96 bytes. -/
def mirrorBody : Bytes := zeros 8 ++ (Stamp.bytes ⟨9, 1, 1⟩) ++ zeros 12 ++ zeros 4 ++ toLE 4 96 ++ zeros 88
def inFlight : State := { sharded 2 1 { role := .owner } with req := { node.req with reqs := [⟨4, reqSrc, toLE 1 3 ++ zeros 100, 0, 0, 5, 10, 12, 0, 0, .queued, none, false, false, 0⟩] } }

theorem test_hyp_ClaimsMirrorsAndMeters : node.cask.state = 0 ∧ node.mapShard 0 = none ∧ (sharded 1 2 {}).mapShard 0 = some (shardRow 1 2) ∧
    ((sharded 1 2 {}).mapConfirmed = true ∧ (sharded 1 2 {}).holder (shardRow 1 2) = (sharded 1 2 {}).me ∧ ((sharded 1 2 {}).shard 0).role ≠ .owner) ∧
    ((sharded 2 1 { role := .owner }).holder (shardRow 2 1) ≠ (sharded 2 1 {}).me ∧ (sharded 2 1 { role := .owner }).updatesOf (shardRow 2 1) = []) ∧
    inFlight.updatesOf (shardRow 2 1) ≠ [] ∧
    (((sharded 1 2 { role := .claiming }).shard 0).role = .claiming ∧ (shardRow 1 2).previous = (2 : BitVec 16).toNat) ∧
    ((shardMap 1 2).shards.any fun x => ((sharded 1 2 { role := .claiming }).shard x.id).role == .claiming) = true ∧
    (let b := pad8 mirrorBody
     (sharded 2 1 {}).mapShard (fieldAt b 0 2) = some (shardRow 2 1) ∧ fieldAt b 2 2 = 0 ∧ (shardRow 2 1).mirrored = true ∧
       (shardRow 2 1).mirror = (sharded 2 1 {}).me) ∧
    (((sharded 2 1 { role := .resyncing }).shard 0).role = .resyncing ∧ ((sharded 2 1 {}).svcPart (shardRow 2 1).mirrorService).isSome = true) ∧
    ((updating.shard 0).unacked.find? (·.ack == stampAt (toLE 12 stamp0.toNat) 0) = some item0 ∧ (updating.update? item0.upd).isSome = true) ∧
    (updating.shard 0).unacked = item0 :: [] ∧ Live node := by unfold Live; decide +kernel

/-- Partition 0 with a lend queue, and a command in its first slot: read 64 bytes of entry 7 at place 0 into tile memory. -/
def lendPart : Machine.Part := { part0 with queues := part0.queues ++ [⟨0xFFF0, 3, 2, 6, 0, 90, 0x120000⟩] }
def lendDesc (op entry : Nat) : Bytes :=
  let d := toLE 1 op ++ zeros 1 ++ toLE 2 entry ++ toLE 4 64 ++ toLE 8 0 ++ toLE 8 0x10200000 ++ toLE 8 0x10210000 ++ toLE 4 1 ++ zeros 24
  d ++ toLE 4 (crc32c d)
def lending (d : Bytes) : State :=
  let s := composed (shardMap 1 2)
  let s : State := { s with grist := { s.grist with parts := [lendPart] } }
  withQueue (s.locWrite (.tile 0 0x120000) d) 0xFFF0 { entries := [{ slot := 0 }] }
def awaiting : State := { lending (lendDesc 1 7) with comp := { (lending (lendDesc 1 7)).comp with lends := [⟨1, 0, lendDesc 1 7, 30⟩] } }
def askBody : Bytes := toLE 2 8 ++ zeros 2 ++ toLE 4 64 ++ zeros 8 ++ toLE 8 1
def entOf (s : State) (d : Bytes) : Option MapLend :=
  s.comp.map.bind fun m => m.lends.find? fun l => l.id == fieldAt d 2 2 && l.borrower == s.me && l.borrowerPart == 0

theorem test_hyp_LendsAreAskedServedAndEnded : (lending (lendDesc 1 7)).cask.state = 0 ∧ (lending (lendDesc 1 7)).part? 0 = some lendPart ∧
    (lendPart.queueDef? lendQueue).map (·.kind) = some 3 ∧ ((lending (lendDesc 1 7)).queue 0 0xFFF0).oldest = some { slot := 0 } ∧
    (lending (lendDesc 1 7)).slotRead lendPart ⟨0xFFF0, 3, 2, 6, 0, 90, 0x120000⟩ 0 = lendDesc 1 7 ∧ lendOk lendPart (lendDesc 1 7) = true ∧
    lendOk lendPart (lendDesc 3 7) = false ∧ entOf (lending (lendDesc 1 9)) (lendDesc 1 9) = none ∧
    (entOf (lending (lendDesc 1 7)) (lendDesc 1 7)).map (fun l => lendShapeOk l.flash (fieldAt (lendDesc 1 7) 4 4) (fieldAt (lendDesc 1 7) 8 8)) = some true ∧
    (let b := pad8 askBody
     ((lending []).comp.map.bind fun m => m.lends.find? fun l => l.id == fieldAt b 0 2 && l.lender == 1 && l.borrower == 2) = some ⟨8, false, 0, 1, 0, 2, 0⟩ ∧
       lendShapeOk false (fieldAt b 4 4) (fieldAt b 8 8) = true ∧ fieldAt b 8 8 + fieldAt b 4 4 ≤ 8 * GiB) ∧
    lendPart.general[0]? = some ⟨0, false, 0, 8⟩ ∧ (node.memCtl 0).state ≠ 2 ∧ ((node.modMem 0 fun m => { m with state := 2 }).memCtl 0).state = 2 ∧
    (lending []).comp.lost.find? (·.1 == 8) = none ∧ awaiting.comp.lends.find? (·.tag == 1) = some ⟨1, 0, lendDesc 1 7, 30⟩ ∧
    fieldAt (lendDesc 1 7) 0 1 = 1 := by decide +kernel


/-! ### The host port -/

/-- The controller ready with the admin queues and I/O queue 1 with completion queue 1; the submission queue of a given number has one entry. -/
def nvmeAt (work : Nat) : State :=
  let sq (i : Nat) : NvSq := { id := i, cq := i, size := 8, base := 0x10000, tail := if i == work then 1 else 0 }
  let cq (i : Nat) : NvCq := { id := i, size := 8, base := 0x20000, ien := true, vector := 0 }
  { stored 8 with host := { node.host with speed := 4, width := 16, nvme := { rdy := true, cc := 1, sqs := [sq 0, sq 1], cqs := [cq 0, cq 1] } } }
def coalescing : State := let s := nvmeAt 0; s.setCq { id := 1, size := 8, base := 0x20000, ien := true, vector := 0, coalesced := 2 }
def shutting : State := (nvmeAt 0).modNvme fun n => { n with shst := 1 }

theorem test_hyp_HostLinkControllerAndDoorbells : linkOk (6 : BitVec 3).toNat (16 : BitVec 5).toNat = true ∧ Live node ∧
    (((0x00460000 : BitVec 32).getLsbD 0 = false) ∧ (nvmeAt 0).host.nvme.cc.getLsbD 0 = true) ∧
    ((0x00460001 : BitVec 32).getLsbD 0 = true ∧ node.host.nvme.rdy = false ∧ node.grist.state = .running ∧
      bitsOf ((0x00460001 : BitVec 32) &&& BitVec.ofNat 32 ccMask).toNat 15 14 = 0) ∧
    (let cc : BitVec 32 := 0x00464001
     cc.extractLsb' 14 2 ≠ 0 ∧ cc.getLsbD 0 = true ∧ (nvmeAt 0).host.nvme.rdy = true ∧ bitsOf (nvmeAt 0).host.nvme.cc.toNat 15 14 = 0 ∧
       bitsOf (cc &&& BitVec.ofNat 32 ccMask).toNat 15 14 ≠ 0) ∧
    shutting.host.nvme.shst = 1 ∧ (((nvmeAt 0).sq? 1).map (·.size) = some 8 ∧ (7 : BitVec 16).toNat < 8 ∧ 8 ≤ (8 : BitVec 16).toNat) ∧
    ((nvmeAt 0).cq? 1).map (·.size) = some 8 ∧ ((nvmeAt 1).fetch (1 : BitVec 16).toNat).isSome = true ∧
    ((coalescing.cq? 1).map (·.coalesced) = some 2 ∧ coalescing.irqStopped = false) := by unfold Live; decide +kernel

/-- A state about which a fetch of a queue's entry ends, and what holds of it. -/
def fetched (s : State) (q : Nat) (f : State → Bool) : Bool := match s.fetch q with | some t => f t | none => false
def withAers (n : Nat) : State := (nvmeAt 0).modNvme fun v => { v with aers := List.replicate n 0 }
/-- Services 0 and 1 are programs 0; a range set 1 over the first 4 KiB, with a 64-byte request for service 0 at its start. -/
def ranged : State := (nvmeAt 1).modNvme fun v => { v with ranges := [(1, [(0, 4096)])] }
def params (cap : Nat) : Bytes := toLE 8 0 ++ toLE 4 64 ++ toLE 4 cap ++ toLE 8 1024 ++ zeros 8

theorem test_hyp_QueuesMemoryAndPrograms_admin : fetched (nvmeAt 0) 0 (fun t => (t.sq? 2).isNone && (t.cq? 1).isSome) = true ∧
    fetched (nvmeAt 0) 0 (fun t => (t.cq? 2).isNone) = true ∧ fetched (nvmeAt 0) 0 (fun t => (t.sq? 1).isSome) = true ∧
    fetched (nvmeAt 0) 0 (fun t => (t.identify 1 0 0).isSome && (t.logPage 0xC1).isSome) = true ∧
    fetched (withAers 7) 0 (fun t => t.host.nvme.events.isEmpty && t.host.nvme.aers.length == 7) = true ∧
    fetched (withAers 8) 0 (fun t => t.host.nvme.events.isEmpty && t.host.nvme.aers.length == 8) = true := by decide +kernel

theorem test_hyp_QueuesMemoryAndPrograms_io : fetched ranged 1 (fun t => t.host.nvme.ranges.all fun r => r.1 != 2) = true ∧ memSpanOk 8 2097152 = true ∧
    memSpanOk (nvmBytes - 8) 8 = true ∧ memSpanOk (nvmBytes - 8) 16 = false ∧ memSpanOk 4 8 = false ∧
    ((nvmBytes - 8) % 8 = 0 ∧ nvmBytes - 8 + 8 ≤ nvmBytes) ∧ fetched ranged 1 (fun t => t.host.nvme.ranges.any (·.1 == 1)) = true ∧
    fetched ranged 1 (fun t => (t.programSvc 0).isSome) = true ∧ (nvBadNs ≠ nvDataError ∧ ranged.execCheck 1 0 1 (some (params 1024)) = .inl nvBadNs) ∧
    (ranged.execCheck computeNs 0 1 (some (params 1024)) = .inr (0, 64, 1024, 1024) ∧ ranged.canStamp = true) := by decide +kernel

/-! ### Self-tests and watchdogs -/

def testQueue (n : Nat) : State := { node with flt := { node.flt with queue := (List.range n).map fun i => ⟨1, BitVec.ofNat 10 (100 + i)⟩ } }
def testing (k : BitVec 3) (u : BitVec 10) (st : CoreState) : State :=
  { node with cores := [(0, { core0 with st := st })], flt := { node.flt with queue := [⟨k, u⟩] } }
def inTest (k : BitVec 3) (u : BitVec 10) : State := { node with flt := { node.flt with running := [⟨k, u⟩] } }
def hanging : State := { node with cores := [(0, { core0 with vbusy := some 0 })] }

theorem test_hyp_SelfTestsAndWatchdogs_asked : Live node ∧ (node.coreEnabled 0 = true ∧ node.underTest 1 0 = false ∧ (testQueue 63).flt.queue.length < 64) ∧
    (inTest 1 0).underTest 1 0 = true ∧ node.coreEnabled 9 = false ∧ ((testQueue 64).underTest 1 0 = false ∧ 64 ≤ (testQueue 64).flt.queue.length) ∧
    (node.arrayEnabled 0 0 = true ∧ node.underTest 2 0 = false) ∧ node.arrayEnabled (4 / 4) (4 % 4) = false ∧
    ((node.enables 0).getLsbD 13 = true ∧ node.underTest 3 0 = false) ∧ (node.enables 1).getLsbD 13 = false ∧ (node.flashCh 31).calDue = false := by
  unfold Live; decide +kernel

theorem test_hyp_SelfTestsAndWatchdogs_run : (testing 1 0 .fenced).flt.queue = ⟨1, 0⟩ :: [] ∧ testUnitKind (1 : BitVec 3).toNat = some .core ∧
    ((testing 1 0 .fenced).testReady .core 0 = true ∧ (testing 1 0 .fenced).flt.running.length < 8 ∧ ((testing 1 0 .fenced).core 0).st = .fenced) ∧
    (testing 1 0 .running).testReady .core 0 = false ∧ ((testing 2 0 .running).testReady .array 0 = true ∧ testUnitKind (2 : BitVec 3).toNat = some .array) ∧
    (⟨BitVec.ofNat 3 UnitKind.core.code, BitVec.ofNat 10 0⟩ ∈ (inTest 1 0).flt.running ∧ rotUnit 0 = (.core, 0)) ∧
    (⟨BitVec.ofNat 3 UnitKind.gather.code, BitVec.ofNat 10 95⟩ ∈ (inTest 3 95).flt.running ∧ rotUnit 1343 = (.gather, 95)) ∧ (inTest 1 0).cask.state = 0 ∧
    (let s : State := { node with flt := { node.flt with period := 60 } }
     s.flt.period ≠ 0 ∧ s.regsLive = true ∧ Powered s ∧ s.nextRot s.flt.rotPos.toNat = some 0) ∧ node.flt.period = 0 ∧
    node.hungTag .core 0 = none ∧ (hanging.hungTag .core 0).isSome = true := by unfold Powered; decide +kernel

/-! ### Casks -/

/-- A map with a collector, node 3. -/
def collected : State :=
  let s := composed { shardMap 1 2 with nodes := [⟨1, 0, false, 1⟩, ⟨2, 0, false, 2⟩, ⟨3, 2, false, 3⟩] }
  { s with cask := { s.cask with parts := 1, collector := 3 } }
def capturing (st : BitVec 3) (cut : Bool) : State := { node with cask := { node.cask with mode := 1, state := st, cut := cut } }
def replay : State := { node with cask := { node.cask with mode := 2, state := 4, hostLen := 65536 } }
def feed (magic seq : Nat) : Bytes := toLE 4 magic ++ toLE 2 1 ++ zeros 2 ++ toLE 4 seq ++ toLE 4 100 ++ zeros 65520

theorem test_hyp_CasksCaptureAndReplay : Live node ∧ node.isCollector node.cask.collector.toNat = false ∧
    (Live collected ∧ collected.isCollector collected.cask.collector.toNat = true ∧ (collected.caskParts.any collected.partBusyWith) = false ∧ collected.canStamp = true) ∧
    (let s := withQueue collected 10 { entries := [{ slot := 0 }] }
     let t : State := { s with cask := { s.cask with capParts := 1 } }
     (t.caskParts.any t.partBusyWith) = true) ∧
    ((capturing 1 false).regsLive = true ∧ (capturing 1 false).cask.state = 1 ∧ (capturing 1 false).cask.cut = false) ∧
    ((capturing 2 true).cask.state = 2 ∧ (capturing 2 true).cask.ring.length + 2 < caskRingMax) ∧ (replay.regsLive = true ∧ replay.cask.state = 4) ∧
    node.cask.state ≠ 1 ∧ ((capturing 1 true).cask.cut = true ∧ (capturing 1 true).cask.base.any CaskBase.isMem = false) ∧
    ([] : Bytes).length ≠ replay.cask.hostLen.toNat ∧ (replay.cask.hostLen = 65536 ∧ replay.cask.hostAddr.toNat % 64 = 0) := by unfold Live; decide +kernel

theorem test_hyp_CasksCaptureAndReplay_feeds : (feed 0x4B534143 1).length = 65536 ∧ fieldAt (feed 1 1) 0 4 ≠ 0x4B534143 ∧
    (fieldAt (feed 0x4B534143 1) 0 4 = 0x4B534143 ∧ fieldAt (feed 0x4B534143 1) 4 2 = 1 ∧ fieldAt (feed 0x4B534143 1) 12 4 ≤ 65472 ∧
      fieldAt (feed 0x4B534143 1) 8 4 ≠ replay.cask.nextSeg.toNat) := by decide +kernel

/-! ### Input power, heat, lamps and the test port -/

def pwrIs (st : BitVec 3) (returned off : Bool) : State := { stored 8 with pwr := { node.pwr with state := st, returned := returned, off := off } }

theorem test_hyp_InputLossFlushesAndReturns : ((699 : BitVec 10).toNat < 700 ∧ node.pwr.off = false ∧ node.pwr.state = 0) ∧
    (720 < (721 : BitVec 10).toNat ∧ (pwrIs 1 false false).pwr.state = 1) ∧ ((679 : BitVec 10).toNat < 680 ∧ Powered (stored 8) ∧ (stored 8).fls.state = .ready) ∧
    (Live (stored 8) ∧ (stored 8).recovering = false) ∧ (Powered node ∧ node.fls.state = .down ∧ node.rst.modPend = none) ∧
    ((pwrIs 2 false false).pwr.state = 2 ∧ (pwrIs 2 false false).pwr.returned = false ∧ (pwrIs 2 false false).rst.modPend = none) ∧
    (740 < (741 : BitVec 10).toNat ∧ (pwrIs 3 false false).pwr.state = 3 ∧ (pwrIs 3 false false).pwr.tripped = [] ∧ (pwrIs 3 false false).pins.pwrFailN = true) ∧
    (pwrIs 3 true false).pwr.returned = true ∧ ((400 : BitVec 10).toNat ≤ 400 ∧ (pwrIs 3 false false).pwr.empty = false) ∧
    (pwrIs 3 false true).pwr.off = true ∧ 870 < (871 : BitVec 10).toNat := by unfold Powered Live; decide +kernel

def drivenOn (st : CarState) : State := let s := carIs st; { s with mod := { s.mod with kOn := 1 } }
def readings (i : Nat) (t : BitVec 8) : List (BitVec 8) := (List.replicate 44 40).set i t
/-- A reading of a sensor kept, while throttling. -/
def warmed (i : Nat) (t : BitVec 8) : State :=
  { node with mod := { node.mod with therm := 1, now := [(i, t)] }, cap := { node.cap with cap := 1000 }, grist := { node.grist with clock := { node.grist.clock with cap := 2000 } } }
def oeCold (fdet : BitVec 8) : State :=
  let s := chanIs { state := .noFibre, engine := 0 }
  { s with mod := { s.mod with oeOff := 1 }, fab := { s.fab with fdet := fdet } }

theorem test_hyp_HeatCarriersLampsAndTestPort_carriers : ((drivenOn .safe).pwr.off = false ∧ (drivenOn .safe).mod.kOn.getLsbD 0 = true ∧
      ((drivenOn .safe).carrier 0).state ≠ .online ∧ ((drivenOn .safe).carrier 0).state ≠ .rebuilding ∧ ((drivenOn .safe).carrier 0).state ≠ .removal) ∧
    ([CarState.online, .rebuilding, .removal].all fun st => ((drivenOn st).carrier 0).state == st) = true ∧ 150 < (151 : BitVec 8).toNat := by decide +kernel

theorem test_hyp_HeatCarriersLampsAndTestPort_heat : (readings 0 40).length = 44 ∧ Powered node ∧ (∀ c < 8, (node.carrier c).pgood = false) ∧ node.mod.therm = 0 ∧
    (∀ i < 44, ((readings 0 40).getD i 0).toInt < 75) ∧
    (0 ∈ coreSensors ∧ (thermLevels 0).1 ≤ ((readings 0 95).getD 0 0).toInt ∧ (∀ j ∈ coreSensors, ((readings 0 95).getD j 0).toInt < (thermLevels j).2) ∧ 0 ∉ node.mod.warm) ∧
    (43 ∈ coreSensors ∧ (thermLevels 43).2 ≤ ((readings 43 120).getD 43 0).toInt) ∧
    ((warmed 0 96).mod.therm = 1 ∧ (warmed 0 96).someHot = true) ∧ ((warmed 0 90).someHot = false ∧ (warmed 0 90).allCool = true) := by
  unfold Powered; decide +kernel

theorem test_hyp_HeatCarriersLampsAndTestPort_rest : ((70 : BitVec 8).toInt ≤ 70 ∧ (oeCold 1).mod.oeOff.getLsbD 0 = true) ∧
    ((oeCold 1).fab.fdet.getLsbD 0 = true ∧ 0 ∈ (oeCold 1).chansOn 0 ∧ ((oeCold 1).chan 0).state = .noFibre) ∧ (oeCold 0).fab.fdet.getLsbD 0 = false ∧ Live node ∧
    bypassCode (0x1F : BitVec 8).toNat = true ∧ ({ node.pins with resetN := false } : Pins).resetN = false ∧ ({ node.pins with resetN := true } : Pins).resetN = true := by
  unfold Live; decide +kernel

end Sys2Proof.Tests
end

section
/-! SUPPORT. What one register access does while the registers answer and no capture or replay runs: whole, partial
and alias words (R11, R567, R575–R577), the words of a register access message (R582), and the registers of the statements of 00_scope. -/
namespace Sys2Proof.Machine

variable {s : State}

/-! ### One access by a path -/

/-- The end of a command runs into whatever holds of the state it ended in. -/
theorem runs_settled {u : State} {post : State → Prop} (h : post u) : Runs (settled u) post := ⟨u, rfl, h⟩

/-- With the capture idle nothing is recorded (R608). -/
theorem State.caskRec_idle (h : s.cask.state = 0) (typ part source : Nat) (body : Bytes) : s.caskRec typ part source body = s := by
  simp [State.caskRec, State.capturing, h]

/-- A live node performs a register write, unrecorded (R579, R608). -/
theorem State.viaReg_live (h : Live s) (path : RegPath) (sp : RegSpace) (off v : Nat) (f : State → State) : s.viaReg path sp off v f = f s := by
  obtain ⟨hlive, hcask⟩ := h
  simp [State.viaReg, hlive, State.caskRec_idle hcask]

/-- One whole word to BAR0 is the write of its register, by either path (R11). -/
theorem State.writeWords_bar0_one (h : Live s) (path : RegPath) (off : Nat) (v : Word) (r : Reads) :
    s.writeWords path .bar0 off [(v, true)] r = s.regWrite off v r := by
  simp [State.writeWords, State.spaceWrite, State.viaReg_live h]

/-- One whole word to BAR2 is the write of its alias word (R575). -/
theorem State.writeWords_bar2_one (h : Live s) (path : RegPath) (off : Nat) (v : Word) (r : Reads) :
    s.writeWords path .bar2 off [(v, true)] r = s.aliasWrite off v r := by
  simp [State.writeWords, State.spaceWrite, State.viaReg_live h]

/-- One partial word to BAR0 is discarded, flagged, and its address kept (R567, R580). -/
theorem State.writeWords_bar0_partial (h : Live s) (path : RegPath) (off : Nat) (v : Word) (r : Reads) :
    s.writeWords path .bar0 off [(v, false)] r =
      { s with sys := { s.sys with partial_ := true, errAddr := BitVec.ofNat 27 off, errBar2 := false } } := by
  obtain ⟨hlive, -⟩ := h
  simp [State.writeWords, State.partialWrite, hlive]

/-- One aligned word within the space is well formed; the management path has whole words only (R582). -/
theorem wordsOk_one {path : RegPath} {off size : Nat} {v : Word} {full : Bool} (ha : off % 4 = 0) (hb : off + 4 ≤ size)
    (hp : path = .host ∨ full = true) : wordsOk path off size [(v, full)] = true := by
  cases path <;> simp_all [wordsOk]

/-! ### The commands that are register accesses -/

/-- An aligned BAR0 word lies within BAR0. -/
theorem bar0_word_fits {off : BitVec 26} (ha : off.toNat % 4 = 0) : off.toNat + 4 ≤ 0x4000000 := by omega

/-- REGISTER_WRITE of one whole word, while the registers answer (R567). -/
theorem exec_registerWrite_one (h : Live s) (path : RegPath) {off : BitVec 26} (ha : off.toNat % 4 = 0) (v : Word) (r : Reads) :
    exec (.registerWrite path off [(v, true)] r) s = settled (s.regWrite off.toNat v r) := by
  change presented (wordsOk path off.toNat 0x4000000 [(v, true)]) (settled (s.writeWords path .bar0 off.toNat [(v, true)] r)) = _
  rw [wordsOk_one ha (bar0_word_fits ha) (.inr rfl), presented_true, State.writeWords_bar0_one h]

/-- REGISTER_WRITE of one partial word, while the registers answer (R567). -/
theorem exec_registerWrite_partial (h : Live s) {off : BitVec 26} (ha : off.toNat % 4 = 0) (v : Word) (r : Reads) :
    exec (.registerWrite .host off [(v, false)] r) s =
      settled { s with sys := { s.sys with partial_ := true, errAddr := BitVec.ofNat 27 off.toNat, errBar2 := false } } := by
  change presented (wordsOk .host off.toNat 0x4000000 [(v, false)]) (settled (s.writeWords .host .bar0 off.toNat [(v, false)] r)) = _
  rw [wordsOk_one ha (bar0_word_fits ha) (.inl rfl), presented_true, State.writeWords_bar0_partial h]

/-- BIT_ALIAS_WRITE of one whole word, while the registers answer (R577). -/
theorem exec_bitAliasWrite_one (h : Live s) (path : RegPath) {off : BitVec 27} (ha : off.toNat % 4 = 0) (v : Word) (r : Reads) :
    exec (.bitAliasWrite path off [(v, true)] r) s = settled (s.aliasWrite off.toNat v r) := by
  change presented (wordsOk path off.toNat 0x8000000 [(v, true)]) (settled (s.writeWords path .bar2 off.toNat [(v, true)] r)) = _
  have hb : off.toNat + 4 ≤ 0x8000000 := by omega
  rw [wordsOk_one ha hb (.inr rfl), presented_true, State.writeWords_bar2_one h]

/-- REGISTER_ACCESS_READ of a body whose command is not the write (R582). -/
theorem exec_registerAccessRead {body : Bytes} (hb : fieldAt body 0 1 ≠ 2) : exec (.registerAccessRead body) s = settled (s.regAccess body {}) := by
  change presented (fieldAt body 0 1 != 2) (settled (s.regAccess body {})) = _
  rw [bne_iff_ne.mpr hb, presented_true]

/-- REGISTER_ACCESS_WRITE of a body whose command is not the read (R582). -/
theorem exec_registerAccessWrite {body : Bytes} (hb : fieldAt body 0 1 ≠ 1) (r : Reads) :
    exec (.registerAccessWrite body r) s = settled (s.regAccess body r) := by
  change presented (fieldAt body 0 1 != 1) (settled (s.regAccess body r)) = _
  rw [bne_iff_ne.mpr hb, presented_true]

/-! ### Register access messages (R582) -/

/-- A field of a structure holds the number whose bytes were put there. -/
theorem fieldAt_append_toLE (pre post : Bytes) {n v : Nat} (hv : v < 256 ^ n) : fieldAt (pre ++ toLE n v ++ post) pre.length n = v := by
  rw [fieldAt, List.append_assoc, List.drop_left, List.take_left' (toLE_length n v), leNat_toLE, Nat.mod_eq_of_lt hv]

/-- A body whose fields ask for one word of BAR0 is that request. -/
theorem parseRegMsg_one {b : Bytes} {write : Bool} {off : Nat} (hcmd : fieldAt b 0 1 = if write then 2 else 1) (hspace : fieldAt b 1 1 = 0)
    (hcount : fieldAt b 2 1 = 1) (hzero : fieldAt b 3 1 = 0) (hoff : fieldAt b 4 4 = off) (hlen : b.length = if write then 12 else 8)
    (ha : off % 4 = 0) (hb : off + 4 ≤ 0x4000000) :
    parseRegMsg b = some ⟨write, .bar0, off, 1, if write then [BitVec.ofNat 32 (fieldAt b 8 4)] else []⟩ := by
  cases write <;> simp_all [parseRegMsg, spaceBytes]

/-- The body of a request that reads one word of BAR0. -/
theorem parseRegMsg_readOne {off : Nat} (ha : off % 4 = 0) (hb : off + 4 ≤ 0x4000000) :
    parseRegMsg ([1, 0, 1, 0] ++ toLE 4 off) = some ⟨false, .bar0, off, 1, []⟩ := by
  have hoff := fieldAt_append_toLE [1, 0, 1, 0] [] (n := 4) (v := off) (by omega)
  rw [List.append_nil] at hoff
  exact parseRegMsg_one (write := false) rfl rfl rfl rfl hoff rfl ha hb

/-- The body of a request that writes one word of BAR0. -/
theorem parseRegMsg_writeOne {off : Nat} (ha : off % 4 = 0) (hb : off + 4 ≤ 0x4000000) (v : Word) :
    parseRegMsg ([2, 0, 1, 0] ++ toLE 4 off ++ toLE 4 v.toNat) = some ⟨true, .bar0, off, 1, [v]⟩ := by
  have hoff := fieldAt_append_toLE [2, 0, 1, 0] (toLE 4 v.toNat) (n := 4) (v := off) (by omega)
  have hv := fieldAt_append_toLE ([2, 0, 1, 0] ++ toLE 4 off) [] (n := 4) (v := v.toNat) v.isLt
  rw [List.append_nil] at hv
  have hword : BitVec.ofNat 32 (fieldAt ([2, 0, 1, 0] ++ toLE 4 off ++ toLE 4 v.toNat) 8 4) = v :=
    (congrArg (BitVec.ofNat 32) hv).trans (BitVec.ofNat_toNat 32 v |>.trans (BitVec.setWidth_eq v))
  rw [parseRegMsg_one (write := true) rfl rfl rfl rfl hoff rfl ha hb, hword, if_pos rfl]

/-- A request that breaks the format is flagged and answered with status 1. -/
theorem State.regAccess_badFormat (h : Live s) {body : Bytes} (hb : parseRegMsg body = none) (r : Reads) :
    s.regAccess body r = State.emit { s with sys := { s.sys with mgmtFmt := true } } (.mgmt [1, 0, 0, 0]) := by
  obtain ⟨hlive, -⟩ := h
  simp [State.regAccess, hlive, hb, regResponse]

/-- A request that reads one word is answered with status 0 and that word. -/
theorem State.regAccess_readOne (h : Live s) {body : Bytes} {off : Nat} (hb : parseRegMsg body = some ⟨false, .bar0, off, 1, []⟩) (r : Reads) :
    s.regAccess body r = (s.regRead off).2.emit (.mgmt ([0, 0, 0, 0] ++ toLE 4 (s.regRead off).1.toNat)) := by
  obtain ⟨hlive, -⟩ := h
  simp [State.regAccess, hlive, hb, regResponse, State.readWords, State.spaceRead]

/-- A request that writes one word is that register's write, answered with status 0. -/
theorem State.regAccess_writeOne (h : Live s) {body : Bytes} {off : Nat} {v : Word} (hb : parseRegMsg body = some ⟨true, .bar0, off, 1, [v]⟩) (r : Reads) :
    s.regAccess body r = (s.regWrite off v r).emit (.mgmt [0, 0, 0, 0]) := by
  have ⟨hlive, _⟩ := h
  simp [State.regAccess, hlive, hb, regResponse, State.writeWords_bar0_one h]

/-! ### The registers of the SYSTEM and GRIST blocks (R83, R580) -/

/-- A write in a mapped window is its block's write. -/
theorem State.regWrite_block {off : Nat} {b : Block} (h : windowBlock off = some b) (v : Word) (r : Reads) :
    s.regWrite off v r = s.blockWrite b (off % 65536 / 4 * 4) v.toNat r := by
  simp only [State.regWrite, h]

/-- SYS_SCRATCH takes the word written. -/
theorem State.regWrite_scratch (v : Word) (r : Reads) : s.regWrite 0x4001C v r = { s with sys := { s.sys with scratch := v } } := by
  rw [State.regWrite_block (b := .system) rfl]
  simp [State.blockWrite, State.wrSystem]

/-- A read of SYS_SCRATCH returns what it holds, and changes nothing. -/
theorem State.regRead_scratch : s.regRead 0x4001C = (s.sys.scratch, s) := by
  have hw : windowBlock 0x4001C = some .system := rfl
  simp [State.regRead, hw, State.blockRead, State.rdSystem]

/-- Each flag at 0x14 of the SYSTEM block clears where a 1 is written (R9). -/
theorem State.regWrite_sysFlags (v : Word) (r : Reads) :
    s.regWrite 0x40014 v r = { s with sys := { s.sys with
      partial_ := s.sys.partial_ && !v.getLsbD 0, unmapped := s.sys.unmapped && !v.getLsbD 1, mgmtFmt := s.sys.mgmtFmt && !v.getLsbD 2 } } := by
  rw [State.regWrite_block (b := .system) rfl]
  rfl

/-- The rollback minimum stays once locked, and its lock only sets (R83, R578). -/
theorem State.regWrite_svnMin (v : Word) (r : Reads) :
    s.regWrite 0x6001C v r =
      { s with grist := { s.grist with svnMin := (if s.grist.locked then s.grist.svnMin else v.setWidth 16), locked := s.grist.locked || v.getLsbD 31 } } := by
  rw [State.regWrite_block (b := .grist) rfl, ← BitVec.ofNat_toNat]
  rfl

/-- Key revocations accumulate (R83). -/
theorem State.regWrite_revoke (v : Word) (r : Reads) :
    s.regWrite 0x60020 v r = { s with grist := { s.grist with revoke := s.grist.revoke ||| v.setWidth 4 } } := by
  rw [State.regWrite_block (b := .grist) rfl]
  simp [State.blockWrite, State.wrGrist]

/-! ### Alias words of SYS_SCRATCH (R575, R577) -/

/-- One bit put leaves the others as they are. -/
theorem getLsbD_bput {n : Nat} (w : BitVec n) (b : Nat) (x : Bool) (i : Nat) (hi : i < n) :
    (bput w b x).getLsbD i = if i = b then x else w.getLsbD i := by
  have hmask : BitVec.ofNat n (2 ^ b) = BitVec.twoPow n b := BitVec.eq_of_toNat_eq (by rw [BitVec.toNat_ofNat, BitVec.toNat_twoPow])
  obtain rfl | hib := eq_or_ne i b
  · cases x <;> simp [bput, hmask, hi]
  · cases x <;> simp [bput, hmask, hi, hib]

/-- The alias words of SYS_SCRATCH lie in BAR2. -/
theorem scratchAlias_toNat (b : Fin 32) : (BitVec.ofNat 27 (32 * 0x4001C + 4 * b.val)).toNat = 32 * 0x4001C + 4 * b.val := by
  rw [BitVec.toNat_ofNat]
  omega

/-- Each stands for its bit of SYS_SCRATCH. -/
theorem aliased_scratch (b : Fin 32) : aliased (32 * 0x4001C + 4 * b.val) = (0x4001C, b.val) := by
  simp only [aliased, Prod.mk.injEq]
  omega

/-- A write of an alias word of SYS_SCRATCH puts that bit and no other. -/
theorem State.aliasWrite_scratch (b : Fin 32) (v : Word) (r : Reads) :
    s.aliasWrite (32 * 0x4001C + 4 * b.val) v r = { s with sys := { s.sys with scratch := bput s.sys.scratch b.val (v.getLsbD 0) } } := by
  have hw : windowBlock 0x4001C = some .system := rfl
  have hbits : Block.bits .system (0x4001C % 4096) = some ⟨0xFFFFFFFF, 0, 0, 0⟩ := rfl
  have hhas : (⟨0xFFFFFFFF, 0, 0, 0⟩ : RegBits).has b.val = true := by revert b; decide
  have hall : s.sys.scratch &&& BitVec.ofNat 32 0xFFFFFFFF = s.sys.scratch := BitVec.and_allOnes
  simp only [State.aliasWrite, aliased_scratch, hw, hbits, hhas, State.regRead_scratch, State.regWrite_scratch, aliasWord, hall]
  simp

end Sys2Proof.Machine
end

section
/-! PROOFS. The statements of 00_scope about register words, messages and access types. -/
namespace Sys2Proof.Machine

variable {s : State}

/-- One whole word to a register runs into the state that its write gives. -/
theorem runs_registerWrite (h : Live s) (path : RegPath) {off : BitVec 26} (ha : off.toNat % 4 = 0) {v : Word} {r : Reads} {u : State}
    (hu : s.regWrite off.toNat v r = u) : Runs (exec (.registerWrite path off [(v, true)] r) s) (· = u) := by
  rw [exec_registerWrite_one h path ha]
  exact runs_settled hu

/-- An alias word of SYS_SCRATCH sets the one bit it stands for. -/
theorem runs_scratchAlias (h : Live s) (path : RegPath) (b : Fin 32) (v : Word) :
    Runs (exec (.bitAliasWrite path (BitVec.ofNat 27 (32 * 0x4001C + 4 * b.val)) [(v, true)] {}) s) fun u =>
      u.sys.scratch.getLsbD b = v.getLsbD 0 ∧ (∀ i, i ≠ b.val → u.sys.scratch.getLsbD i = s.sys.scratch.getLsbD i) ∧
      u = { s with sys := { s.sys with scratch := u.sys.scratch } } := by
  have ha : (BitVec.ofNat 27 (32 * 0x4001C + 4 * b.val)).toNat % 4 = 0 := by rw [scratchAlias_toNat]; omega
  rw [exec_bitAliasWrite_one h path ha, scratchAlias_toNat, State.aliasWrite_scratch]
  refine runs_settled ⟨?_, fun i hib => ?_, rfl⟩
  · rw [getLsbD_bput _ _ _ _ b.isLt, if_pos rfl]
  · by_cases hi : i < 32
    · rw [getLsbD_bput _ _ _ _ hi, if_neg hib]
    · rw [BitVec.getLsbD_of_ge _ _ (by omega), BitVec.getLsbD_of_ge _ _ (by omega)]

/-- A request message that reads SYS_SCRATCH is answered with it. -/
theorem runs_readScratchMessage (h : Live s) :
    Runs (exec (.registerAccessRead ([1, 0, 1, 0] ++ toLE 4 0x4001C)) s) fun u => u = s.emit (.mgmt ([0, 0, 0, 0] ++ toLE 4 s.sys.scratch.toNat)) := by
  rw [exec_registerAccessRead (by decide), State.regAccess_readOne h (parseRegMsg_readOne (by decide) (by decide)), State.regRead_scratch]
  exact runs_settled rfl

/-- A request message that writes SYS_SCRATCH writes it and is answered. -/
theorem runs_writeScratchMessage (h : Live s) (v : Word) :
    Runs (exec (.registerAccessWrite ([2, 0, 1, 0] ++ toLE 4 0x4001C ++ toLE 4 v.toNat) {}) s) fun u =>
      u = State.emit { s with sys := { s.sys with scratch := v } } (.mgmt [0, 0, 0, 0]) := by
  have hcmd : fieldAt ([2, 0, 1, 0] ++ toLE 4 0x4001C ++ toLE 4 v.toNat) 0 1 = 2 := rfl
  rw [exec_registerAccessWrite (by omega), State.regAccess_writeOne h (parseRegMsg_writeOne (by decide) (by decide) v), State.regWrite_scratch]
  exact runs_settled rfl

/-- A request message that breaks the format is flagged and answered with status 1. -/
theorem runs_badMessage (h : Live s) {body : Bytes} (hp : parseRegMsg body = none) (hcmd : fieldAt body 0 1 ≠ 2) :
    Runs (exec (.registerAccessRead body) s) fun u => u = State.emit { s with sys := { s.sys with mgmtFmt := true } } (.mgmt [1, 0, 0, 0]) := by
  rw [exec_registerAccessRead hcmd, State.regAccess_badFormat h hp]
  exact runs_settled rfl

/-- Settles O11: each access is reduced to its one register operation, and SYS_SCRATCH by its own equations. -/
theorem registerWordsAndMessages : Obligations.RegisterWordsAndMessages := by
  intro s path h
  refine ⟨fun off v reads ha _ => runs_registerWrite h path ha rfl, fun v => runs_registerWrite h path rfl (State.regWrite_scratch v {}), ?_,
    runs_scratchAlias h path, runs_readScratchMessage h, runs_writeScratchMessage h, fun body => runs_badMessage h⟩
  intro off v ha _
  rw [exec_registerWrite_partial h ha]
  exact runs_settled rfl

/-- Settles O13: each clause is one register's write equation. -/
theorem lockedAndWriteOneFields : Obligations.LockedAndWriteOneFields := by
  intro s path v h
  exact ⟨runs_registerWrite h path rfl (State.regWrite_svnMin v {}), runs_registerWrite h path rfl (State.regWrite_revoke v {}),
    runs_registerWrite h path rfl (State.regWrite_sysFlags v {})⟩

end Sys2Proof.Machine
end

section
/-! SUPPORT. The status of a load, the writes of the flash store, what GO carries and loads, and the end of a drain (R66–R83). -/
namespace Sys2Proof.Machine

variable {s : State}

/-! ### The status of a load (R82) -/

@[simp] theorem State.loadErr_err (s : State) (code : Nat) (sec : Option Nat) : (s.loadErr code sec).grist.err = BitVec.ofNat 8 code := rfl
@[simp] theorem State.loadErr_pstate (s : State) (code : Nat) (sec : Option Nat) (p : Nat) : (s.loadErr code sec).pstate p = s.pstate p := rfl
@[simp] theorem State.loadErr_state (s : State) (code : Nat) (sec : Option Nat) : (s.loadErr code sec).grist.state = s.grist.state := rfl
@[simp] theorem State.loadErr_load (s : State) (code : Nat) (sec : Option Nat) : (s.loadErr code sec).grist.load = s.grist.load := rfl

@[simp] theorem State.pstate_setPstate_same (s : State) (p : Nat) (v : PState) : (s.setPstate p v).pstate p = v := by
  simp [State.setPstate, State.pstate]

@[simp] theorem State.setPstate_state (s : State) (p : Nat) (v : PState) : (s.setPstate p v).grist.state = s.grist.state := rfl
@[simp] theorem State.setPstate_load (s : State) (p : Nat) (v : PState) : (s.setPstate p v).grist.load = s.grist.load := rfl

/-! ### Carriers and the flash store (R66, R75) -/

@[simp] theorem State.carrier_modCarrier_same (s : State) (c : Nat) (f : Carrier → Carrier) : (s.modCarrier c f).carrier c = f (s.carrier c) := by
  simp [State.modCarrier, State.carrier, SMap.modify]

theorem State.carrier_modCarrier_ne (s : State) {c d : Nat} (f : Carrier → Carrier) (h : d ≠ c) : (s.modCarrier c f).carrier d = s.carrier d := by
  simp [State.modCarrier, State.carrier, SMap.modify, h]

/-- The store of one carrier as a write leaves it: changed where the carrier has power. -/
def State.writeStore (f : FlashStore → FlashStore) (s : State) (c : Nat) : State :=
  if (s.carrier c).pgood then s.modCarrier c fun k => { k with store := f k.store } else s

theorem State.carrier_writeStore_same (f : FlashStore → FlashStore) (s : State) {c : Nat} (h : (s.carrier c).pgood = true) :
    (s.writeStore f c).carrier c = { s.carrier c with store := f (s.carrier c).store } := by
  rw [State.writeStore, if_pos h, State.carrier_modCarrier_same]

theorem State.carrier_writeStore_ne (f : FlashStore → FlashStore) (s : State) {c d : Nat} (h : d ≠ c) : (s.writeStore f c).carrier d = s.carrier d := by
  unfold State.writeStore
  split
  · exact s.carrier_modCarrier_ne _ h
  · rfl

/-- Writes to stores change the carriers only. -/
theorem State.foldl_writeStore_eq (f : FlashStore → FlashStore) (l : List Nat) :
    ∀ s : State, l.foldl (State.writeStore f) s = { s with carriers := (l.foldl (State.writeStore f) s).carriers } := by
  induction l with
  | nil => intro s; rfl
  | cons c r ih =>
    intro s
    have hone : s.writeStore f c = { s with carriers := (s.writeStore f c).carriers } := by
      unfold State.writeStore
      split <;> rfl
    rw [List.foldl_cons, ih, hone]

/-- Writes to other carriers' stores leave a carrier alone. -/
theorem State.carrier_foldl_writeStore_ne (f : FlashStore → FlashStore) {l : List Nat} {d : Nat} (h : d ∉ l) :
    ∀ s : State, (l.foldl (State.writeStore f) s).carrier d = s.carrier d := by
  induction l with
  | nil => intro s; rfl
  | cons c r ih =>
    intro s
    rw [List.mem_cons, not_or] at h
    obtain ⟨hc, hr⟩ := h
    rw [List.foldl_cons, ih hr, State.carrier_writeStore_ne f s hc]

/-- Each powered carrier of the list has its store written once. -/
theorem State.carrier_foldl_writeStore (f : FlashStore → FlashStore) {l : List Nat} (hl : l.Nodup) {d : Nat} (h : d ∈ l) :
    ∀ s : State, (s.carrier d).pgood = true → (l.foldl (State.writeStore f) s).carrier d = { s.carrier d with store := f (s.carrier d).store } := by
  induction l with
  | nil => simp at h
  | cons c r ih =>
    intro s hd
    obtain ⟨hc, hr⟩ := List.nodup_cons.1 hl
    rw [List.foldl_cons]
    obtain rfl | hdr := List.mem_cons.1 h
    · rw [State.carrier_foldl_writeStore_ne f hc, State.carrier_writeStore_same f s hd]
    · have hne : d ≠ c := fun e => hc (e ▸ hdr)
      have hsame := State.carrier_writeStore_ne f s hne
      rw [ih hr hdr _ (hsame ▸ hd), hsame]

/-- With no failing copy the store is written on every powered carrier, and nothing else changes (R75). -/
theorem State.writeStores_eq (h : s.copies.reduceOption.any (·.failing) = false) (f : FlashStore → FlashStore) :
    ∃ m, s.writeStores f = (true, { s with carriers := m }) ∧
      ∀ c < 8, (s.carrier c).pgood = true → m.get Carrier.reset c = { s.carrier c with store := f (s.carrier c).store } := by
  refine ⟨((List.range 8).foldl (State.writeStore f) s).carriers, ?_, fun c hc hp => ?_⟩
  · unfold State.writeStores
    rw [if_neg (by simp [h]), ← State.foldl_writeStore_eq]
    rfl
  · exact State.carrier_foldl_writeStore f List.nodup_range (List.mem_range.2 hc) s hp

/-- A store with a full image put into the slot that is not active, marked pending or active, with no overlay (R75). -/
def withFull (slot : Bool) (b : Bytes) (pend : Bool) (x : FlashStore) : FlashStore :=
  { putSlot x slot b with overlays := [], pending := if pend then some slot else none, activeB := if pend then x.activeB else slot }

/-- The slot just written holds the image. -/
theorem storeSlot_withFull (slot : Bool) (b : Bytes) (pend : Bool) (x : FlashStore) : storeSlot (withFull slot b pend x) slot = some b := by
  cases slot <;> rfl

/-- With no failing copy a full image is stored on every powered carrier, and the load ends well (R73, R75). -/
theorem State.persistFull_eq (h : s.copies.reduceOption.any (·.failing) = false) (b : Bytes) (pend : Bool) :
    ∃ m, s.persistFull b pend = State.loadErr { s with carriers := m } 0 none ∧
      ∀ c < 8, (s.carrier c).pgood = true → m.get Carrier.reset c = { s.carrier c with store := withFull (!s.storeRec.activeB) b pend (s.carrier c).store } := by
  obtain ⟨m, hm, hc⟩ := State.writeStores_eq h (withFull (!s.storeRec.activeB) b pend)
  refine ⟨m, ?_, hc⟩
  change (match s.writeStores (withFull (!s.storeRec.activeB) b pend) with | (true, s) => s.loadErr 0 none | (false, s) => s.loadErr 0x1C none) = _
  rw [hm]

/-! ### GO (R82, R83) -/

/-- The state with the fields that a write of GRIST_CTRL carries. -/
def State.withGo (s : State) (src : BitVec 2) (persist : Bool) (ms : BitVec 8) : State :=
  { s with grist := { s.grist with src := src, persist := persist, drainMs := ms } }

theorem goWord_lt (src : BitVec 2) (persist : Bool) (ms : BitVec 8) : goWord src.toNat persist ms < 2 ^ 32 := by
  have hp : b2n persist ≤ 1 := by cases persist <;> decide
  unfold goWord
  omega

/-- The bits of a GO word are its fields (R82). -/
theorem goWord_fields (src : BitVec 2) (persist : Bool) (ms : BitVec 8) :
    (goWord src.toNat persist ms).testBit 0 = true ∧ bitsOf (goWord src.toNat persist ms) 2 1 = src.toNat ∧
      (goWord src.toNat persist ms).testBit 3 = persist ∧ bitsOf (goWord src.toNat persist ms) 15 8 = ms.toNat := by
  have hp : b2n persist ≤ 1 := by cases persist <;> decide
  refine ⟨?_, ?_, ?_, ?_⟩
  · rw [Nat.testBit_zero, goWord]
    exact decide_eq_true (by omega)
  · rw [bitsOf, Nat.shiftRight_eq_div_pow, goWord]
    omega
  · rw [Nat.testBit_eq_decide_div_mod_eq, goWord]
    cases persist <;> simp [b2n] <;> omega
  · rw [bitsOf, Nat.shiftRight_eq_div_pow, goWord]
    omega

/-- GO takes up the fields of its write, then loads from its source (R83). -/
theorem State.gristCtrl_goWord (s : State) (src : BitVec 2) (persist : Bool) (ms : BitVec 8) (r : Reads) :
    s.gristCtrl (BitVec.ofNat 32 (goWord src.toNat persist ms)) r =
      if src = 0 then (s.withGo src persist ms).loadStore false r
      else if src = 1 then (s.withGo src persist ms).loadStore true r
      else if src = 2 then (s.withGo src persist ms).goHost persist r
      else (s.withGo src persist ms).goReserved := by
  obtain ⟨hgo, hsrc, hpersist, hms⟩ := goWord_fields src persist ms
  have hn : (BitVec.ofNat 32 (goWord src.toNat persist ms)).toNat = goWord src.toNat persist ms := by
    rw [BitVec.toNat_ofNat, Nat.mod_eq_of_lt (goWord_lt src persist ms)]
  have hbit (i : Nat) : (BitVec.ofNat 32 (goWord src.toNat persist ms)).getLsbD i = (goWord src.toNat persist ms).testBit i := by
    rw [BitVec.getLsbD, hn]
  simp only [State.gristCtrl, hbit, hn, hgo, hsrc, hpersist, hms, BitVec.ofNat_toNat, BitVec.setWidth_eq, Bool.not_true]
  have hcases : ∀ x : BitVec 2, x = 0 ∨ x = 1 ∨ x = 2 ∨ x = 3 := by decide
  obtain rfl | rfl | rfl | rfl := hcases src <;> rfl

/-- While the registers answer, a GO word is written to GRIST_CTRL by either path. -/
theorem regVia_gristCtrl (h : Live s) (path : RegPath) (src : BitVec 2) (persist : Bool) (ms : BitVec 8) (r : Reads) :
    s.regVia path gristCtrlAt (goWord src.toNat persist ms) r = s.gristCtrl (BitVec.ofNat 32 (goWord src.toNat persist ms)) r := by
  rw [State.regVia, State.spaceWrite, State.viaReg_live h]
  change s.regWrite 0x60000 _ r = _
  rw [State.regWrite_block (b := .grist) rfl]
  change s.gristCtrl (BitVec.ofNat 32 (BitVec.ofNat 32 (goWord src.toNat persist ms)).toNat) r = _
  rw [BitVec.ofNat_toNat, BitVec.setWidth_eq]

section Go
variable (h : Live s) (path : RegPath) (persist : Bool) (ms : BitVec 8) (r : Reads)
include h

theorem exec_goFlashStore : exec (.goFlashStore path persist ms r) s = settled ((s.withGo 0 persist ms).loadStore false r) :=
  congrArg settled ((regVia_gristCtrl h path 0 persist ms r).trans (s.gristCtrl_goWord 0 persist ms r))

theorem exec_goInactiveSlot : exec (.goInactiveSlot path persist ms r) s = settled ((s.withGo 1 persist ms).loadStore true r) :=
  congrArg settled ((regVia_gristCtrl h path 1 persist ms r).trans (s.gristCtrl_goWord 1 persist ms r))

theorem exec_goHostBuffer : exec (.goHostBuffer path persist ms r) s = settled ((s.withGo 2 persist ms).goHost persist r) :=
  congrArg settled ((regVia_gristCtrl h path 2 persist ms r).trans (s.gristCtrl_goWord 2 persist ms r))

theorem exec_goSourceReserved : exec (.goSourceReserved path persist ms) s = settled (s.withGo 3 persist ms).goReserved :=
  congrArg settled ((regVia_gristCtrl h path 3 persist ms {}).trans (s.gristCtrl_goWord 3 persist ms {}))

end Go

/-! ### What GO loads (R67, R73, R74) -/

section Load
variable (hbusy : s.grist.busy = false) (hbar : s.loadBarred = false)
include hbusy hbar

/-- With no image running, no pending slot and a good copy of the active slot, that copy is loaded (R67). -/
theorem State.loadStore_active {b : Bytes} {n : Nat} (hrun : s.grist.state ≠ .running) (hpend : s.storeRec.pending = none)
    (hpick : (s.beginLoad none).pickCopy false (1, none) 0 (s.copies.map fun x => x.bind fun y => storeSlot y s.storeRec.activeB) = .ok (b, n))
    (r : Reads) :
    s.loadStore false r = State.runFull { s.beginLoad none with grist := { (s.beginLoad none).grist with fallback := decide (n > 0) } } b r := by
  have hrec : (s.beginLoad none).storeRec = s.storeRec := rfl
  have hcop : (s.beginLoad none).copies = s.copies := rfl
  unfold State.loadStore
  rw [if_neg (by simp [hbusy, hbar, hrun])]
  simp only [hrec, hcop, hpend, Option.getD_none, Bool.false_eq_true, if_false, hpick]
  rfl

/-- With no image running and a good copy of the slot that is not active, every store is marked and that copy is loaded (R74). -/
theorem State.loadStore_inactive {b : Bytes} {n : Nat} (hrun : s.grist.state ≠ .running)
    (hfail : s.copies.reduceOption.any (·.failing) = false)
    (hpick : (s.beginLoad none).pickCopy false (1, none) 0 (s.copies.map fun x => x.bind fun y => storeSlot y (!s.storeRec.activeB)) = .ok (b, n))
    (r : Reads) : ∃ m, s.loadStore true r =
        State.runFull { s.beginLoad none with grist := { (s.beginLoad none).grist with fallback := decide (n > 0) }, carriers := m } b r ∧
      ∀ c < 8, (s.carrier c).pgood = true → (m.get Carrier.reset c).store.activeB = !s.storeRec.activeB := by
  have hrec : (s.beginLoad none).storeRec = s.storeRec := rfl
  have hcop : (s.beginLoad none).copies = s.copies := rfl
  obtain ⟨m, hm, hc⟩ := State.writeStores_eq (s := s.beginLoad none) hfail fun x =>
    { x with activeB := !s.storeRec.activeB, pending := if x.pending == some (!s.storeRec.activeB) then none else x.pending }
  refine ⟨m, ?_, fun c hc8 hp => by rw [hc c hc8 hp]⟩
  unfold State.loadStore
  rw [if_neg (by simp [hbusy, hbar, hrun])]
  simp only [hrec, hcop, if_true, Bool.true_or, hpick, hm]

/-- A source that is reserved ends the load with SOURCE, and a running image runs on (R74). -/
theorem State.goReserved_eq : s.goReserved = (s.beginLoad none).failLoad 1 none := by
  simp [State.goReserved, hbusy, hbar]

/-- A good partial image in the host buffer starts its drain, while an image runs (R77). -/
theorem State.goHost_partial {b : Bytes} {r : Reads} (persist : Bool) (hrun : s.grist.state = .running) (himg : s.hostImage r.buf = some b)
    (hpart : imgPartial b = true) (hchk : (s.beginLoad (some (imgTarget b % 32))).checkLoad true b (some b.length) = none) :
    s.goHost persist r = (s.beginLoad (some (imgTarget b % 32))).startDrainOf b persist := by
  unfold State.goHost
  rw [if_neg (by simp [hbusy, hbar])]
  simp [himg, hpart, hrun, hchk]

end Load

/-- A good full image that comes while one runs is stored for the next start (R73). -/
theorem State.loadFull_running {b : Bytes} {hostLen : Option Nat} (persist : Bool) (r : Reads) (hrun : s.grist.state = .running)
    (hchk : (s.beginLoad none).checkLoad false b hostLen = none) :
    s.loadFull b hostLen persist r = (s.beginLoad none).persistFull b true := by
  have hrun' : (s.beginLoad none).grist.state = .running := hrun
  simp [State.loadFull, hchk, hrun']

/-- A failed load keeps a running image, and otherwise leaves the node without one (R72, R73, R77). -/
theorem State.failLoad_eq (s : State) (code : Nat) (sec : Option Nat) :
    ∃ g, s.failLoad code sec = { s with grist := g } ∧ g.err = BitVec.ofNat 8 code ∧ g.fallback = s.grist.fallback ∧
      g.state = if s.grist.state = .running then .running else .failed := by
  unfold State.failLoad
  dsimp only
  split
  next h =>
    have hrun : s.grist.state = .running := by simpa only [State.loadErr_state, beq_iff_eq] using h
    exact ⟨_, rfl, rfl, rfl, by rw [if_pos hrun]; exact hrun⟩
  next h =>
    have hrun : s.grist.state ≠ .running := by simpa only [State.loadErr_state, beq_iff_eq] using h
    exact ⟨_, rfl, rfl, rfl, by rw [if_neg hrun]⟩

/-- With a limit other than 0 a drain starts: the load stands in the GRIST block, and its partition reloads (R77 step 2). -/
theorem State.startDrainOf_eq (hms : s.grist.drainMs ≠ 0) (b : Bytes) (persist : Bool) :
    ∃ g, s.startDrainOf b persist = { s with grist := g } ∧ g.state = .draining ∧
      g.load = some ⟨parseImage b, b, persist, s.time.up, s.grist.drainMs.toNat⟩ ∧
      (s.pstate (parseImage b).target = .running → g.pstate.get .absent (parseImage b).target = .reloading) := by
  have hne : (s.grist.drainMs.toNat == 0) = false := beq_false_of_ne fun e => hms (BitVec.eq_of_toNat_eq e)
  have hp : (s.setPstate (parseImage b).target .reloading).pstate (parseImage b).target = .reloading := State.pstate_setPstate_same s _ _
  unfold State.startDrainOf
  by_cases hrun : s.pstate (parseImage b).target = .running
  · simp only [hne, hrun, beq_self_eq_true, Bool.false_and, Bool.false_eq_true, if_true, if_false]
    split <;> exact ⟨_, rfl, rfl, rfl, fun _ => hp⟩
  · simp only [hne, hrun, beq_iff_eq, Bool.false_and, Bool.false_eq_true, if_false]
    split <;> exact ⟨_, rfl, rfl, rfl, fun h => h.elim⟩

/-! ### The end of a drain (R77–R80) -/

/-- The end of a drain waits for nothing: none of the partition's work is in flight, it is not in reset, and no tile is under test. -/
def State.DrainDone (s : State) (t : Nat) : Prop :=
  (s.part? t).any s.partBusyWith = false ∧ t ∉ s.rst.partBusy ∧ ∀ tiles, s.tilesUnderTest tiles = false

/-- With no tests there is no tile under test. -/
theorem State.tilesUnderTest_idle (hq : s.flt.queue = []) (hr : s.flt.running = []) (tiles : List Nat) : s.tilesUnderTest tiles = false := by
  simp [State.tilesUnderTest, hq, hr]

theorem State.drainDone_of {t : Nat} (hwork : ∀ p, s.part? t = some p → s.partBusyWith p = false) (hreset : t ∉ s.rst.partBusy)
    (hq : s.flt.queue = []) (hr : s.flt.running = []) : s.DrainDone t := by
  refine ⟨?_, hreset, State.tilesUnderTest_idle hq hr⟩
  cases hp : s.part? t with
  | none => rfl
  | some p => exact hwork p hp

section DrainEnd
variable {l : Machine.Load} (hl : s.grist.load = some l) (hd : s.grist.state = .draining)
include hd in
/-- A drain that waits for nothing ends. -/
theorem State.drainEnd_guard (hdone : s.DrainDone l.image.target) (tiles : List Nat) :
    ¬ (s.grist.state != .draining || (s.part? l.image.target).any s.partBusyWith || s.rst.partBusy.contains l.image.target ||
      s.tilesUnderTest tiles) = true := by
  obtain ⟨hwork, hreset, htest⟩ := hdone
  simp [hd, hwork, hreset, htest]

include hl hd

/-- A drain that ends whole applies its image (R77 step 3). -/
theorem State.drainEnd_apply (hdone : s.DrainDone l.image.target) (hp : l.persist = false) (r : Reads) :
    s.drainEnd false r =
      (((State.applyPart { s with grist := { s.grist with state := .running, load := none } } l.image false).recoverPending
        r.unread r.badRecs).loadErr 0 none).kick := by
  simp only [State.drainEnd, hl]
  rw [if_neg (State.drainEnd_guard hd hdone _), hp]
  rfl

/-- A hardware fault leaves the partition failed and the old image running (R80). -/
theorem State.drainEnd_fault (hdone : s.DrainDone l.image.target) (r : Reads) :
    ∃ v : State, s.drainEnd true r =
      (State.setPstate { v with grist := { v.grist with state := .running, load := none } } l.image.target .failed).loadErr 0x1B none := by
  simp only [State.drainEnd, hl]
  rw [if_neg (State.drainEnd_guard hd hdone _)]
  exact ⟨_, rfl⟩

/-- The limit of a drain moves the clock up to it and ends the drain (R78). -/
theorem State.drainTimeout_eq : s.drainTimeout = ((s.advanceTo (l.drainAt + l.drainMs * 1000000)).drainFailed l.image.target).kick := by
  simp [State.drainTimeout, hl, hd]

end DrainEnd

/-- The clock moves up to a time, never back. -/
theorem State.advanceTo_up (s : State) (t : Nat) : (s.advanceTo t).time.up = max s.time.up t := by
  have h : (s.advanceTo t).time.up = s.time.up + (t - s.time.up) := by
    unfold State.advanceTo State.advance TimeBase.advance
    split <;> rfl
  omega

/-- A drain that ends without an apply leaves the old image running, with error 0x1A (R78). -/
theorem State.drainFailed_eq (s : State) (p : Nat) : ∃ g, s.drainFailed p = { s with grist := g } ∧ g.state = .running ∧ g.load = none ∧ g.err = 0x1A := by
  unfold State.drainFailed
  dsimp only
  split <;> split <;> exact ⟨_, rfl, rfl, rfl, rfl⟩

end Sys2Proof.Machine
end

section
/-! PROOFS. The statements of 02_grist_image about loads and drains. -/
namespace Sys2Proof.Machine

section Go
variable {s : State} (h : Live s) (hbusy : s.grist.busy = false) (hbar : s.loadBarred = false) (path : RegPath) (persist : Bool) (ms : BitVec 8)
include h hbusy hbar

/-- GO on the flash store loads the first good copy of the active slot. -/
theorem runs_goFlashStore {b : Bytes} {n : Nat} (reads : Reads) (hrun : s.grist.state ≠ .running) (hpend : s.storeRec.pending = none)
    (hpick : ((s.withGo 0 persist ms).beginLoad none).pickCopy false (1, none) 0
      (s.copies.map fun x => x.bind fun y => storeSlot y s.storeRec.activeB) = .ok (b, n)) :
    Runs (exec (.goFlashStore path persist ms reads) s) fun u => u = State.runFull
      { (s.withGo 0 persist ms).beginLoad none with
        grist := { ((s.withGo 0 persist ms).beginLoad none).grist with fallback := decide (n > 0) } } b reads := by
  rw [exec_goFlashStore h]
  exact runs_settled (State.loadStore_active (s := s.withGo 0 persist ms) hbusy hbar hrun hpend hpick reads)

/-- GO on the inactive slot loads its first good copy, and every powered carrier's store names that slot. -/
theorem runs_goInactiveSlot {b : Bytes} {n : Nat} (reads : Reads) (hrun : s.grist.state ≠ .running)
    (hfail : s.copies.reduceOption.any (·.failing) = false)
    (hpick : ((s.withGo 1 persist ms).beginLoad none).pickCopy false (1, none) 0
      (s.copies.map fun x => x.bind fun y => storeSlot y (!s.storeRec.activeB)) = .ok (b, n)) :
    Runs (exec (.goInactiveSlot path persist ms reads) s) fun u => ∃ v : State, u = v.runFull b reads ∧ v.grist.fallback = decide (n > 0) ∧
      (∀ c < 8, (s.carrier c).pgood = true → (v.carrier c).store.activeB = !s.storeRec.activeB) ∧
      v = { s.withGo 1 persist ms with grist := v.grist, carriers := v.carriers } := by
  rw [exec_goInactiveSlot h]
  obtain ⟨m, hload, hm⟩ := State.loadStore_inactive (s := s.withGo 1 persist ms) hbusy hbar hrun hfail hpick reads
  exact runs_settled ⟨_, hload, rfl, hm, rfl⟩

/-- GO on a good partial image in the host buffer starts its drain. -/
theorem runs_goHostBuffer {b : Bytes} {reads : Reads} (hrun : s.grist.state = .running)
    (himg : (s.withGo 2 persist ms).hostImage reads.buf = some b) (hpart : imgPartial b = true) (hms : ms ≠ 0)
    (hchk : ((s.withGo 2 persist ms).beginLoad (some (imgTarget b % 32))).checkLoad true b (some b.length) = none) :
    Runs (exec (.goHostBuffer path persist ms reads) s) fun u => u.grist.state = .draining ∧
      u.grist.load = some ⟨parseImage b, b, persist, s.time.up, ms.toNat⟩ ∧
      (s.pstate (parseImage b).target = .running → u.pstate (parseImage b).target = .reloading) ∧ u = { s with grist := u.grist } := by
  rw [exec_goHostBuffer h, State.goHost_partial (s := s.withGo 2 persist ms) hbusy hbar persist hrun himg hpart hchk]
  obtain ⟨g, hg, hstate, hload, hp⟩ :=
    State.startDrainOf_eq (s := (s.withGo 2 persist ms).beginLoad (some (imgTarget b % 32))) hms b persist
  rw [hg]
  exact runs_settled ⟨hstate, hload, hp, rfl⟩

/-- GO on a reserved source ends with SOURCE. -/
theorem runs_goSourceReserved : Runs (exec (.goSourceReserved path persist ms) s) fun u => u.grist.err = 1 ∧ u.grist.fallback = false ∧
    u.grist.state = (if s.grist.state = .running then .running else .failed) ∧ u = { s with grist := u.grist } := by
  rw [exec_goSourceReserved h, State.goReserved_eq (s := s.withGo 3 persist ms) hbusy hbar]
  obtain ⟨g, hg, herr, hfall, hstate⟩ := ((s.withGo 3 persist ms).beginLoad none).failLoad_eq 1 none
  rw [hg]
  exact runs_settled ⟨herr, hfall, hstate, rfl⟩

/-- A firmware update with an image running is kept as the pending slot of every powered carrier. -/
theorem runs_pldmFirmwareUpdate {image : Bytes} (reads : Reads) (hrun : s.grist.state = .running)
    (hchk : (s.beginLoad none).checkLoad false image none = none) (hfail : s.copies.reduceOption.any (·.failing) = false) :
    Runs (exec (.pldmFirmwareUpdate image reads) s) fun u => u.grist.err = 0 ∧
      (∀ c < 8, (s.carrier c).pgood = true → storeSlot (u.carrier c).store (!s.storeRec.activeB) = some image ∧
        (u.carrier c).store.pending = some (!s.storeRec.activeB)) ∧ u = { s with grist := u.grist, carriers := u.carriers } := by
  obtain ⟨hlive, -⟩ := h
  obtain ⟨m, hstore, hm⟩ := State.persistFull_eq (s := s.beginLoad none) hfail image true
  have hexec : exec (.pldmFirmwareUpdate image reads) s = settled ((s.beginLoad none).persistFull image true) := by
    change execPldmFirmwareUpdate image reads s = _
    simp [execPldmFirmwareUpdate, hlive, hbusy, hbar, State.loadFull_running true reads hrun hchk]
  rw [hexec, hstore]
  refine runs_settled ⟨rfl, fun c hc hp => ?_, rfl⟩
  have hcar : (State.loadErr { s.beginLoad none with carriers := m } 0 none).carrier c = _ := hm c hc hp
  rw [hcar]
  exact ⟨storeSlot_withFull _ _ _ _, rfl⟩

end Go

/-- Settles O15: each source of GO is reduced to its load, and the update to the write of the stores. -/
theorem gristLoadsAndRegrist : Obligations.GristLoadsAndRegrist := by
  intro s path persist ms reads h hbusy hbar
  exact ⟨fun _ _ => runs_goFlashStore h hbusy hbar path persist ms reads,
    fun _ _ hrun _ => runs_goInactiveSlot h hbusy hbar path persist ms reads hrun,
    fun _ => runs_goHostBuffer h hbusy hbar path persist ms,
    runs_goSourceReserved h hbusy hbar path persist ms, fun _ => runs_pldmFirmwareUpdate h hbusy hbar reads⟩

/-- Settles O16: a drain that waits for nothing ends in its apply or its fault, and the limit ends it as failed. -/
theorem regristDrainsEnd : Obligations.RegristDrainsEnd := by
  intro s l reads hl hd
  refine ⟨fun hwork hreset hq hr => ?_, ?_⟩
  · have hdone := State.drainDone_of hwork hreset hq hr
    refine ⟨fun hp => ?_, ?_⟩
    · exact ⟨_, congrArg settled (State.drainEnd_apply hl hd hdone hp reads), rfl, rfl⟩
    · obtain ⟨v, hv⟩ := State.drainEnd_fault hl hd hdone reads
      exact ⟨_, congrArg settled hv, by simp, rfl, rfl, rfl⟩
  · obtain ⟨g, hg, hstate, hload, herr⟩ := State.drainFailed_eq (s.advanceTo (l.drainAt + l.drainMs * 1000000)) l.image.target
    refine ⟨_, congrArg settled (State.drainTimeout_eq hl hd), ?_⟩
    rw [hg]
    exact ⟨hstate, hload, herr, State.advanceTo_up s _, rfl⟩

end Sys2Proof.Machine
end

section
/-! SUPPORT. The work that a map, a request or an answer sets going keeps the CLOCK block: stamps, records and messages, queues and answers,
queries, updates, admission and the roles of shards. One lemma for each operation; a lemma rests on those above it. Where an operation reads a
descriptor or computes a cut, its lemma first gives that part a name that says no more (`obtain ⟨f, hf⟩ : ∃ f, f = …`): the kernel would
evaluate the reading, of some hundred bytes, when it compares the branches of the choice that follows. -/
namespace Sys2Proof.Machine

variable (s : State)

/-- A fold keeps what each of its steps keeps. -/
theorem foldl_keeps {α β γ : Type} (g : β → γ) {f : β → α → β} (h : ∀ b a, g (f b a) = g b) (l : List α) : ∀ b, g (l.foldl f b) = g b := by
  induction l with
  | nil => intro b; rfl
  | cons a r ih => intro b; rw [List.foldl_cons, ih, h]

@[simp] theorem foldl_clk {α : Type} {f : State → α → State} (h : ∀ s a, (f s a).clk = s.clk) (l : List α) (s : State) : (l.foldl f s).clk = s.clk :=
  foldl_keeps State.clk h l s

/-- The state of a pair whose parts are named. -/
theorem clk_of_pair {s t : State} {α : Type} {x : α × State} {a : α} (hx : x = (a, t)) (h : x.2.clk = s.clk) : t.clk = s.clk := by
  rw [← h, hx]

/-- Either way of a choice. -/
theorem clk_ite {c : Prop} [Decidable c] {a b s : State} (ha : a.clk = s.clk) (hb : b.clk = s.clk) : (if c then a else b).clk = s.clk := by
  split <;> assumption

/-! ### Stamps, records of the log and of the capture -/

@[simp] theorem State.caskClose_clk : s.caskClose.clk = s.clk := by
  unfold State.caskClose
  split <;> simp

@[simp] theorem State.takeStamp_clk : s.takeStamp.2.clk = s.clk := by
  unfold State.takeStamp
  dsimp only
  split <;> simp

@[simp] theorem State.zeroStamp_clk : s.zeroStamp.2.clk = s.clk := rfl

@[simp] theorem State.stampOrZero_clk : s.stampOrZero.2.clk = s.clk := by
  unfold State.stampOrZero
  split <;> simp

@[simp] theorem State.emit_clk (o : Out) : (s.emit o).clk = s.clk := rfl

@[simp] theorem State.logRecord_clk (r : Report) : (s.logRecord r).2.clk = s.clk := by
  unfold State.logRecord
  dsimp only
  repeat' split
  all_goals simp

@[simp] theorem State.caskPut_clk (typ part source : Nat) (body : Bytes) : (s.caskPut typ part source body).clk = s.clk := by
  unfold State.caskPut
  dsimp only
  repeat' split
  all_goals simp

@[simp] theorem State.caskRec_clk (typ part source : Nat) (body : Bytes) : (s.caskRec typ part source body).clk = s.clk := by
  unfold State.caskRec
  split <;> simp

@[simp] theorem State.caskEvent_clk (part ev : Nat) (payload : Bytes) : (s.caskEvent part ev payload).clk = s.clk := by simp [State.caskEvent]

/-! ### Messages to other nodes and the copy of a shard -/

@[simp] theorem State.modShard_clk (i : Nat) (f : Shard → Shard) : (s.modShard i f).clk = s.clk := rfl

@[simp] theorem State.nodeHeader_clk (kind bodyLen tag : Nat) : (s.nodeHeader kind bodyLen tag).2.clk = s.clk := by simp [State.nodeHeader]

@[simp] theorem State.setChan_clk (c : Nat) (v : Chan) : (s.setChan c v).clk = s.clk := by
  unfold State.setChan
  dsimp only
  split <;> simp

@[simp] theorem State.enqueue_clk (c cls : Nat) (m : EgMsg) : (s.enqueue c cls m).clk = s.clk := by
  unfold State.enqueue
  dsimp only
  split <;> simp

@[simp] theorem State.sendMsg_clk (i : SendInfo) (data : Bytes) : (s.sendMsg i data).clk = s.clk := by
  unfold State.sendMsg
  dsimp only
  repeat' split
  all_goals simp

@[simp] theorem State.sendNode_clk (dest kind : Nat) (body : Bytes) (tag : Nat) :
    (s.sendNode dest kind body tag).clk = s.clk := by simp [State.sendNode]

@[simp] theorem State.syncSend_clk (dest shard : Nat) (cut : Stamp) (fuel seq : Nat) (b : Bytes) :
    (s.syncSend dest shard cut fuel seq b).clk = s.clk := by
  induction fuel generalizing s seq b with
  | zero => rfl
  | succ n ih =>
    unfold State.syncSend
    dsimp only
    split <;> simp [ih]

@[simp] theorem State.startSync_clk (x : MapShard) : (s.startSync x).clk = s.clk := by
  unfold State.startSync
  dsimp only
  repeat' split
  all_goals simp

@[simp] theorem State.sendNodeFirst_clk (dest kind : Nat) (body : Bytes) :
    (s.sendNodeFirst dest kind body).clk = s.clk := by simp [State.sendNodeFirst]

/-! ### Queues and the memory of a partition -/

@[simp] theorem State.sealRec_clk (seq : Nat) (st : Stamp) : (s.sealRec seq st).clk = s.clk := rfl

@[simp] theorem State.noteAck_clk (svc vid : Nat) (a : Stamp) : (s.noteAck svc vid a).clk = s.clk := by
  unfold State.noteAck
  split
  · rfl
  · split <;> rfl

@[simp] theorem State.setQueue_clk (p id : Nat) (v : QState) : (s.setQueue p id v).clk = s.clk := rfl

@[simp] theorem State.modQueue_clk (p id : Nat) (f : QState → QState) : (s.modQueue p id f).clk = s.clk := rfl

@[simp] theorem State.unqueue_clk (p id req : Nat) : (s.unqueue p id req).clk = s.clk := rfl

@[simp] theorem State.clearResv_clk (lo hi : Nat) (by_ : Option CtxRef) : (s.clearResv lo hi by_).clk = s.clk := rfl

@[simp] theorem State.modMem_clk (k : Nat) (f : MemCtl → MemCtl) : (s.modMem k f).clk = s.clk := rfl

@[simp] theorem State.locWrite_clk (l : Loc) (b : Bytes) (by_ : Option CtxRef) : (s.locWrite l b by_).clk = s.clk := by
  unfold State.locWrite
  dsimp only
  repeat' split
  all_goals simp

@[simp] theorem State.pmWrite_clk (p : Part) (o : Nat) (b : Bytes) : (s.pmWrite p o b).clk = s.clk :=
  foldl_keeps (fun acc : State × Bytes => acc.1.clk) (by simp) _ _

@[simp] theorem State.slotWrite_clk (p : Part) (q : QueueDef) (slot : Nat) (b : Bytes) : (s.slotWrite p q slot b).clk = s.clk := by
  unfold State.slotWrite
  split <;> simp

@[simp] theorem State.post_clk (p : Part) (q : QueueDef) (b : Bytes) (tag : BitVec 9) (req : Option Nat) (std : Option StdWork) (atHead : Bool) :
    (s.post p q b tag req std atHead).clk = s.clk := by
  unfold State.post
  dsimp only
  split <;> simp

/-! ### Records of faults, and answers -/

@[simp] theorem State.consume_clk (r : ReplayRec) : (s.consume r).clk = s.clk := rfl

@[simp] theorem State.report_clk (r : Report) : (s.report r).clk = s.clk := by
  unfold State.report
  split
  next h =>
    have ht := clk_of_pair h (s.logRecord_clk r)
    split <;> simp [ht]
  next h => exact clk_of_pair h (s.logRecord_clk r)

@[simp] theorem State.diverge_clk (r : Option ReplayRec) : (s.diverge r).clk = s.clk := by simp [State.diverge]

@[simp] theorem State.output_clk (part : Nat) (a : Bytes) : (s.output part a).clk = s.clk := by
  unfold State.output
  dsimp only
  repeat' split
  all_goals simp

@[simp] theorem State.modReq_clk (id : Nat) (f : Req → Req) : (s.modReq id f).clk = s.clk := rfl

@[simp] theorem State.formAnswer_clk (id : Nat) (a : Ans) : (s.formAnswer id a).clk = s.clk := by
  unfold State.formAnswer
  dsimp only
  repeat' split
  all_goals simp

@[simp] theorem State.dropHold_clk (req : Nat) : (s.dropHold req).clk = s.clk := rfl

@[simp] theorem State.postSample_clk (p : Part) (u : Update) (leaf : Nat) (a : Stamp) : (s.postSample p u leaf a).clk = s.clk := by
  unfold State.postSample
  dsimp only
  repeat' split
  all_goals simp

@[simp] theorem State.ackUpdate_clk (u : Update) : (s.ackUpdate u).clk = s.clk := by
  unfold State.ackUpdate
  dsimp only
  repeat' split
  all_goals simp

/-! ### Contexts and queries -/

@[simp] theorem State.setCore_clk (c : Nat) (v : Core) : (s.setCore c v).clk = s.clk := rfl

@[simp] theorem State.modCtx_clk (r : CtxRef) (f : Ctx → Ctx) : (s.modCtx r f).clk = s.clk := rfl

@[simp] theorem State.partStamp_clk (p : Nat) : (s.partStamp p).2.clk = s.clk := by
  unfold State.partStamp
  dsimp only
  split <;> simp

@[simp] theorem State.dropQuery_clk (req : Nat) : (s.dropQuery req).clk = s.clk := rfl

@[simp] theorem State.answerQuery_clk (q : Query) (l : PartialList) (cut degraded : Bool) (missing flags : Nat) (shown : List (Nat × Nat)) :
    (s.answerQuery q l cut degraded missing flags shown).clk = s.clk := by
  unfold State.answerQuery
  split <;> simp

@[simp] theorem State.pmSet_clk (p : Part) (o n v : Nat) : (s.pmSet p o n v).clk = s.clk := by simp [State.pmSet]

@[simp] theorem State.useIndex_clk (p : Part) (n : Nat) : (s.useIndex p n).2.clk = s.clk := by
  unfold State.useIndex
  dsimp only
  repeat' split
  all_goals simp

@[simp] theorem State.plainAnswer_clk (id status : Nat) : (s.plainAnswer id status).clk = s.clk := by
  unfold State.plainAnswer
  split <;> simp

@[simp] theorem State.sendSubs_clk (p : Part) (x : Desc) (r : Req) (raw : List Nat) (peers : List (Nat × Nat)) :
    (s.sendSubs p x r raw peers).2.clk = s.clk := by
  induction peers generalizing s with
  | nil => rfl
  | cons e rest ih =>
    simp only [State.sendSubs, ih]
    split
    · rfl
    · split <;> simp

@[simp] theorem State.reportTree_clk (p : Part) (place who : Nat) : (s.reportTree p place who).clk = s.clk := by simp [State.reportTree]

@[simp] theorem State.reachAll_clk (p : Part) (x : Desc) (at_ : Stamp) (ids : List Nat) : (s.reachAll p x at_ ids).2.2.clk = s.clk := by
  induction ids generalizing s with
  | nil => rfl
  | cons n r ih =>
    unfold State.reachAll
    dsimp only
    split <;> simp [ih]

@[simp] theorem State.descend_clk (p : Part) (x : Desc) (dist : Nat) (q : List Nat) (at_ : Stamp) (level widen fuel : Nat) (ns : List Node) :
    (s.descend p x dist q at_ level widen fuel ns).2.2.clk = s.clk := by
  induction fuel generalizing s ns with
  | zero => rfl
  | succ k ih =>
    unfold State.descend
    split
    · rfl
    · dsimp only
      split <;> simp [ih]

@[simp] theorem State.walk_clk (p : Part) (x : Desc) (dist : Nat) (q : List Nat) (at_ : Stamp) (level widen : Nat) :
    (s.walk p x dist q at_ level widen).2.2.clk = s.clk := by simp [State.walk]

@[simp] theorem State.modQuery_clk (req : Nat) (f : Query → Query) : (s.modQuery req f).clk = s.clk := rfl

@[simp] theorem State.finishQuery_clk (q : Query) (local_ : PartialList) (cut : Bool) : (s.finishQuery q local_ cut).clk = s.clk := by
  unfold State.finishQuery
  dsimp only
  split <;> simp

@[simp] theorem State.localDone_clk (q : Query) (l : PartialList) : (s.localDone q l).clk = s.clk := by
  unfold State.localDone
  split <;> simp

@[simp] theorem State.postScans_clk (p : Part) (c : QueueDef) (req round tag : Nat) (scans : List (LeafScan × Nat)) :
    (s.postScans p c req round tag scans).2.clk = s.clk := by
  induction scans generalizing s with
  | nil => rfl
  | cons e r ih =>
    unfold State.postScans
    dsimp only
    split <;> simp [ih]

@[simp] theorem State.postLauter_clk (p : Part) (c : QueueDef) (req round tag : Nat) (todo : List (Nat × List Survivor)) :
    (s.postLauter p c req round tag todo).1.clk = s.clk := by
  refine foldl_keeps (fun acc : State × List Nat => acc.1.clk) (fun acc e => ?_) _ _
  split <;> simp

@[simp] theorem State.postWork_clk (req : Nat) : (s.postWork req).clk = s.clk := by
  unfold State.postWork
  dsimp only
  repeat' split
  all_goals simp

@[simp] theorem State.roundLeaves_clk (p : Part) (x : Desc) (dist : Nat) (q : List Nat) (at_ : Stamp) (ids : List Nat) :
    (s.roundLeaves p x dist q at_ ids).2.2.clk = s.clk := by
  induction ids generalizing s with
  | nil => rfl
  | cons n r ih =>
    unfold State.roundLeaves
    dsimp only
    split <;> simp [ih]

@[simp] theorem State.startRound_clk (p : Part) (x : Desc) (req b skipped : Nat) : (s.startRound p x req b skipped).clk = s.clk := by
  unfold State.startRound
  split <;> simp

/-- What a recursion on fuel keeps: its base and its step keep it. -/
theorem brecOn_clk {F : (n : Nat) → Nat.below (motive := fun _ => State → State) n → State → State} (hzero : ∀ b s, (F 0 b s).clk = s.clk)
    (hsucc : ∀ n b, (∀ s, (b.1 s).clk = s.clk) → ∀ s, (F (n + 1) b s).clk = s.clk) (n : Nat) :
    ∀ s, (Nat.brecOn (motive := fun _ => State → State) n F s).clk = s.clk := by
  induction n with
  | zero => exact hzero _
  | succ n ih => exact hsucc n _ ih

@[simp] theorem State.advanceQuery_clk (req fuel : Nat) : (s.advanceQuery req fuel).clk = s.clk := by
  obtain ⟨desc, hdesc⟩ : ∃ f, f = State.desc? := exists_eq
  delta State.advanceQuery State.advanceQuery._f
  rw [← hdesc]
  refine brecOn_clk (fun _ _ => rfl) (fun n b ih s => ?_) fuel s
  dsimp only
  split
  · rfl
  split
  · split
    · simp
    split
    · rfl
    split
    · split <;> simp [ih]
    split
    · simp
    · split <;> simp [ih]
  · rfl

@[simp] theorem State.takeQuery_clk (p : Part) (v : Service) (r : Req) : (s.takeQuery p v r).clk = s.clk := by
  obtain ⟨cut, hcut⟩ : ∃ n, n = cutOf r.td := exists_eq
  obtain ⟨useIndex, huse⟩ : ∃ f, f = State.useIndex := exists_eq
  have hclk (n : Nat) : (useIndex s p n).2.clk = s.clk := by simp [huse]
  rw [State.takeQuery, ← huse, ← hcut]
  dsimp only
  split
  · split <;> simp
  split
  · simp [hclk]
  split
  · simp [hclk]
  rw [apply_ite State.clk]
  simp [hclk]

/-! ### Updates -/

@[simp] theorem State.stampIfCan_clk : s.stampIfCan.2.clk = s.clk := by
  unfold State.stampIfCan
  split <;> simp

@[simp] theorem State.journal_clk (typ part objKind flags obj : Nat) (body : Bytes) :
    (s.journal typ part objKind flags obj body).2.clk = s.clk := by simp [State.journal]

@[simp] theorem State.voidRec_clk (seq part obj : Nat) : (s.voidRec seq part obj).clk = s.clk := by simp [State.voidRec]

@[simp] theorem State.endUpdate_clk (u : Update) (status : Nat) : (s.endUpdate u status).clk = s.clk := by
  unfold State.endUpdate
  split <;> simp

@[simp] theorem State.modUpdate_clk (req : Nat) (f : Update → Update) : (s.modUpdate req f).clk = s.clk := rfl

@[simp] theorem State.waitUpdate_clk (req : Nat) (w : UpdWait) : (s.waitUpdate req w).clk = s.clk := rfl

@[simp] theorem State.modCarrier_clk (c : Nat) (f : Carrier → Carrier) : (s.modCarrier c f).clk = s.clk := rfl

@[simp] theorem State.countErr_clk (cls : Nat) : (s.countErr cls).clk = s.clk := rfl

@[simp] theorem State.countRead_clk (k step tag : Nat) (degrades : Bool) : (s.countRead k step tag degrades).clk = s.clk := by
  unfold State.countRead
  dsimp only
  repeat' split
  all_goals simp

@[simp] theorem State.baseLookup_clk (p : Part) (x : Desc) (vid fuel page : Nat) : (s.baseLookup p x vid fuel page).2.clk = s.clk := by
  induction fuel generalizing s page with
  | zero => rfl
  | succ n ih =>
    unfold State.baseLookup
    dsimp only
    split
    · simp
    · split <;> simp [ih]

@[simp] theorem State.slotVid_clk (p : Part) (x : Desc) (l : Leaf) (slot : Nat) : (s.slotVid p x l slot).2.clk = s.clk := by
  unfold State.slotVid
  split <;> simp

@[simp] theorem State.confirm_clk (p : Part) (x : Desc) (l : Leaf) (vid : Nat) (cands : List Nat) : (s.confirm p x l vid cands).2.clk = s.clk := by
  induction cands generalizing s with
  | nil => rfl
  | cons c r ih =>
    unfold State.confirm
    dsimp only
    split <;> simp [ih]

@[simp] theorem State.dirWrite_clk (p : Part) (x : Desc) (index vid : Nat) (leaf : Option Nat) : (s.dirWrite p x index vid leaf).clk = s.clk := by
  unfold State.dirWrite
  dsimp only
  repeat' split
  all_goals simp

@[simp] theorem State.lookup_clk (p : Part) (x : Desc) (index vid : Nat) : (s.lookup p x index vid).2.clk = s.clk := by
  obtain ⟨base, hbase⟩ : ∃ f, f = State.baseLookup := exists_eq
  have hbclk (a fuel page) : (base s p x a fuel page).2.clk = s.clk := by simp [hbase]
  rw [State.lookup, ← hbase]
  split
  next h t hfirst =>
    have ht : t.clk = s.clk := by
      split at hfirst
      · exact clk_of_pair hfirst (hbclk ..)
      · exact clk_of_pair hfirst rfl
    split
    · exact ht
    · exact ht
    · split
      · split
        · exact ht
        · simp [ht]
      · dsimp only
        split
        next hc => exact (clk_of_pair hc (State.confirm_clk ..)).trans ht
        next hc => exact (State.dirWrite_clk ..).trans ((clk_of_pair hc (State.confirm_clk ..)).trans ht)

theorem State.takePage_clk {s : State} {p : Part} {ext n : Nat} {last : Option Nat} {t : State} (h : s.takePage p ext last = some (n, t)) :
    t.clk = s.clk := by
  unfold State.takePage at h
  dsimp only at h
  split at h <;> cases h
  rfl

@[simp] theorem State.stage_clk (k o : Nat) (b : Bytes) (hint : Nat) : (s.stage k o b hint).clk = s.clk := by
  unfold State.stage
  dsimp only
  split <;> simp

theorem State.streamRecord_clk {s : State} {p : Part} {x : Desc} {index pg ix : Nat} {b : Bytes} {t : State}
    (h : s.streamRecord p x index b = some (pg, ix, t)) : t.clk = s.clk := by
  unfold State.streamRecord at h
  dsimp only at h
  split at h
  · cases h
  next hcur =>
    split at h <;> cases h
    simp only [State.stage_clk]
    split at hcur
    · split at hcur
      · cases hcur
        rfl
      split at hcur <;> cases hcur
      next hpage => exact State.takePage_clk hpage
    · split at hcur <;> cases hcur
      next hpage => exact State.takePage_clk hpage

@[simp] theorem State.leafAdd_clk (p : Part) (l : Leaf) (o : Nat) (up : Bool) : (s.leafAdd p l o up).clk = s.clk := by simp [State.leafAdd]

@[simp] theorem State.appendDelta_clk (p : Part) (x : Desc) (l : Leaf) (vid page ix : Nat) (code : Bytes) :
    (s.appendDelta p x l vid page ix code).clk = s.clk := by simp [State.appendDelta]

@[simp] theorem State.pmSetBit_clk (p : Part) (a i : Nat) (v : Bool) : (s.pmSetBit p a i v).clk = s.clk := by simp [State.pmSetBit]

@[simp] theorem State.setRecents_clk (p : Part) (l : Leaf) (r : List (Nat × Stamp)) : (s.setRecents p l r).clk = s.clk := by simp [State.setRecents]

@[simp] theorem State.deleteSlot_clk (p : Part) (l : Leaf) (slot : Nat) : (s.deleteSlot p l slot).clk = s.clk := by simp [State.deleteSlot]

@[simp] theorem State.ackEntries_clk (p : Part) (x : Desc) (u : Update) (a : Stamp) : (s.ackEntries p x u a).clk = s.clk := by
  unfold State.ackEntries
  dsimp only
  repeat' split
  all_goals simp

@[simp] theorem State.noteChange_clk (part index leaf : Nat) : (s.noteChange part index leaf).clk = s.clk := by
  unfold State.noteChange
  split <;> simp

@[simp] theorem State.mirrorSend_clk (u : Update) (shard mirror : Nat) (a : Stamp) :
    (s.mirrorSend u shard mirror a).clk = s.clk := by simp [State.mirrorSend]

@[simp] theorem State.applyAt_clk (p : Part) (x : Desc) (u : Update) (new : Option Nat) (old : Option (Nat × Nat)) :
    (s.applyAt p x u new old).clk = s.clk := by
  generalize ht : s.applyAt p x u new old = t
  rw [State.applyAt.eq_def] at ht
  extract_lets locked recentFull staged v notFound at ht
  have hstaged : ∀ y ∈ staged, y.2.clk = s.clk := by
    intro y hy
    simp only [staged] at hy
    split at hy
    · cases hy
      rfl
    · split at hy <;> cases hy
      next hrec => exact State.streamRecord_clk hrec
  clear_value locked recentFull staged v notFound
  split at ht
  · rw [← ht, State.waitUpdate_clk]
  split at ht
  · rw [← ht, State.waitUpdate_clk]
  split at ht
  · rw [← ht, State.waitUpdate_clk]
  next place s0 =>
  have hs0 : s0.clk = s.clk := hstaged _ rfl
  extract_lets code newAt u1 at ht
  clear_value code newAt u1
  split at ht
  next seq s1 hj =>
  have hs1 := clk_of_pair hj (State.journal_clk ..)
  extract_lets u2 s2 s3 s4 at ht
  have hs2 : s2.clk = s1.clk := by
    simp only [s2]
    split
    · split <;> simp
    · rfl
  have hs3 : s3.clk = s2.clk := by
    simp only [s3]
    split
    · split <;> simp
    · rfl
  have hs4 : s4.clk = s3.clk := clk_ite (s3.dirWrite_clk ..) (clk_ite rfl (s3.dirWrite_clk ..))
  clear_value s2 s3 s4
  split at ht
  next a s5 ha =>
  have hs5 : s5.clk = s4.clk := by
    split at ha
    · exact clk_of_pair ha rfl
    · exact clk_of_pair ha (s4.partStamp_clk _)
  extract_lets s6 u3 s7 s8 s9 at ht
  have hs9 : s9.clk = s5.clk := by
    simp only [s9, s8, State.noteChange_clk]
    exact (foldl_clk (fun s l => s.noteChange_clk ..) _ _).trans (s5.ackEntries_clk ..)
  clear_value s9
  have hall : s9.clk = s.clk := by rw [hs9, hs5, hs4, hs3, hs2, hs1, hs0]
  split at ht
  · rw [← ht, State.mirrorSend_clk, hall]
  · rw [← ht, State.ackUpdate_clk, hall]

/-- An entry is looked up where an update asks for it, and the CLOCK block stays either way. -/
@[simp] theorem State.ite_lookup_clk (c : Prop) [Decidable c] (h : Lookup) (p : Part) (x : Desc) (index vid : Nat) :
    (if c then s.lookup p x index vid else (h, s)).2.clk = s.clk := by
  split <;> simp

@[simp] theorem State.tryUpdate_clk (req : Nat) : (s.tryUpdate req).clk = s.clk := by
  rw [State.tryUpdate]
  split
  · rfl
  split
  · rfl
  refine iteInduction (motive := fun t : State => t.clk = s.clk) (fun _ => rfl) fun _ => ?_
  split
  next hx =>
    have ht := clk_of_pair hx (State.useIndex_clk ..)
    split
    · simp [ht]
    dsimp only
    split
    · simp [ht]
    split
    · simp [ht]
    split
    · simp [ht]
    split
    · simp [ht]
    split
    · simp [ht]
    refine iteInduction (motive := fun t : State => t.clk = s.clk) (fun _ => by simp [ht]) fun _ => ?_
    split
    · simp [ht]
    split <;> simp [ht]

@[simp] theorem State.retryUpdates_clk : s.retryUpdates.clk = s.clk := by simp [State.retryUpdates]

/-! ### Requests taken from a queue -/

@[simp] theorem State.takeUpdate_clk (p : Part) (r : Req) : (s.takeUpdate p r).clk = s.clk := by simp [State.takeUpdate]

@[simp] theorem State.takeEmbed_clk (p : Part) (v : Service) (r : Req) : (s.takeEmbed p v r).clk = s.clk := by
  obtain ⟨cut, hcut⟩ : ∃ n, n = cutOf r.td := exists_eq
  obtain ⟨desc, hdesc⟩ : ∃ f, f = State.desc? := exists_eq
  rw [State.takeEmbed, ← hcut, ← hdesc]
  dsimp only
  split
  · simp
  split
  · split <;> simp
  split
  · simp
  split <;> simp

@[simp] theorem State.takeFilter_clk (p : Part) (r : Req) (bad : List Nat) : (s.takeFilter p r bad).clk = s.clk := by
  obtain ⟨cut, hcut⟩ : ∃ n, n = cutOf r.td := exists_eq
  obtain ⟨stamp, hstamp⟩ : ∃ f, f = State.partStamp := exists_eq
  have hclk (s : State) (n : Nat) : (stamp s n).2.clk = s.clk := by simp [hstamp]
  rw [State.takeFilter, ← hcut, ← hstamp]
  simp only [State.formAnswer_clk, hclk]
  split <;> simp

/-- The owner context takes a request by its kind, and the CLOCK block stays whatever the kind. -/
@[simp] theorem State.ite_take_clk (p : Part) (v : Service) (r : Req) (a b c : Prop) [Decidable a] [Decidable b] [Decidable c] :
    (if a then s.takeQuery p v r else if b then s.takeUpdate p r else if c then s.takeEmbed p v r else s.takeFilter p r []).clk = s.clk :=
  clk_ite (s.takeQuery_clk p v r) (clk_ite (s.takeUpdate_clk p r) (clk_ite (s.takeEmbed_clk p v r) (s.takeFilter_clk p r [])))

@[simp] theorem State.runReq_clk (p : Part) (v : Service) (r : Req) (o : CtxRef) : (s.runReq p v r o).clk = s.clk := by
  obtain ⟨find, hfind⟩ : ∃ f, f = State.req? := exists_eq
  rw [State.runReq, ← hfind]
  split
  · split <;> simp
  · simp

@[simp] theorem State.kickSvc_clk (p : Part) (v : Service) (fuel : Nat) : (s.kickSvc p v fuel).clk = s.clk := by
  induction fuel generalizing s with
  | zero => rfl
  | succ n ih =>
    unfold State.kickSvc
    split
    · rfl
    · dsimp only
      split <;> simp [ih]

@[simp] theorem State.kick_clk : s.kick.clk = s.clk := by
  unfold State.kick
  split
  · rfl
  · refine foldl_clk (fun s p => ?_) _ _
    split
    · refine foldl_clk (fun s v => ?_) _ _
      split <;> simp
    · rfl

/-! ### The NVMe controller, refusals and forwarded requests -/

@[simp] theorem State.sawEpoch_clk (e src : Nat) : (s.sawEpoch e src).clk = s.clk := by
  unfold State.sawEpoch
  dsimp only
  repeat' split
  all_goals simp

@[simp] theorem State.modNvme_clk (f : Nvme → Nvme) : (s.modNvme f).clk = s.clk := rfl

@[simp] theorem State.shutCheck_clk : s.shutCheck.clk = s.clk := by
  unfold State.shutCheck
  split <;> simp

@[simp] theorem State.fireIrq_clk (v : Nat) : (s.fireIrq v).clk = s.clk := by
  unfold State.fireIrq
  dsimp only
  repeat' split
  all_goals simp

@[simp] theorem State.setCq_clk (v : NvCq) : (s.setCq v).clk = s.clk := rfl

@[simp] theorem State.cqIrq_clk (c : NvCq) : (s.cqIrq c).clk = s.clk := by
  unfold State.cqIrq
  dsimp only
  repeat' split
  all_goals simp

@[simp] theorem State.postCqe_clk (sq : Nat) (cid : BitVec 16) (dw0 dw1 status : Nat) : (s.postCqe sq cid dw0 dw1 status).clk = s.clk := by
  unfold State.postCqe
  dsimp only
  repeat' split
  all_goals simp

@[simp] theorem State.nvmeDone_clk (sq : Nat) (cid : BitVec 16) (dw0 dw1 status : Nat) :
    (s.nvmeDone sq cid dw0 dw1 status).clk = s.clk := by simp [State.nvmeDone]

@[simp] theorem State.nvmeAnswer_clk (sq cid : BitVec 16) (a : Bytes) : (s.nvmeAnswer sq cid a).clk = s.clk := by
  unfold State.nvmeAnswer
  split <;> simp

@[simp] theorem State.sendAnswer_clk (src : Source) (rq a : Bytes) (note : Nat) : (s.sendAnswer src rq a note).clk = s.clk := by
  unfold State.sendAnswer
  split <;> simp

@[simp] theorem State.refuse_clk (src : Source) (d : Bytes) (status redirect units colour acct : Nat) :
    (s.refuse src d status redirect units colour acct).clk = s.clk := by
  unfold State.refuse
  dsimp only
  repeat' split
  all_goals simp

@[simp] theorem State.forward_clk (src : Source) (d : Bytes) (dest : Nat) : (s.forward src d dest).clk = s.clk := by
  unfold State.forward
  dsimp only
  repeat' split
  all_goals simp

/-! ### Admission -/

@[simp] theorem State.bodyCheck_clk (p : Part) (v : Service) (d : Bytes) : (s.bodyCheck p v d).2.clk = s.clk := by
  obtain ⟨useIndex, huse⟩ : ∃ f, f = State.useIndex := exists_eq
  have hclk (n : Nat) : (useIndex s p n).2.clk = s.clk := by simp [huse]
  rw [State.bodyCheck, ← huse]
  dsimp only
  split
  · rfl
  split
  · rfl
  split <;> exact hclk _

@[simp] theorem State.checks_clk (src : Source) (d : Bytes) : (s.checks src d).2.2.clk = s.clk := by
  unfold State.checks
  dsimp only
  repeat' split
  all_goals simp

@[simp] theorem State.caskInput_clk (part : Nat) (src : Source) (colour status ta : Nat) (d : Bytes) :
    (s.caskInput part src colour status ta d).clk = s.clk := by simp [State.caskInput]

@[simp] theorem State.enqueueReq_clk (p : Part) (r : Req) (atHead : Bool) : (s.enqueueReq p r atHead).clk = s.clk := by
  unfold State.enqueueReq
  split <;> simp

@[simp] theorem State.enrol_clk (src : Source) (d : Bytes) (p : Part) (v : Service) (q : QueueDef) (ta t0 : Nat) (discard : Bool) (colour : Nat) :
    (s.enrol src d p v q ta t0 discard colour).clk = s.clk := by
  unfold State.enrol
  dsimp only
  split <;> simp

@[simp] theorem State.admit3_clk (src : Source) (d : Bytes) (discard : Bool) (t0 units colour acct : Nat) :
    (s.admit3 src d discard t0 units colour acct).clk = s.clk := by
  have hclk {α β : Type} {x : α × β × State} {a : α} {b : β} {t : State} (hx : x = (a, b, t)) (h : x.2.2.clk = s.clk) : t.clk = s.clk := by
    rw [← h, hx]
  rw [State.admit3]
  split
  next h => exact (State.enrol_clk ..).trans (hclk h (s.checks_clk src d))
  next h =>
    have ht := hclk h (s.checks_clk src d)
    dsimp only
    split <;> split <;> simp [ht]

@[simp] theorem State.admit2_clk (src : Source) (d : Bytes) (discard : Bool) (rack since units colour acct : Nat) :
    (s.admit2 src d discard rack since units colour acct).clk = s.clk := by
  unfold State.admit2
  dsimp only
  repeat' split
  all_goals simp

@[simp] theorem State.retryHeld_clk (pick : HeldReq → Bool) : (s.retryHeld pick).clk = s.clk := by simp [State.retryHeld]

/-! ### Roles of shards and the map -/

@[simp] theorem State.startOwn_clk (x : MapShard) : (s.startOwn x).clk = s.clk := by
  unfold State.startOwn
  dsimp only
  repeat' split
  all_goals simp

@[simp] theorem State.reportComp_clk (cause shard other : Nat) : (s.reportComp cause shard other).clk = s.clk := by simp [State.reportComp]

@[simp] theorem State.conflict_clk (shard other : Nat) : (s.conflict shard other).clk = s.clk := by simp [State.conflict]

@[simp] theorem State.tryOwn_clk (x : MapShard) : (s.tryOwn x).clk = s.clk := by
  unfold State.tryOwn
  split <;> simp

@[simp] theorem State.dropShard_clk (x : MapShard) (svc : Nat) : (s.dropShard x svc).clk = s.clk := by
  unfold State.dropShard
  dsimp only
  repeat' split
  all_goals simp

@[simp] theorem State.settleYield_clk (x : MapShard) : (s.settleYield x).clk = s.clk := by
  unfold State.settleYield
  dsimp only
  repeat' split
  all_goals simp

@[simp] theorem State.assignRole_clk (old : Option CompMap) (x : MapShard) : (s.assignRole old x).clk = s.clk := by
  have hsync : (if x.mirrored = true then s.startSync x else s).clk = s.clk := clk_ite (s.startSync_clk x) rfl
  unfold State.assignRole
  dsimp only
  refine clk_ite (clk_ite (clk_ite rfl (clk_ite (by simp [hsync]) ?_)) (clk_ite (by simp) (clk_ite (by simp) (by simp))))
    (clk_ite rfl (clk_ite (by simp) (clk_ite rfl (clk_ite rfl rfl))))
  refine (foldl_clk (fun s i => ?_) _ _).trans hsync
  split <;> simp

@[simp] theorem State.dropUnlisted_clk (m : CompMap) : (s.dropUnlisted m).clk = s.clk := rfl

@[simp] theorem State.assignRoles_clk (old : Option CompMap) : (s.assignRoles old).clk = s.clk := by
  unfold State.assignRoles
  split
  · rfl
  split <;> simp

@[simp] theorem State.endOverrides_clk (epoch : Nat) : (s.endOverrides epoch).clk = s.clk := rfl

@[simp] theorem State.adopt_clk (m : CompMap) (raw : Bytes) (confirmed : Bool) : (s.adopt m raw confirmed).clk = s.clk := by
  unfold State.adopt
  dsimp only
  split <;> simp

@[simp] theorem State.loadStored_clk : s.loadStored.clk = s.clk := by
  obtain ⟨parse, hparse⟩ : ∃ f, f = parseMap := exists_eq
  rw [State.loadStored, ← hparse]
  split
  · rfl
  split
  · rfl
  split <;> simp

end Sys2Proof.Machine
end

section
/-! SUPPORT. The steps of the start sequence: a start that is tried again (R542), and the stacks that the end of start-up trains (R66, R355). -/
namespace Sys2Proof.Machine

variable (s : State)

/-! ### A start that is tried again -/

theorem State.startRetry_eq : s.startRetry = { s with clk := s.startRetry.clk } := rfl

theorem State.startRetry_phase : s.startRetry.clk.phase = if s.clk.attempts < 3 then .delay else .failed := by
  by_cases h : s.clk.attempts < 3
  · simp [State.startRetry, h, show ¬ s.clk.attempts + 1 ≥ 4 by omega]
  · simp [State.startRetry, h, show s.clk.attempts + 1 ≥ 4 by omega]

/-! ### Training of the stacks -/

@[simp] theorem State.memCtl_modMem_same (k : Nat) (f : MemCtl → MemCtl) : (s.modMem k f).memCtl k = f (s.memCtl k) := by
  simp [State.modMem, State.memCtl, SMap.modify]

theorem State.memCtl_modMem_ne {k j : Nat} (f : MemCtl → MemCtl) (h : j ≠ k) : (s.modMem k f).memCtl j = s.memCtl j := by
  simp [State.modMem, State.memCtl, SMap.modify, h]

/-- A stack that was off is trained. -/
def trainedCtl (m : MemCtl) : MemCtl := if m.state == 0 then { m with state := 1 } else m

/-- The stacks of a list are trained. -/
def State.trainStacks (s : State) (l : List Nat) : State := l.foldl (fun s k => s.modMem k trainedCtl) s

@[simp] theorem State.trainStacks_cons (k : Nat) (l : List Nat) : s.trainStacks (k :: l) = (s.modMem k trainedCtl).trainStacks l := rfl

/-- Training changes the stacks' controllers only. -/
theorem State.trainStacks_eq (l : List Nat) : s.trainStacks l = { s with mem := (s.trainStacks l).mem } := by
  induction l generalizing s with
  | nil => rfl
  | cons k l ih =>
    rw [State.trainStacks_cons]
    exact ih _

theorem State.memCtl_trainStacks_ne {l : List Nat} {j : Nat} (h : j ∉ l) : (s.trainStacks l).memCtl j = s.memCtl j := by
  induction l generalizing s with
  | nil => rfl
  | cons k l ih =>
    obtain ⟨hk, hl⟩ := List.ne_and_not_mem_of_not_mem_cons h
    rw [State.trainStacks_cons, ih _ hl, State.memCtl_modMem_ne _ _ hk]

theorem State.memCtl_trainStacks {l : List Nat} (hl : l.Nodup) {j : Nat} (h : j ∈ l) : (s.trainStacks l).memCtl j = trainedCtl (s.memCtl j) := by
  induction l generalizing s with
  | nil => cases h
  | cons k l ih =>
    obtain ⟨hk, hl⟩ := List.nodup_cons.mp hl
    rw [State.trainStacks_cons]
    rcases List.mem_cons.mp h with rfl | hj
    · rw [State.memCtl_trainStacks_ne _ hk, State.memCtl_modMem_same]
    · rw [ih _ hl hj, State.memCtl_modMem_ne _ _ (ne_of_mem_of_not_mem hj hk)]

theorem trainedCtl_state {m : MemCtl} (h : m.state = 0) : (trainedCtl m).state = 1 := by simp [trainedCtl, h]

/-- The start sequence is over and GSRC is read. -/
def State.enterUp (s : State) : State := { s with clk := { s.clk with phase := .up, gsrc := s.pins.gsrc } }

@[simp] theorem State.memCtl_enterUp (k : Nat) : s.enterUp.memCtl k = s.memCtl k := rfl

/-- The node as start-up leaves it, its stacks trained and GSRC read, before the stored map is taken up. -/
def State.started (s : State) : State := (s.trainStacks (List.range 16)).enterUp

theorem State.started_eq : s.started = { s with clk := { s.clk with phase := .up, gsrc := s.pins.gsrc }, mem := s.started.mem } := by
  unfold State.started
  generalize List.range 16 = l
  rw [State.trainStacks_eq]
  rfl

theorem State.memCtl_started {k : Nat} (hk : k < 16) : s.started.memCtl k = trainedCtl (s.memCtl k) := by
  rw [State.started, State.memCtl_enterUp, s.memCtl_trainStacks List.nodup_range (List.mem_range.mpr hk)]

/-- With GSRC high the stored map is all that is taken up; no image loads before GO (R66). -/
theorem State.startUpEnd_of_gsrc (h : s.pins.gsrc = true) (r : Reads) : s.startUpEnd r = s.started.loadStored := by
  have hgsrc : s.started.loadStored.clk.gsrc = true := by
    rw [State.loadStored_clk, State.started_eq]
    exact h
  change (if s.started.loadStored.clk.gsrc then s.started.loadStored else _) = _
  rw [if_pos hgsrc]

end Sys2Proof.Machine
end

section
/-! PROOFS. The statement of 02_grist_image about the start sequence. -/
namespace Sys2Proof.Machine

variable {s : State}

/-! ### Each step of the start -/

theorem runs_sequencerResetRelease (h : s.clk.phase = .held) (hoff : s.pwr.off = false) : Runs (exec .sequencerResetRelease s) fun u => u =
    { s with clk := { s.clk with phase := .delay, oscEn := true, oscw := s.pins.oscw },
             mod := { s.mod with mbus := s.pins.mbus, maddr := s.pins.maddr, kOn := ~~~ s.mod.kOff } } := by
  change Runs (execSequencerResetRelease s) _
  rw [execSequencerResetRelease, if_neg (by simp [h, hoff])]
  exact runs_settled rfl

theorem runs_startDelayEnd (h : s.clk.phase = .delay) :
    Runs (exec .startDelayEnd s) fun u => u = { s with clk := { s.clk with phase := .checking } } := by
  change Runs (execStartDelayEnd s) _
  rw [execStartDelayEnd, if_pos (by simp [h])]
  exact runs_settled rfl

theorem runs_referenceCheckEnd_ok (h : s.clk.phase = .checking) :
    Runs (exec (.referenceCheckEnd true) s) fun u => u = { s with clk := { s.clk with phase := .locking, refOk := true } } := by
  change Runs (execReferenceCheckEnd true s) _
  rw [execReferenceCheckEnd, if_neg (by simp [h]), if_pos rfl]
  exact runs_settled rfl

theorem exec_referenceCheckEnd_fails (h : s.clk.phase = .checking) : exec (.referenceCheckEnd false) s = settled s.startRetry := by
  change execReferenceCheckEnd false s = _
  rw [execReferenceCheckEnd, if_neg (by simp [h]), if_neg (by decide)]

theorem exec_pllLock_locks (h : s.clk.phase = .locking) :
    exec (.pllLock true) s = settled { s with clk := { s.clk with rootLock := true, auxLock := true } }.domainsUp := by
  change execPllLock true s = _
  simp [execPllLock, h]

theorem exec_pllLock_fails (h : s.clk.phase = .locking) (hcause : s.rst.cause ≠ 4) : exec (.pllLock false) s = settled s.startRetry := by
  change execPllLock false s = _
  simp only [execPllLock, h, beq_false_of_ne hcause, Bool.false_eq_true, if_false]

theorem exec_startUpEnd (h : s.clk.phase = .training) (reads : Reads) : exec (.startUpEnd reads) s = settled (s.startUpEnd reads) := by
  change execStartUpEnd reads s = _
  rw [execStartUpEnd, if_pos (by simp [h])]

theorem runsThen_startUpEnd (h : s.clk.phase = .training) (hgsrc : s.pins.gsrc = true) (reads : Reads) :
    RunsThen State.loadStored (exec (.startUpEnd reads) s) fun u =>
      u.clk.phase = .up ∧ u.clk.gsrc = true ∧ (∀ k < 16, (s.memCtl k).state = 0 → (u.memCtl k).state = 1) ∧ u = { s with clk := u.clk, mem := u.mem } := by
  refine ⟨s.started, by rw [exec_startUpEnd h, s.startUpEnd_of_gsrc hgsrc]; rfl, rfl, ?_, fun k hk hoff => ?_, ?_⟩
  · rw [State.started_eq]
    exact hgsrc
  · rw [s.memCtl_started hk]
    exact trainedCtl_state hoff
  · exact s.started_eq ▸ rfl

/-- Settles O6: each command of the start runs from the phase it belongs to; that the end of training leaves GSRC as read rests on the stored
map's being taken up without a change of the CLOCK block. -/
theorem startSequenceAdvances : Obligations.StartSequenceAdvances := by
  intro s
  refine ⟨runs_sequencerResetRelease, runs_startDelayEnd, runs_referenceCheckEnd_ok, fun h => ?_, fun h => ?_, fun h hcause => ?_,
    fun reads h hgsrc => runsThen_startUpEnd h hgsrc reads⟩
  · rw [exec_referenceCheckEnd_fails h]
    exact runs_settled ⟨s.startRetry_eq, rfl, rfl, s.startRetry_phase⟩
  · rw [exec_pllLock_locks h]
    exact runs_settled ⟨rfl, rfl, rfl, rfl, rfl⟩
  · rw [exec_pllLock_fails h hcause]
    exact runs_settled ⟨s.startRetry_eq, s.startRetry_phase⟩

end Sys2Proof.Machine
end

section
/-! PROOFS. The statement of 03_vector_index about racking, split and merge. -/
namespace Sys2Proof.Machine

variable {s : State} {p : Part} {c : RackCtx} {index : Fin 16}

/-! ### The decision for a leaf (R121) -/

theorem State.decision_split {rest : List Nat} (ht : s.triggers p c.x index c.l = 2 :: rest) (hcan : s.splitFails p c Stamp.ones = false) :
    s.decision p index c = some (2, 2) := by
  simp only [State.decision, ht, hcan, Bool.false_eq_true, if_false]

theorem State.decision_merge {rest : List Nat} (ht : s.triggers p c.x index c.l = 5 :: rest) (hcan : (s.mergeWith p c Stamp.ones).isSome = true) :
    s.decision p index c = some (3, 5) := by
  simp only [State.decision, ht, Option.isNone_eq_false_iff.mpr hcan, Bool.false_eq_true, if_false]

theorem State.decision_rack {t : Nat} {rest : List Nat} (ht : s.triggers p c.x index c.l = t :: rest) (h2 : t ≠ 2) (h5 : t ≠ 5) :
    s.decision p index c = some (1, t) := by
  rw [State.decision, ht]
  split
  case h_1 h => cases h
  case h_2 h => exact absurd (List.cons.inj h).1 h2
  case h_3 h => exact absurd (List.cons.inj h).1 h5
  case h_4 h => rw [(List.cons.inj h).1]

/-! ### The rows of the decisions (R122, R125, R126) -/

section Rows

variable {part : Fin 32} {leaf : BitVec 32} (hctx : s.rackCtx part index leaf.toNat = some (p, c))
include hctx

/-- What RACKING does when its places serve and the decision is to rack: the racked leaf, its pace spent where the trigger is that of the
codebook, or else only the reads. -/
theorem exec_racking_of_decision {place : List Nat} {q : LeafPlace} {pub t : Nat} (hq : leafPlace place = some q) (hok : q.ok p c.x = true)
    (hpub : p.placeOk pub 16 16 = true) (hdec : s.decision p index c = some (1, t)) (node : Nat) (bad : List Nat) :
    exec (.racking part index leaf place pub node bad) s = settled ((s.rackLeaf p index c q pub node bad).elim
      (s.readSurvivors p c.x (s.survivors p c.x c.l Stamp.ones)) fun s' => if t = 6 then s'.spendSix p index leaf.toNat else s') := by
  change execRacking part index leaf place pub node bad s = _
  simp only [execRacking, hctx, hq, hok, hpub, hdec, Bool.and_true, Bool.not_true, Bool.false_eq_true, if_false, beq_iff_eq]
  cases s.rackLeaf p index c q pub node bad <;> rfl

theorem exec_split_of_decision {placeA placeB : List Nat} {a b : LeafPlace} {pub fwd t : Nat} (ha : leafPlace placeA = some a)
    (hb : leafPlace placeB = some b) (haok : a.ok p c.x = true) (hbok : b.ok p c.x = true) (hpub : p.placeOk pub 16 16 = true)
    (hfwd : p.placeOk fwd 64 64 = true) (hdec : s.decision p index c = some (2, t)) (nodes bad : List Nat) :
    exec (.split part index leaf placeA placeB pub nodes fwd bad) s = settled ((s.split p index c a b pub nodes fwd bad).getD s) := by
  change execSplit part index leaf placeA placeB pub nodes fwd bad s = _
  simp only [execSplit, hctx, ha, hb, haok, hbok, hpub, hfwd, hdec, Bool.and_true, Bool.not_true, Bool.false_eq_true, if_false]

theorem exec_mergeLeaf_of_decision {place : List Nat} {q : LeafPlace} {pub fa fb t : Nat} (hq : leafPlace place = some q) (hok : q.ok p c.x = true)
    (hpub : p.placeOk pub 16 16 = true) (hfa : p.placeOk fa 64 64 = true) (hfb : p.placeOk fb 64 64 = true)
    (hdec : s.decision p index c = some (3, t)) (nodes bad : List Nat) :
    exec (.mergeLeaf part index leaf place pub nodes fa fb bad) s = settled ((s.merge p index c q pub nodes fa fb bad).getD s) := by
  change execMergeLeaf part index leaf place pub nodes fa fb bad s = _
  simp only [execMergeLeaf, hctx, hq, hok, hpub, hfa, hfb, hdec, Bool.and_true, Bool.not_true, Bool.false_eq_true, if_false]

end Rows

/-- Settles O35: the first trigger of the list decides, and each row does its change when the decision is its own. -/
theorem rackingFollowsTheHighestTrigger : Obligations.RackingFollowsTheHighestTrigger := by
  intro s part index leaf p c hctx
  refine ⟨fun _ => State.decision_split, fun _ => State.decision_merge, fun _ _ => State.decision_rack,
    fun place q pub node t bad hq hok hpub hdec => ?racking, fun placeA placeB nodes a b pub fwd t bad s' ha hb haok hbok hpub hfwd hdec hs' => ?split,
    fun place nodes q pub fa fb t bad s' hq hok hpub hfa hfb hdec hs' => ?merge⟩
  case racking =>
    rw [exec_racking_of_decision hctx hq hok hpub hdec]
    refine ⟨fun s' hs' => ?_, fun hnone => ?_⟩
    · rw [hs']
      exact runs_settled rfl
    · rw [hnone]
      exact runs_settled rfl
  case split =>
    rw [exec_split_of_decision hctx ha hb haok hbok hpub hfwd hdec, hs']
    exact runs_settled rfl
  case merge =>
    rw [exec_mergeLeaf_of_decision hctx hq hok hpub hfa hfb hdec, hs']
    exact runs_settled rfl

end Sys2Proof.Machine
end

section
/-! SUPPORT. The dispatcher's lists and registers through the operations that requests set going: stamps, records, messages, answers and queue
entries keep them, and taking, refusing, admitting and releasing a request changes them as R146–R150 and R168 say. -/
namespace Sys2Proof.Machine

variable (s : State)

/-! ### What keeps the dispatcher

One lemma for each operation; a lemma rests on those above it. -/

/-- The dispatcher's lists and its registers are the same in two states. -/
@[simp] abbrev State.SameDispatcher (t s : State) : Prop := t.req = s.req ∧ t.disp = s.disp

@[simp] theorem State.caskClose_dispatcher : s.caskClose.SameDispatcher s := by
  unfold State.caskClose
  split <;> simp

@[simp] theorem State.takeStamp_dispatcher : s.takeStamp.2.SameDispatcher s := by
  unfold State.takeStamp
  dsimp only
  split <;> simp

@[simp] theorem State.stampOrZero_dispatcher : s.stampOrZero.2.SameDispatcher s := by
  unfold State.stampOrZero
  split
  · simp
  · exact ⟨rfl, rfl⟩

@[simp] theorem State.emit_dispatcher (o : Out) : (s.emit o).SameDispatcher s := ⟨rfl, rfl⟩

@[simp] theorem State.logRecord_dispatcher (r : Report) : (s.logRecord r).2.SameDispatcher s := by
  unfold State.logRecord
  dsimp only
  repeat' split
  all_goals simp

@[simp] theorem State.caskPut_dispatcher (typ part source : Nat) (body : Bytes) : (s.caskPut typ part source body).SameDispatcher s := by
  unfold State.caskPut
  dsimp only
  repeat' split
  all_goals simp

@[simp] theorem State.caskRec_dispatcher (typ part source : Nat) (body : Bytes) : (s.caskRec typ part source body).SameDispatcher s := by
  unfold State.caskRec
  split <;> simp

@[simp] theorem State.caskInput_dispatcher (part : Nat) (src : Source) (colour status ta : Nat) (d : Bytes) :
    (s.caskInput part src colour status ta d).SameDispatcher s := by simp [State.caskInput]

/-! #### Messages and answers -/

@[simp] theorem State.setChan_dispatcher (c : Nat) (v : Chan) : (s.setChan c v).SameDispatcher s := by
  unfold State.setChan
  dsimp only
  split <;> simp [State.caskEvent]

@[simp] theorem State.enqueue_dispatcher (c cls : Nat) (m : EgMsg) : (s.enqueue c cls m).SameDispatcher s := by
  unfold State.enqueue
  dsimp only
  split <;> simp

@[simp] theorem State.sendMsg_dispatcher (i : SendInfo) (data : Bytes) : (s.sendMsg i data).SameDispatcher s := by
  unfold State.sendMsg
  dsimp only
  repeat' split
  all_goals simp

@[simp] theorem State.fireIrq_dispatcher (v : Nat) : (s.fireIrq v).SameDispatcher s := by
  unfold State.fireIrq
  repeat' split
  all_goals simp

@[simp] theorem State.setCq_dispatcher (v : NvCq) : (s.setCq v).SameDispatcher s := ⟨rfl, rfl⟩

@[simp] theorem State.cqIrq_dispatcher (c : NvCq) : (s.cqIrq c).SameDispatcher s := by
  unfold State.cqIrq
  dsimp only
  repeat' split
  all_goals simp

@[simp] theorem State.postCqe_dispatcher (sq : Nat) (cid : BitVec 16) (dw0 dw1 status : Nat) :
    (s.postCqe sq cid dw0 dw1 status).SameDispatcher s := by
  unfold State.postCqe
  dsimp only
  repeat' split
  all_goals simp

@[simp] theorem State.modNvme_dispatcher (f : Nvme → Nvme) : (s.modNvme f).SameDispatcher s := ⟨rfl, rfl⟩

@[simp] theorem State.shutCheck_dispatcher : s.shutCheck.SameDispatcher s := by
  unfold State.shutCheck
  split <;> simp

@[simp] theorem State.nvmeDone_dispatcher (sq : Nat) (cid : BitVec 16) (dw0 dw1 status : Nat) :
    (s.nvmeDone sq cid dw0 dw1 status).SameDispatcher s := by simp [State.nvmeDone]

@[simp] theorem State.nvmeAnswer_dispatcher (sq cid : BitVec 16) (a : Bytes) : (s.nvmeAnswer sq cid a).SameDispatcher s := by
  unfold State.nvmeAnswer
  split <;> simp

@[simp] theorem State.sendAnswer_dispatcher (src : Source) (rq a : Bytes) (note : Nat) : (s.sendAnswer src rq a note).SameDispatcher s := by
  unfold State.sendAnswer
  split <;> simp

/-! #### Queues and the memory of a partition -/

@[simp] theorem State.modQueue_dispatcher (p id : Nat) (f : QState → QState) : (s.modQueue p id f).SameDispatcher s := ⟨rfl, rfl⟩

@[simp] theorem State.unqueue_dispatcher (p id req : Nat) : (s.unqueue p id req).SameDispatcher s := ⟨rfl, rfl⟩

@[simp] theorem State.clearResv_dispatcher (lo hi : Nat) (by_ : Option CtxRef) : (s.clearResv lo hi by_).SameDispatcher s := ⟨rfl, rfl⟩

@[simp] theorem State.modMem_dispatcher (k : Nat) (f : MemCtl → MemCtl) : (s.modMem k f).SameDispatcher s := ⟨rfl, rfl⟩

@[simp] theorem State.locWrite_dispatcher (l : Loc) (b : Bytes) (by_ : Option CtxRef) : (s.locWrite l b by_).SameDispatcher s := by
  unfold State.locWrite
  dsimp only
  repeat' split
  all_goals simp

@[simp] theorem State.pmWrite_dispatcher (p : Part) (o : Nat) (b : Bytes) : (s.pmWrite p o b).SameDispatcher s :=
  ⟨foldl_keeps (fun acc : State × Bytes => acc.1.req) (by simp) _ _, foldl_keeps (fun acc : State × Bytes => acc.1.disp) (by simp) _ _⟩

@[simp] theorem State.slotWrite_dispatcher (p : Part) (q : QueueDef) (slot : Nat) (b : Bytes) : (s.slotWrite p q slot b).SameDispatcher s := by
  unfold State.slotWrite
  split <;> simp

@[simp] theorem State.setQueue_dispatcher (p id : Nat) (v : QState) : (s.setQueue p id v).SameDispatcher s := ⟨rfl, rfl⟩

@[simp] theorem State.post_dispatcher (p : Part) (q : QueueDef) (b : Bytes) (tag : BitVec 9) (req : Option Nat) (std : Option StdWork) (atHead : Bool) :
    (s.post p q b tag req std atHead).SameDispatcher s := by
  unfold State.post
  dsimp only
  split <;> simp

@[simp] theorem State.enqueueReq_dispatcher (p : Part) (r : Req) (atHead : Bool) : (s.enqueueReq p r atHead).SameDispatcher s := by
  unfold State.enqueueReq
  split <;> simp

/-! ### Admission (R146) -/

variable {s} {src : Source} {d : Bytes}

/-- A request of bad format is refused at step 1. -/
theorem State.takeRequest_badFormat (hin : s.inputStopped = false) (hbad : formatOk src d = false) (units colour acct : Nat) :
    s.takeRequest src d units colour acct = s.refuse src d stBadFormat 0xFFFF units colour acct := by
  simp [State.takeRequest, hin, hbad]

/-- A request of good format goes on to step 2. -/
theorem State.takeRequest_goodFormat (hin : s.inputStopped = false) (hok : formatOk src d = true) (units colour acct : Nat) :
    s.takeRequest src d units colour acct = s.admit2 src d false s.rack s.time.up units colour acct := by
  simp [State.takeRequest, hin, hok]

/-- Step 2 passes a request whose epoch is held, which the node serves and whose shards are owned (R491, R492, R500). -/
theorem State.admit2_served (hepoch : rqEpoch d ≤ s.epoch) (haddr : s.addressed (rqKind d) (rqSvc d) (rqVid d) = true)
    (hown : ∀ x ∈ s.requestShards (rqKind d) (rqSvc d) (rqVid d), (s.shard x.id).role ≠ .unavailable ∧ (s.shard x.id).role ≠ .claiming)
    (discard : Bool) (rack since units colour acct : Nat) :
    s.admit2 src d discard rack since units colour acct = s.admit3 src d discard rack units colour acct := by
  have hserved : (s.requestShards (rqKind d) (rqSvc d) (rqVid d)).any (fun x => (s.shard x.id).role == .unavailable) = false :=
    List.any_eq_false.mpr fun x hx => by simp [(hown x hx).1]
  have hclaimed : (s.requestShards (rqKind d) (rqSvc d) (rqVid d)).any (fun x => (s.shard x.id).role == .claiming) = false :=
    List.any_eq_false.mpr fun x hx => by simp [(hown x hx).2]
  simp [State.admit2, hepoch, haddr, hserved, hclaimed]

/-- A request that passes steps 3 to 12 is admitted now. -/
theorem State.admit3_of_checks {p : Part} {b : Binding} {v : Service} {q : QueueDef} {t : State}
    (hchecks : s.checks src d = (0, some (p, b, v, q), t)) (discard : Bool) (t0 units colour acct : Nat) :
    s.admit3 src d discard t0 units colour acct = t.enrol src d p v q t.rack t0 discard colour := by
  simp [State.admit3, hchecks]

variable (s) (src) (d)

/-- The stamp of a query lies ahead of rack time: the query is held (R150). -/
def State.stampAhead : Bool := isQueryKind (rqKind d) && (rqStamp d).time.toNat ≥ s.rack

/-- The record of a request that is admitted at `ta`, its budget running from `t0` (R147, R170). -/
def State.admittedReq (p : Part) (v : Service) (q : QueueDef) (ta t0 : Nat) (discard : Bool) : Req :=
  { id := s.req.next, src := src, data := d, part := p.num, svc := v.index, tenant := rqTenant d, queue := q.id, ansQ := v.ansQ,
    ta := ta, td := t0 + v.budgetNs d, place := if s.stampAhead d then .hold else .queued, discard := discard }

/-- Admission numbers the request, puts its record last, and counts it (R147). -/
theorem State.enrol_dispatcher (p : Part) (v : Service) (q : QueueDef) (ta t0 : Nat) (discard : Bool) (colour : Nat) :
    (s.enrol src d p v q ta t0 discard colour).req =
        { s.req with next := s.req.next + 1, reqs := s.req.reqs ++ [s.admittedReq src d p v q ta t0 discard] } ∧
      (s.enrol src d p v q ta t0 discard colour).disp = { s.disp with admitCnt := s.disp.admitCnt + 1 } := by
  unfold State.enrol State.admittedReq State.stampAhead
  dsimp only
  split <;> simp

/-! ### Refusals (R148) -/

variable {s}

/-- A refusal that the buffer has room for is counted, shown in the last-refusal fields, and buffered with its answer. -/
theorem State.refuse_of_room (hroom : s.disp.fill.toNat < refusalMax) (status redirect units colour acct : Nat) :
    ∃ a, (s.refuse src d status redirect units colour acct).req = { s.req with refusals := s.req.refusals ++ [⟨src, a⟩] } ∧
      (s.refuse src d status redirect units colour acct).disp =
        { s.disp with refuseCnt := s.disp.refuseCnt + 1, fill := s.disp.fill + 1,
                      max := if (s.disp.fill + 1).toNat > s.disp.max.toNat then s.disp.fill + 1 else s.disp.max,
                      lastStatus := BitVec.ofNat 8 status, lastTenant := BitVec.ofNat 8 (rqTenant d), lastService := BitVec.ofNat 6 (rqSvc d) } := by
  refine ⟨(({ status := status, stamp := s.stampOrZero.1, redirect := redirect } : Ans)).bytes d s.stampOrZero.2.epoch, ?_⟩
  unfold State.refuse
  rw [if_neg (Nat.not_le.mpr hroom)]
  cases src <;> simp

/-- With no sender stopped the oldest refusal leaves, and its place in the buffer frees. -/
theorem State.refusalLeaves_dispatcher {e : RefusalEntry} {rest : List RefusalEntry} (hbuf : s.req.refusals = e :: rest) (hnone : s.req.stalled = []) :
    s.refusalLeaves.req = { s.req with refusals := rest } ∧ s.refusalLeaves.disp = { s.disp with fill := s.disp.fill - 1 } := by
  obtain ⟨src, data⟩ := e
  unfold State.refusalLeaves
  cases src <;> simp [hbuf, hnone]

/-! ### Holds, cuts and answers (R150, R168, R171, R493) -/

/-- A held query goes into its queue once its stamp has passed. -/
theorem State.releaseHold_of_hold {req : Nat} {r : Req} {p : Part} (hreq : s.req? req = some r) (hhold : r.place = .hold)
    (hpart : s.part? r.part = some p) : s.releaseHold req =
      (((s.advanceToRack ((rqStamp r.data).time.toNat + 1)).modReq req fun r => { r with place := .queued }).enqueueReq p r).kick := by
  simp [State.releaseHold, hreq, hhold, hpart]

/-- A query in progress is cut at its cut time. -/
theorem State.budgetCut_of_query {req : Nat} {r : Req} {q : Query} (hreq : s.req? req = some r) (hquery : s.query? req = some q) :
    s.budgetCut req = ((s.advanceToRack (cutOf r.td)).cutQuery q).kick := by
  simp [State.budgetCut, hreq, hquery]

/-- An answer that has been formed leaves, and its request's record frees. -/
theorem State.sendFormed_reqs {req : Nat} {r : Req} {b : Bytes} (hreq : s.req? req = some r) (hformed : r.place = .answered b) :
    (s.sendFormed req).req.reqs = s.req.reqs.filter (·.id != req) := by
  simp [State.sendFormed, hreq, hformed]

/-- The answer to a forwarded request goes to the sender that its relay record names, and the record is gone. -/
theorem State.peerAnswer_of_relay {a : Bytes} {r : Relay}
    (hrelay : s.req.relays.find? (fun r => r.tag.toNat == fieldAt a 8 8 && r.stamp == stampAt a 0x10) = some r) (ch node : Nat) :
    s.peerAnswer ch node a = State.sendAnswer { s with req := { s.req with relays := s.req.relays.erase r } } r.src [] a 0 := by
  simp [State.peerAnswer, hrelay]

end Sys2Proof.Machine
end

section
/-! PROOFS. The statements of 04_search_pipeline about requests that are admitted, refused, held, cut and answered. -/
namespace Sys2Proof.Machine

variable {s : State} {src : Source}

/-- A request command whose message passes every check enrols it. -/
theorem runsThen_request_admitted (hin : s.inputStopped = false) (d : Bytes) (hok : formatOk src d = true) (hepoch : rqEpoch d ≤ s.epoch)
    (haddr : s.addressed (rqKind d) (rqSvc d) (rqVid d) = true)
    (hown : ∀ x ∈ s.requestShards (rqKind d) (rqSvc d) (rqVid d), (s.shard x.id).role ≠ .unavailable ∧ (s.shard x.id).role ≠ .claiming)
    (p : Part) (b : Binding) (v : Service) (q : QueueDef) (t : State) (hchecks : s.checks src d = (0, some (p, b, v, q), t)) :
    RunsThen (fun s => s.fetchNow.kick) (settled (s.request src d)) fun u => u = t.enrol src d p v q t.rack s.rack false 0 ∧
      u.disp.admitCnt = t.disp.admitCnt + 1 ∧
      ∃ e : Req, u.req.reqs = t.req.reqs ++ [e] ∧ e.id = t.req.next ∧ e.src = src ∧ e.data = d ∧ e.tenant = rqTenant d ∧
        e.queue = q.id ∧ e.td = s.rack + v.budgetNs d := by
  have htake : s.takeRequest src d = t.enrol src d p v q t.rack s.rack false 0 := by
    rw [State.takeRequest_goodFormat hin hok, State.admit2_served hepoch haddr hown, State.admit3_of_checks hchecks]
  obtain ⟨hreq, hdisp⟩ := t.enrol_dispatcher src d p v q t.rack s.rack false 0
  refine ⟨s.takeRequest src d, rfl, htake, ?_, t.admittedReq src d p v q t.rack s.rack false, ?_, rfl, rfl, rfl, rfl, rfl, rfl⟩
  · rw [htake, hdisp]
  · rw [htake, hreq]

/-- Settles O18: each of the eight commands is one request whose kind it gives, and steps 1, 2 and 3 to 12 let it through in turn. -/
theorem requestsAreAdmitted : Obligations.RequestsAreAdmitted := by
  intro s src data hin
  have admits := runsThen_request_admitted (src := src) hin
  exact ⟨admits _, admits _, admits _, admits _, admits _, admits _, admits _, admits _⟩

/-- Settles O19: step 1 refuses the query, and the buffer has room for the refusal. -/
theorem refusedRequestsAreBuffered : Obligations.RefusedRequestsAreBuffered := by
  intro s src data hin hbad hroom
  obtain ⟨a, hreq, hdisp⟩ := State.refuse_of_room src (ofKind 0x01 data) hroom stBadFormat 0xFFFF 0 0 0
  refine ⟨_, congrArg (fun u : State => settled u.fetchNow.kick) (State.takeRequest_badFormat hin hbad 0 0 0), ?_⟩
  beta_reduce
  rw [hreq, hdisp]
  exact ⟨rfl, rfl, rfl, rfl, List.length_append, rfl⟩

theorem runsThen_refusalDeparted {e : RefusalEntry} {rest : List RefusalEntry} (hbuf : s.req.refusals = e :: rest) (hnone : s.req.stalled = []) :
    RunsThen State.kick (exec .refusalDeparted s) fun u =>
      u.req.refusals = rest ∧ u.disp.fill = s.disp.fill - 1 ∧ u.req.reqs = s.req.reqs := by
  obtain ⟨hreq, hdisp⟩ := State.refusalLeaves_dispatcher hbuf hnone
  refine ⟨s.refusalLeaves, rfl, ?_⟩
  beta_reduce
  rw [hreq, hdisp]
  exact ⟨rfl, rfl, rfl⟩

theorem runs_peerAnswer_relayed {node : BitVec 16} {data : Bytes} {r : Relay}
    (hrelay : s.req.relays.find? (fun r => r.tag.toNat == fieldAt data 8 8 && r.stamp == stampAt data 0x10) = some r) :
    Runs (exec (.peerAnswer node data) s) fun u => u.req.relays = s.req.relays.erase r ∧
      u = State.sendAnswer { s with req := { s.req with relays := s.req.relays.erase r } } r.src [] data 0 := by
  change Runs (settled (s.peerAnswer _ _ data)) _
  rw [State.peerAnswer_of_relay hrelay]
  exact runs_settled ⟨by simp, rfl⟩

/-- Settles O20: each event does to the request, the refusal or the relay it names what its own rule says. -/
theorem heldRequestsRefusalsAndAnswers : Obligations.HeldRequestsRefusalsAndAnswers := by
  intro s
  exact ⟨fun _ _ _ hreq hhold hpart => ⟨_, congrArg settled (State.releaseHold_of_hold hreq hhold hpart), rfl⟩,
    fun _ _ hbuf hnone => runsThen_refusalDeparted hbuf hnone,
    fun _ _ _ hreq hquery => ⟨_, congrArg settled (State.budgetCut_of_query hreq hquery), rfl⟩,
    fun req _ _ hreq hformed => ⟨s.sendFormed req, rfl, State.sendFormed_reqs hreq hformed⟩,
    fun _ _ _ hrelay => runs_peerAnswer_relayed hrelay⟩

end Sys2Proof.Machine
end

section
/-! SUPPORT. How a sort instruction runs whole, and the key registers and pairs that it reads and writes (R173, R177–R183). -/
namespace Sys2Proof.Machine

variable {s t u : State} {p : Part} {r : CtxRef}

/-! ### What stays as it was while an instruction works on registers -/

theorem OnlyCores.trans (h : OnlyCores s t) (h' : OnlyCores t u) : OnlyCores s u :=
  Eq.trans h' (congrArg (fun x : State => { x with cores := u.cores, meter := u.meter }) h)

/-- Nothing but the cores and the meters changes, no other context does, and the context stays at its instruction. -/
structure StaysAt (s t : State) (r : CtxRef) : Prop where
  onlyCores : OnlyCores s t
  others : OthersStay s t r
  pc : (t.ctx r).pc = (s.ctx r).pc
  instret : (t.ctx r).instret = (s.ctx r).instret

theorem StaysAt.trans (h : StaysAt s t r) (h' : StaysAt t u r) : StaysAt s u r where
  onlyCores := h.onlyCores.trans h'.onlyCores
  others q hq := (h'.others q hq).trans (h.others q hq)
  pc := h'.pc.trans h.pc
  instret := h'.instret.trans h.instret

/-- A core's fields besides its contexts are not what is read of a context. -/
theorem State.ctx_setCore_of_ctxs {c : Nat} {k : Core} (h : k.ctxs = (s.core c).ctxs) (q : CtxRef) : (s.setCore c k).ctx q = s.ctx q := by
  by_cases hc : q.core = c
  · subst hc
    simp [State.ctx, h]
  · simp [State.ctx, hc]

theorem StaysAt.of_setCore {c : Nat} {k : Core} (h : k.ctxs = (s.core c).ctxs) : StaysAt s (s.setCore c k) r where
  onlyCores := rfl
  others q _ := State.ctx_setCore_of_ctxs h q
  pc := by rw [State.ctx_setCore_of_ctxs h]
  instret := by rw [State.ctx_setCore_of_ctxs h]

theorem StaysAt.vwrite (h : StaysAt s t r) (o : Nat) (b : Bytes) : StaysAt s (t.vwrite r o b) r := by
  unfold State.vwrite
  split
  · exact h.trans (.of_setCore rfl)
  · exact h

theorem StaysAt.setKeys (h : StaysAt s t r) (v : Fin 32) (l : List Nat) : StaysAt s (t.setKeys r v l) r := h.vwrite _ _

theorem StaysAt.setPair (h : StaysAt s t r) (vk vp : Fin 32) (l : List (Nat × Nat)) : StaysAt s (t.setPair r vk vp l) r :=
  (h.setKeys vk _).vwrite _ _

/-- An integer register is neither the context's place nor its slot. -/
theorem Ctx.wx_place (c : Ctx) (rd : Fin 32) (v : BitVec 64) :
    (c.wx rd v).pc = c.pc ∧ (c.wx rd v).instret = c.instret ∧ (c.wx rd v).slot = c.slot := by
  unfold Ctx.wx
  split <;> exact ⟨rfl, rfl, rfl⟩

theorem StaysAt.wx (h : StaysAt s t r) (rd : Fin 32) (v : BitVec 64) : StaysAt s (t.modCtx r (·.wx rd v)) r := by
  obtain ⟨hpc, hinstret, -⟩ := (t.ctx r).wx_place rd v
  exact h.trans ⟨rfl, fun q hq => t.ctx_modCtx_ne _ hq, by simpa using hpc, by simpa using hinstret⟩

/-- An instruction that worked at its place and retires has gone on. -/
theorem StaysAt.retire (h : StaysAt s t r) (p : Part) :
    WentOn s (t.retire p r 4) r ∧ OthersStay s (t.retire p r 4) r ∧ OnlyCores s (t.retire p r 4) := by
  unfold State.retire
  refine ⟨⟨?_, ?_⟩, fun q hq => (t.ctx_retireTo_ne p _ hq).trans (h.others q hq), h.onlyCores.trans ?_⟩
  · rw [State.ctx_retireTo, h.pc]
    rfl
  · rw [State.ctx_retireTo, h.instret]
  · obtain ⟨m, c, hret⟩ := t.retireTo_eq p r ((t.ctx r).pc + BitVec.ofNat 64 4)
    rw [OnlyCores, hret]

/-! ### The run of a sort instruction (R178, R246–R248) -/

theorem Issues.issue_eq {core : Nat} (h : Issues s core p r) (f : Part → CtxRef → State) : s.issue core f = f p r := by
  obtain ⟨hpart, rfl, hst, hready, hfetch⟩ := h
  rcases hst with hst | hst <;> simp [State.issue, hpart, hst, hready, hfetch]

/-- An instruction of the context occupies the vector unit of its core (R248). -/
def State.holdUnit (s : State) (r : CtxRef) : State := s.setCore r.core { s.core r.core with vbusy := some r.ctx }

theorem StaysAt.holdUnit : StaysAt s (s.holdUnit r) r := .of_setCore rfl

@[simp] theorem State.ctx_holdUnit (q : CtxRef) : (s.holdUnit r).ctx q = s.ctx q :=
  State.ctx_setCore_of_ctxs (k := { s.core r.core with vbusy := some r.ctx }) rfl q

theorem HasVector.slot_holdUnit (hv : HasVector s r) : ((s.holdUnit r).ctx r).slot.isSome = true := by
  rw [State.ctx_holdUnit]
  exact hv.1

theorem State.needing_quiet (h : (s.ctx r).loads = []) (xs fs : List (Fin 32)) (f : State → State) : s.needing r xs fs f = f s := by
  simp [State.needing, Ctx.pendsX, Ctx.pendsF, h]

theorem State.vectorOp_free (h : (s.ctx r).loads = []) (hfree : (s.core r.core).vbusy = none ∨ (s.core r.core).vbusy = some r.ctx)
    (f : State → State) : s.vectorOp r f = f (s.holdUnit r) := by
  rcases hfree with hfree | hfree <;> simp [State.vectorOp, h, hfree, State.holdUnit]

/-- With a slot, the unit free and registers apart, a sort instruction does its work and retires. -/
theorem State.sortOp_runs (hq : Quiet s r) (hv : HasVector s r) (p : Part) (w : Nat) {ks ps : List (Fin 32)} (hregs : sortRegsOk ks ps = true)
    (xs : List (Fin 32)) (f : State → State) : s.sortOp p r w ks ps xs true f = (f (s.holdUnit r)).retire p r 4 := by
  obtain ⟨hloads, -, -⟩ := hq
  obtain ⟨hslot, hstart, hfree⟩ := hv
  simp [State.sortOp, Option.isSome_iff_ne_none.1 hslot, hstart, hregs, State.needing_quiet hloads, State.vectorOp_free hloads hfree]

/-- Registers that overlap make a sort instruction illegal. -/
theorem State.sortOp_overlap (p : Part) (w : Nat) {ks ps : List (Fin 32)} (hregs : sortRegsOk ks ps = false) (xs : List (Fin 32)) (ok : Bool)
    (f : State → State) : s.sortOp p r w ks ps xs ok f = s.trap p r 2 w := by
  simp [State.sortOp, hregs]

/-! ### Registers that do not overlap (R178) -/

theorem length_eraseDups_le (l : List Nat) : l.eraseDups.length ≤ l.length := by
  match l with
  | [] => simp
  | a :: as =>
    have hrest := length_eraseDups_le (as.filter fun b => !b == a)
    have hfilter := List.length_filter_le (fun b => !b == a) as
    simp only [List.eraseDups_cons, List.length_cons]
    omega
termination_by l.length
decreasing_by exact Nat.lt_succ_of_le (List.length_filter_le _ as)

/-- Erasing duplicates keeps the length just where there are none. -/
theorem length_eraseDups_eq_iff (l : List Nat) : l.eraseDups.length = l.length ↔ l.Nodup := by
  induction l with
  | nil => simp
  | cons a as ih =>
    have hle := length_eraseDups_le (as.filter fun b => !b == a)
    have hfilter := List.length_filter_le (fun b => !b == a) as
    have hself : (as.filter fun b => !b == a) = as ↔ a ∉ as := by
      rw [List.filter_eq_self]
      exact ⟨fun h hmem => by simpa using h a hmem, fun h b hb => by simpa using fun e : b = a => h (e ▸ hb)⟩
    rw [List.eraseDups_cons, List.length_cons, List.length_cons, List.nodup_cons, ← ih, ← hself, Nat.succ_inj]
    constructor
    · intro h
      have hself := List.filter_sublist.eq_of_length (show (as.filter fun b => !b == a).length = as.length by omega)
      exact ⟨hself, by rwa [hself] at h⟩
    · rintro ⟨hself, h⟩
      rwa [hself]

theorem sortRegsOk_iff (ks ps : List (Fin 32)) : sortRegsOk ks ps = true ↔
    (∀ v ∈ ps, v.val % 2 = 0) ∧ (ks.map (·.val) ++ ps.flatMap fun v => [v.val, v.val + 1]).Nodup := by
  simp only [sortRegsOk, Bool.and_eq_true, List.all_eq_true, beq_iff_eq, length_eraseDups_eq_iff]

theorem sortRegsOk_two_keys (va vb : Fin 32) : sortRegsOk [va, vb] [] = true ↔ va ≠ vb := by
  simp [sortRegsOk_iff, Fin.ext_iff]

/-- A key register lies outside a payload group. -/
def KeyApart (vk vp : Fin 32) : Prop := vk.val ≠ vp.val ∧ vk.val ≠ vp.val + 1

theorem keyApart_of_sortRegsOk {vk vp : Fin 32} (h : sortRegsOk [vk] [vp] = true) : KeyApart vk vp := by
  obtain ⟨-, hnodup⟩ := (sortRegsOk_iff _ _).1 h
  simpa [KeyApart] using hnodup

/-- The registers of two pairs lie apart. -/
structure PairsApart (va pa vb pb : Fin 32) : Prop where
  first : KeyApart va pa
  second : KeyApart vb pb
  keys : va ≠ vb
  cross : KeyApart va pb
  crossBack : KeyApart vb pa
  groups : pa.val ≠ pb.val ∧ pa.val ≠ pb.val + 1 ∧ pb.val ≠ pa.val + 1

theorem pairsApart_of_sortRegsOk {va pa vb pb : Fin 32} (h : sortRegsOk [va, vb] [pa, pb] = true) : PairsApart va pa vb pb := by
  obtain ⟨-, hnodup⟩ := (sortRegsOk_iff _ _).1 h
  simp only [List.map_cons, List.map_nil, List.flatMap_cons, List.flatMap_nil, List.cons_append, List.nil_append, List.nodup_cons, List.mem_cons] at hnodup
  constructor <;> simp only [KeyApart, ne_eq, Fin.ext_iff] <;> omega

/-! ### Bytes of the slot -/

theorem leNat_lt (b : Bytes) : leNat b < 256 ^ b.length := by
  induction b with
  | nil => simp [leNat]
  | cons x xs ih =>
    have := x.isLt
    simp only [leNat, List.length_cons, pow_succ]
    omega

theorem State.vread_length (s : State) (r : CtxRef) (o n : Nat) : (s.vread r o n).length = n := by
  unfold State.vread
  split
  · exact Memory.read_length _ n o
  · simp [zeros]

/-- What a context reads of its slot depends on which slot it has and on the slots of its core. -/
theorem State.vread_congr (hslot : (t.ctx r).slot = (s.ctx r).slot) (hslots : (t.core r.core).slots = (s.core r.core).slots) (o n : Nat) :
    t.vread r o n = s.vread r o n := by
  rw [State.vread, State.vread, hslot, hslots]

@[simp] theorem State.vread_holdUnit (o n : Nat) : (s.holdUnit r).vread r o n = s.vread r o n :=
  State.vread_congr (by simp) (by simp [State.holdUnit]) o n

@[simp] theorem State.vread_wx (rd : Fin 32) (v : BitVec 64) (o n : Nat) : (s.modCtx r (·.wx rd v)).vread r o n = s.vread r o n := by
  obtain ⟨-, -, hslot⟩ := (s.ctx r).wx_place rd v
  exact State.vread_congr (by simpa using hslot) (by simp) o n

@[simp] theorem State.vread_retire (p : Part) (n k o : Nat) : (s.retire p r n).vread r o k = s.vread r o k :=
  State.vread_congr (by simp [State.retire, State.ctx_retireTo]) (by simp [State.retire]) o k

@[simp] theorem State.keys_holdUnit (v : Fin 32) : (s.holdUnit r).keys r v = s.keys r v := by simp [State.keys]
@[simp] theorem State.keys_retire (p : Part) (n : Nat) (v : Fin 32) : (s.retire p r n).keys r v = s.keys r v := by simp [State.keys]
@[simp] theorem State.pair_holdUnit (vk vp : Fin 32) : (s.holdUnit r).pair r vk vp = s.pair r vk vp := by simp [State.pair, State.pays]
@[simp] theorem State.pair_retire (p : Part) (n : Nat) (vk vp : Fin 32) : (s.retire p r n).pair r vk vp = s.pair r vk vp := by
  simp [State.pair, State.pays]
@[simp] theorem State.pair_wx (rd : Fin 32) (v : BitVec 64) (vk vp : Fin 32) : (s.modCtx r (·.wx rd v)).pair r vk vp = s.pair r vk vp := by
  simp [State.pair, State.pays, State.keys]

@[simp] theorem State.setPair_ctx (vk vp : Fin 32) (l : List (Nat × Nat)) : (s.setPair r vk vp l).ctx r = s.ctx r := by simp [State.setPair]

theorem State.rx_retire (p : Part) (n : Nat) (x : Fin 32) : ((s.retire p r n).ctx r).rx x = (s.ctx r).rx x := by
  rw [State.retire, State.ctx_retireTo]
  rfl

theorem Ctx.rx_wx_same (c : Ctx) {rd : Fin 32} (v : BitVec 64) (h : rd ≠ 0) : (c.wx rd v).rx rd = v := by
  have h0 : rd.val ≠ 0 := fun e => h (Fin.ext e)
  simp [Ctx.wx, Ctx.rx, h0]

/-! ### Lanes and entries -/

theorem State.keys_length (v : Fin 32) : (s.keys r v).length = 128 := by simp [State.keys]

theorem State.keys_lt {v : Fin 32} {x : Nat} (h : x ∈ s.keys r v) : x < 2 ^ 32 := by
  simp only [State.keys, List.mem_map] at h
  obtain ⟨l, -, rfl⟩ := h
  simpa [State.vread_length] using leNat_lt (s.vread r (512 * v.val + 4 * l) 4)

theorem State.pays_lt {v : Fin 32} {x : Nat} (h : x ∈ s.pays r v) : x < 2 ^ 64 := by
  simp only [State.pays, List.mem_map] at h
  obtain ⟨l, -, rfl⟩ := h
  simpa [State.vread_length] using leNat_lt (s.vread r (512 * v.val + 8 * l) 8)

/-- An entry fits a key lane and a payload lane. -/
def EntryFits (e : Nat × Nat) : Prop := e.1 < 2 ^ 32 ∧ e.2 < 2 ^ 64

theorem entryFits_zero : EntryFits (0, 0) := ⟨by decide, by decide⟩
theorem entryFits_padding : EntryFits padding := ⟨by decide, by decide⟩

theorem entryFits_ite {a b : Nat × Nat} (c : Bool) (ha : EntryFits a) (hb : EntryFits b) : EntryFits (if c then a else b) := by
  cases c
  · exact hb
  · exact ha

/-- Entries that fill a pair of registers. -/
def FillsPair (l : List (Nat × Nat)) : Prop := l.length = 128 ∧ ∀ e ∈ l, EntryFits e

theorem State.pair_fills (s : State) (r : CtxRef) (vk vp : Fin 32) : FillsPair (s.pair r vk vp) := by
  refine ⟨by simp [State.pair, State.keys, State.pays], fun e he => ?_⟩
  obtain ⟨hk, hp⟩ := List.of_mem_zip he
  exact ⟨State.keys_lt hk, State.pays_lt hp⟩

theorem FillsPair.nth_fits {l : List (Nat × Nat)} (h : FillsPair l) (i : Nat) : EntryFits (nth l i (0, 0)) := by
  unfold nth
  cases hi : l[i]? with
  | none => exact entryFits_zero
  | some e => exact h.2 e (List.mem_of_getElem? hi)

theorem fillsPair_map_range {f : Nat → Nat × Nat} (h : ∀ l, EntryFits (f l)) : FillsPair ((List.range 128).map f) := by
  refine ⟨by simp, fun e he => ?_⟩
  obtain ⟨l, -, rfl⟩ := List.mem_map.1 he
  exact h l

theorem FillsPair.map {l : List (Nat × Nat)} (h : FillsPair l) {f : Nat × Nat → Nat × Nat} (hf : ∀ e, EntryFits e → EntryFits (f e)) :
    FillsPair (l.map f) := by
  refine ⟨by simp [h.1], fun e he => ?_⟩
  obtain ⟨x, hx, rfl⟩ := List.mem_map.1 he
  exact hf x (h.2 x hx)

theorem nth_map_range {α : Type} (f : Nat → α) (d : α) {n l : Nat} (h : l < n) : nth ((List.range n).map f) l d = f l := by
  simp [nth, h]

/-- A pair just written is what is read. -/
theorem State.pair_setPair_same (hslot : (s.ctx r).slot.isSome = true) {vk vp : Fin 32} (hregs : KeyApart vk vp) {l : List (Nat × Nat)}
    (hl : FillsPair l) : (s.setPair r vk vp l).pair r vk vp = l := by
  obtain ⟨hlen, hfit⟩ := hl
  rw [State.pair, State.setPair, State.keys_setPays _ _ _ (by simpa using hlen) hregs,
    State.keys_setKeys _ _ _ _ hslot (by simpa using hlen) (by simpa using fun a b h => (hfit (a, b) h).1),
    State.pays_setPays _ _ _ _ (by simpa using hslot) (by simpa using hlen) (by simpa using fun b a h => (hfit (a, b) h).2)]
  simpa using List.zip_unzip l

/-- A pair written to registers apart leaves another pair. -/
theorem State.pair_setPair_other {va pa vb pb : Fin 32} (hregs : PairsApart va pa vb pb) {l : List (Nat × Nat)} (hl : FillsPair l) :
    (s.setPair r vb pb l).pair r va pa = s.pair r va pa := by
  obtain ⟨hlen, -⟩ := hl
  rw [State.pair, State.setPair, State.keys_setPays _ _ _ (by simpa using hlen) hregs.cross,
    State.keys_setKeys_ne _ _ _ (by simpa using hlen) hregs.keys, State.pays_setPays_ne _ _ _ (by simpa using hlen) hregs.groups,
    State.pays_setKeys _ _ _ (by simpa using hlen) hregs.crossBack]
  rfl

end Sys2Proof.Machine
end

section
/-! PROOFS. The statements of 05_selection_and_merge about the sort instructions. -/
namespace Sys2Proof.Machine

variable {s : State} {core : Fin 864} {p : Part} {r : CtxRef}

/-! ### Keys and scores (R173, R179) -/

/-- The key of an FP32 value, by the table of R173. -/
def keyBits (x : BitVec 32) : BitVec 32 :=
  if x.extractLsb' 23 8 = 255 ∧ x.extractLsb' 0 23 ≠ 0 then 0x007FFFFF
  else if x = 0x80000000 then 0x80000000
  else if x.msb then ~~~ x else x ^^^ 0x80000000

/-- The score of a key, by the table of R173. -/
def scoreBits (y : BitVec 32) : BitVec 32 := if y.msb then y ^^^ 0x80000000 else ~~~ y

theorem fisNan_fp32 (x : BitVec 32) : fisNan Fmt.fp32 x.toNat = true ↔ x.extractLsb' 23 8 = 255 ∧ x.extractLsb' 0 23 ≠ 0 := by
  have hexp : x.extractLsb' 23 8 = 255 ↔ x.toNat / 2 ^ 23 % 2 ^ 8 = 255 := by
    rw [← BitVec.toNat_inj, BitVec.extractLsb'_toNat, Nat.shiftRight_eq_div_pow]
    rfl
  have hfrac : x.extractLsb' 0 23 ≠ 0 ↔ x.toNat % 2 ^ 23 ≠ 0 := by
    rw [Ne, ← BitVec.toNat_inj, BitVec.extractLsb'_toNat]
    rfl
  rw [hexp, hfrac]
  by_cases he : x.toNat / 2 ^ 23 % 2 ^ 8 = 255
  · by_cases hf : x.toNat % 2 ^ 23 = 0 <;> simp_all [fisNan, fdecode, Fmt.fp32, FVal.isNan]
  · by_cases h0 : x.toNat / 2 ^ 23 % 2 ^ 8 = 0 <;> simp_all [fisNan, fdecode, Fmt.fp32, FVal.isNan]

theorem keyOf_toNat (x : BitVec 32) : keyOf x.toNat = (keyBits x).toNat := by
  have hneg : x.msb = true ↔ ¬ x.toNat < 0x80000000 := by rw [BitVec.msb_eq_decide]; simp
  have hzero : (x.toNat == 0x80000000) = true ↔ x = 0x80000000 := by rw [beq_iff_eq, ← BitVec.toNat_inj]; rfl
  simp only [keyOf, keyBits, fisNan_fp32, hzero, hneg]
  split_ifs <;> simp

theorem scoreOf_toNat (y : BitVec 32) : scoreOf y.toNat = (scoreBits y).toNat := by
  have hneg : y.msb = true ↔ y.toNat ≥ 0x80000000 := by rw [BitVec.msb_eq_decide]; simp
  simp only [scoreOf, scoreBits, hneg]
  split_ifs <;> simp

/-- The lanes that a conversion of words leaves in its destination. -/
theorem lane_setKeys (hslot : (s.ctx r).slot.isSome = true) {vd vs2 : Fin 32} {f : Nat → Nat} {g : BitVec 32 → BitVec 32}
    (hfg : ∀ x : BitVec 32, f x.toNat = (g x).toNat) {l : Nat} (hl : l < 128) :
    BitVec.ofNat 32 (((s.setKeys r vd ((s.keys r vs2).map f)).keys r vd).getD l 0) = g (BitVec.ofNat 32 ((s.keys r vs2).getD l 0)) := by
  have hword : ∀ x < 2 ^ 32, f x = (g (BitVec.ofNat 32 x)).toNat := fun x hx => by
    rw [← hfg, BitVec.toNat_ofNat, Nat.mod_eq_of_lt hx]
  have hlen : l < (s.keys r vs2).length := by rwa [State.keys_length]
  rw [State.keys_setKeys _ _ _ _ hslot (by simp [State.keys_length])]
  · simp only [List.getD_eq_getElem?_getD, List.getElem?_map, List.getElem?_eq_getElem hlen, Option.map_some, Option.getD_some]
    rw [hword _ (State.keys_lt (List.getElem_mem hlen)), BitVec.ofNat_toNat, BitVec.setWidth_eq]
  · intro y hy
    obtain ⟨x, hx, rfl⟩ := List.mem_map.1 hy
    rw [hword x (State.keys_lt hx)]
    exact BitVec.isLt _

/-- AB.KEYF and AB.KEYR write the converted lanes, and nothing else of the registers (R179). -/
theorem runs_abKey (hi : Issues s core p r) (hq : Quiet s r) (hv : HasVector s r) (w : Nat) (back : Bool) {vd vs2 : Fin 32} (hne : vd ≠ vs2)
    {g : BitVec 32 → BitVec 32} (hg : ∀ x : BitVec 32, (if back then scoreOf x.toNat else keyOf x.toNat) = (g x).toNat) :
    Runs (settled (s.issue core fun p r => s.abKey p r w back vd vs2)) fun u =>
      (∀ l < 128, BitVec.ofNat 32 ((u.keys r vd).getD l 0) = g (BitVec.ofNat 32 ((s.keys r vs2).getD l 0))) ∧
      (∀ v, v ≠ vd → u.keys r v = s.keys r v) ∧ WentOn s u r ∧ OthersStay s u r ∧ OnlyCores s u := by
  rw [hi.issue_eq, State.abKey, State.sortOp_runs hq hv p w ((sortRegsOk_two_keys vd vs2).2 hne)]
  refine runs_settled ⟨fun l hl => ?_, fun v hvd => ?_, StaysAt.retire (.setKeys .holdUnit vd _) p⟩
  · rw [State.keys_retire, lane_setKeys hv.slot_holdUnit hg hl, State.keys_holdUnit]
  · rw [State.keys_retire, State.keys_setKeys_ne _ _ _ (by simp [State.keys_length]) hvd, State.keys_holdUnit]

/-- Settles O22: both conversions are one run, of a function that is the table of R173 on words. -/
theorem sortKeysConvert : Obligations.SortKeysConvert := by
  intro s core p r hi hq key score lane vd vs2 hv
  refine ⟨fun hne => ⟨runs_abKey hi hq hv _ false hne keyOf_toNat, runs_abKey hi hq hv _ true hne scoreOf_toNat⟩, fun heq => ?_⟩
  have hoverlap : sortRegsOk [vd, vs2] [] = false := Bool.eq_false_iff.2 fun h => (sortRegsOk_two_keys vd vs2).1 h heq
  refine ⟨_, congrArg settled (hi.issue_eq _), ?_⟩
  exact State.sortOp_overlap p _ hoverlap [] true _

/-! ### Steps on pairs (R180–R183) -/

theorem cxStep_fills (i j : Nat) (m : Bool) {e : List (Nat × Nat)} (he : FillsPair e) : FillsPair (cxStep i j m e) :=
  fillsPair_map_range fun _ => entryFits_ite _ (he.nth_fits _) (he.nth_fits _)

/-- The lane of the second pair that a lane of the first is compared with (R181). -/
def crossLane (mirror : Bool) (l : Nat) : Nat := if mirror then 127 - l else l

theorem crossLane_lt (mirror : Bool) {l : Nat} (h : l < 128) : crossLane mirror l < 128 := by
  unfold crossLane
  split <;> omega

theorem crossLane_crossLane (mirror : Bool) {l : Nat} (h : l < 128) : crossLane mirror (crossLane mirror l) = l := by
  cases mirror
  · rfl
  · simp only [crossLane, if_true]
    omega

/-- Whether lane `l` of the first pair and the lane it is compared with change places (R181). -/
def crossSwaps (mirror d m : Bool) (a b : List (Nat × Nat)) (l : Nat) : Bool :=
  if d then comesFirst m (nth a l (0, 0)) (nth b (crossLane mirror l) (0, 0)) else comesFirst m (nth b (crossLane mirror l) (0, 0)) (nth a l (0, 0))

/-- What AB.CXP and AB.MX leave in the first pair. -/
def crossFirst (mirror d m : Bool) (a b : List (Nat × Nat)) : List (Nat × Nat) :=
  (List.range 128).map fun l => if crossSwaps mirror d m a b l then nth b (crossLane mirror l) (0, 0) else nth a l (0, 0)

/-- What AB.CXP and AB.MX leave in the second pair. -/
def crossSecond (mirror d m : Bool) (a b : List (Nat × Nat)) : List (Nat × Nat) :=
  (List.range 128).map fun l => if crossSwaps mirror d m a b (crossLane mirror l) then nth a (crossLane mirror l) (0, 0) else nth b l (0, 0)

section Cross
variable (mirror d m : Bool) {a b : List (Nat × Nat)}

theorem crossFirst_fills (ha : FillsPair a) (hb : FillsPair b) : FillsPair (crossFirst mirror d m a b) :=
  fillsPair_map_range fun _ => entryFits_ite _ (hb.nth_fits _) (ha.nth_fits _)

theorem crossSecond_fills (ha : FillsPair a) (hb : FillsPair b) : FillsPair (crossSecond mirror d m a b) :=
  fillsPair_map_range fun _ => entryFits_ite _ (ha.nth_fits _) (hb.nth_fits _)

theorem nth_crossSecond {l : Nat} (hl : l < 128) : nth (crossSecond mirror d m a b) (crossLane mirror l) (0, 0) =
    if crossSwaps mirror d m a b l then nth a l (0, 0) else nth b (crossLane mirror l) (0, 0) := by
  rw [crossSecond, nth_map_range _ _ (crossLane_lt mirror hl), crossLane_crossLane mirror hl]

end Cross

/-- A lane of AB.DROP is a duplicate: it holds an id, and that of the lane before it, or of `prev` for lane 0 (R182). -/
def dropsLane (prev : Nat) (e : List (Nat × Nat)) (l : Nat) : Bool :=
  payId (nth e l (0, 0)).2 != 2 ^ 48 - 1 && payId (nth e l (0, 0)).2 == if l = 0 then prev % 2 ^ 48 else payId (nth e (l - 1) (0, 0)).2

/-- What AB.DROP leaves in the pair. -/
def dropDuplicates (prev : Nat) (e : List (Nat × Nat)) : List (Nat × Nat) :=
  (List.range 128).map fun l => if dropsLane prev e l then padding else nth e l (0, 0)

theorem dropDuplicates_fills (prev : Nat) {e : List (Nat × Nat)} (he : FillsPair e) : FillsPair (dropDuplicates prev e) :=
  fillsPair_map_range fun _ => entryFits_ite _ entryFits_padding (he.nth_fits _)

theorem State.abCross_eq (s : State) (p : Part) (r : CtxRef) (w : Nat) (mirror : Bool) (vka vpa vkb vpb : Fin 32) (d m : Bool) :
    s.abCross p r w mirror vka vpa vkb vpb d m = s.sortOp p r w [vka, vkb] [vpa, vpb] [] true fun s =>
      (s.setPair r vka vpa (crossFirst mirror d m (s.pair r vka vpa) (s.pair r vkb vpb))).setPair r vkb vpb
        (crossSecond mirror d m (s.pair r vka vpa) (s.pair r vkb vpb)) := rfl

theorem State.abDrop_eq (s : State) (p : Part) (r : CtxRef) (w : Nat) (rd vk vp rs1 : Fin 32) :
    s.abDrop p r w rd vk vp rs1 = s.sortOp p r w [vk] [vp] [rd, rs1] true fun s =>
      (s.setPair r vk vp (dropDuplicates ((s.ctx r).rx rs1).toNat (s.pair r vk vp))).modCtx r fun c =>
        c.wx rd (BitVec.ofNat 64 ((List.range 128).filter (dropsLane ((s.ctx r).rx rs1).toNat (s.pair r vk vp))).length) := by
  simp only [State.abDrop, dropDuplicates, dropsLane, beq_iff_eq]
  rfl

/-! ### Runs of the instructions on pairs -/

/-- A sort instruction that only rewrites one pair leaves there what it computes, and goes on. -/
theorem runs_sortOp_setPair (hq : Quiet s r) (hv : HasVector s r) (p : Part) (w : Nat) {vk vp : Fin 32} (hregs : sortRegsOk [vk] [vp] = true)
    (xs : List (Fin 32)) {f : State → List (Nat × Nat)} {l : List (Nat × Nat)} (hf : f (s.holdUnit r) = l) (hl : FillsPair l) :
    Runs (settled (s.sortOp p r w [vk] [vp] xs true fun s => s.setPair r vk vp (f s))) fun u =>
      u.pair r vk vp = l ∧ WentOn s u r ∧ OthersStay s u r ∧ OnlyCores s u := by
  rw [State.sortOp_runs hq hv p w hregs, hf]
  refine runs_settled ⟨?_, StaysAt.retire (.setPair .holdUnit vk vp l) p⟩
  rw [State.pair_retire, State.pair_setPair_same hv.slot_holdUnit (keyApart_of_sortRegsOk hregs) hl]

theorem runs_abCx (hq : Quiet s r) (hv : HasVector s r) (p : Part) (w : Nat) {vk vp : Fin 32} (hregs : sortRegsOk [vk] [vp] = true) {i j : Fin 8}
    (hij : j < i) (m : Bool) : Runs (settled (s.abCx p r w vk vp i j m)) fun u =>
      u.pair r vk vp = cxStep i.val j.val m (s.pair r vk vp) ∧ WentOn s u r ∧ OthersStay s u r ∧ OnlyCores s u := by
  have hlevels : (i.val != 0 && j.val < i.val) = true := by
    simp only [Bool.and_eq_true, bne_iff_ne, decide_eq_true_eq]
    omega
  rw [State.abCx, hlevels]
  exact runs_sortOp_setPair hq hv p w hregs [] (by rw [State.pair_holdUnit]) (cxStep_fills i.val j.val m (s.pair_fills r vk vp))

theorem runs_abCross (hq : Quiet s r) (hv : HasVector s r) (p : Part) (w : Nat) {vka vpa vkb vpb : Fin 32}
    (hregs : sortRegsOk [vka, vkb] [vpa, vpb] = true) (mirror d m : Bool) :
    let a := s.pair r vka vpa
    let b := s.pair r vkb vpb
    Runs (settled (s.abCross p r w mirror vka vpa vkb vpb d m)) fun u =>
      (u.pair r vka vpa = crossFirst mirror d m a b ∧ u.pair r vkb vpb = crossSecond mirror d m a b) ∧
      WentOn s u r ∧ OthersStay s u r ∧ OnlyCores s u := by
  intro a b
  have ha : FillsPair a := s.pair_fills r vka vpa
  have hb : FillsPair b := s.pair_fills r vkb vpb
  have hapart := pairsApart_of_sortRegsOk hregs
  rw [State.abCross_eq, State.sortOp_runs hq hv p w hregs]
  refine runs_settled ⟨?_, StaysAt.retire (.setPair (.setPair .holdUnit vka vpa _) vkb vpb _) p⟩
  simp only [State.pair_retire, State.pair_holdUnit]
  constructor
  · rw [State.pair_setPair_other hapart (crossSecond_fills mirror d m ha hb),
      State.pair_setPair_same hv.slot_holdUnit hapart.first (crossFirst_fills mirror d m ha hb)]
  · exact State.pair_setPair_same (by simpa using hv.1) hapart.second (crossSecond_fills mirror d m ha hb)

theorem runs_abDrop (hq : Quiet s r) (hv : HasVector s r) (p : Part) (w : Nat) {vk vp : Fin 32} (hregs : sortRegsOk [vk] [vp] = true)
    (rd rs1 : Fin 32) :
    let prev := ((s.ctx r).rx rs1).toNat
    let e := s.pair r vk vp
    Runs (settled (s.abDrop p r w rd vk vp rs1)) fun u => u.pair r vk vp = dropDuplicates prev e ∧
      (rd ≠ 0 → (u.ctx r).rx rd = BitVec.ofNat 64 ((List.range 128).filter (dropsLane prev e)).length) ∧
      WentOn s u r ∧ OthersStay s u r ∧ OnlyCores s u := by
  intro prev e
  have he : FillsPair e := s.pair_fills r vk vp
  rw [State.abDrop_eq, State.sortOp_runs hq hv p w hregs]
  refine runs_settled ⟨?_, fun hrd => ?_, StaysAt.retire (.wx (.setPair .holdUnit vk vp _) rd _) p⟩
  · rw [State.pair_retire, State.pair_wx, State.pair_holdUnit, State.ctx_holdUnit,
      State.pair_setPair_same hv.slot_holdUnit (keyApart_of_sortRegsOk hregs) (dropDuplicates_fills prev he)]
  · rw [State.rx_retire, State.ctx_modCtx_same, Ctx.rx_wx_same _ _ hrd, State.pair_holdUnit, State.ctx_holdUnit]

theorem runs_abBnd (hq : Quiet s r) (hv : HasVector s r) (p : Part) (w : Nat) {vk vp : Fin 32} (hregs : sortRegsOk [vk] [vp] = true)
    (rs1 rs2 : Fin 32) :
    let bnd : Nat × Nat := (((s.ctx r).rx rs1).toNat % 2 ^ 32, ((s.ctx r).rx rs2).toNat % 2 ^ 48)
    Runs (settled (s.abBnd p r w vk vp rs1 rs2)) fun u =>
      u.pair r vk vp = (s.pair r vk vp).map (fun e => if scoreBefore bnd e then e else padding) ∧
      WentOn s u r ∧ OthersStay s u r ∧ OnlyCores s u := by
  intro bnd
  exact runs_sortOp_setPair hq hv p w hregs [rs1, rs2] (by rw [State.pair_holdUnit, State.ctx_holdUnit])
    ((s.pair_fills r vk vp).map fun e he => entryFits_ite _ he entryFits_padding)

/-- AB.MX is AB.CXP on the lanes mirrored (R181); their words differ. -/
theorem Issues.exec_cross (hi : Issues s core p r) (vka vpa vkb vpb : Fin 32) (d m mirror : Bool) : ∃ w,
    (if mirror then exec (.abMx core vka vpa vkb vpb d m) s else exec (.abCxp core vka vpa vkb vpb d m) s) =
      settled (s.abCross p r w mirror vka vpa vkb vpb d m) := by
  cases mirror <;> exact ⟨_, congrArg settled (hi.issue_eq _)⟩

/-- Settles O23: each instruction is its work on pairs between the hold of the vector unit and the retirement, and a pair just written reads back. -/
theorem sortCompareAndCross : Obligations.SortCompareAndCross := by
  intro s core p r hi hq hv
  refine ⟨fun vk vp i j m hregs hij => ?_, fun vka vpa vkb vpb d m mirror hregs => ?_, fun rd vk vp rs1 hregs => ?_,
    fun vk vp rs1 rs2 hregs => ?_⟩
  · obtain ⟨u, hu, hpost⟩ := runs_abCx hq hv p _ hregs hij m
    exact ⟨u, (congrArg settled (hi.issue_eq _)).trans hu, hpost⟩
  · obtain ⟨w, hexec⟩ := hi.exec_cross vka vpa vkb vpb d m mirror
    obtain ⟨u, hu, ⟨hfirst, hsecond⟩, hwent⟩ := runs_abCross hq hv p w hregs mirror d m
    refine ⟨u, hexec.trans hu, fun l hl => ⟨?_, ?_⟩, hwent⟩
    · rw [hfirst]
      exact nth_map_range _ _ hl
    · rw [hsecond]
      exact nth_crossSecond mirror d m hl
  · obtain ⟨u, hu, hpost⟩ := runs_abDrop hq hv p _ hregs rd rs1
    exact ⟨u, (congrArg settled (hi.issue_eq _)).trans hu, hpost⟩
  · obtain ⟨u, hu, hpost⟩ := runs_abBnd hq hv p _ hregs rs1 rs2
    exact ⟨u, (congrArg settled (hi.issue_eq _)).trans hu, hpost⟩

end Sys2Proof.Machine
end

section
/-! SUPPORT. The registers of the tiles and the state of their engines through the operations that engines share: records, memory writes, meters and
read counts keep them all. One lemma for each operation; a lemma rests on those above it. -/
namespace Sys2Proof.Machine

variable (s : State)

/-! ### What keeps the tiles' units -/

/-- The tile registers, the gather and matrix engines and the queues are the same in two states. -/
@[simp] abbrev State.SameUnits (t s : State) : Prop := t.tiles = s.tiles ∧ t.gather = s.gather ∧ t.matrix = s.matrix ∧ t.queues = s.queues

section SameUnits
variable {s} {u : State} (h : u.SameUnits s)
include h

theorem State.SameUnits.tiles : u.tiles = s.tiles := h.1

theorem State.SameUnits.gather : u.gather = s.gather := h.2.1

theorem State.SameUnits.matrix : u.matrix = s.matrix := h.2.2.1

theorem State.SameUnits.queues : u.queues = s.queues := h.2.2.2

end SameUnits

/-! #### Stamps, records of the log and of the capture -/

@[simp] theorem State.caskClose_units : s.caskClose.SameUnits s := by
  unfold State.caskClose
  split <;> simp

@[simp] theorem State.takeStamp_units : s.takeStamp.2.SameUnits s := by
  unfold State.takeStamp
  dsimp only
  split <;> simp

@[simp] theorem State.stampOrZero_units : s.stampOrZero.2.SameUnits s := by
  unfold State.stampOrZero
  split
  · simp
  · exact ⟨rfl, rfl, rfl, rfl⟩

@[simp] theorem State.emit_units (o : Out) : (s.emit o).SameUnits s := ⟨rfl, rfl, rfl, rfl⟩

@[simp] theorem State.logRecord_units (r : Report) : (s.logRecord r).2.SameUnits s := by
  unfold State.logRecord
  dsimp only
  repeat' split
  all_goals simp

@[simp] theorem State.caskPut_units (typ part source : Nat) (body : Bytes) : (s.caskPut typ part source body).SameUnits s := by
  unfold State.caskPut
  dsimp only
  repeat' split
  all_goals simp

@[simp] theorem State.caskRec_units (typ part source : Nat) (body : Bytes) : (s.caskRec typ part source body).SameUnits s := by
  unfold State.caskRec
  split <;> simp

@[simp] theorem State.caskEvent_units (part ev : Nat) (payload : Bytes) : (s.caskEvent part ev payload).SameUnits s := by
  simp [State.caskEvent]

@[simp] theorem State.consume_units (r : ReplayRec) : (s.consume r).SameUnits s := ⟨rfl, rfl, rfl, rfl⟩

@[simp] theorem State.caskMedia_units (part kind addr : Nat) (entries : List Nat) : (s.caskMedia part kind addr entries).SameUnits s := by
  unfold State.caskMedia
  repeat' split
  all_goals simp

/-- A report is the record of the log, with or without an event of the capture. -/
theorem State.report_eq (r : Report) : s.report r = (s.logRecord r).2 ∨ ∃ b, s.report r = (s.logRecord r).2.caskEvent r.part 1 b := by
  unfold State.report
  split
  next h =>
    rw [h]
    split
    · exact .inr ⟨_, rfl⟩
    · exact .inl rfl
  next h => exact .inl (by rw [h])

@[simp] theorem State.report_units (r : Report) : (s.report r).SameUnits s := by
  obtain h | ⟨b, h⟩ := s.report_eq r <;> simp [h]

@[simp] theorem State.fenceRecord_units (kind unit : Nat) (fenced mgmt data : Bool) (part : Nat) :
    (s.fenceRecord kind unit fenced mgmt data part).SameUnits s := by
  simp [State.fenceRecord]

@[simp] theorem State.arrayFenceRecord_units (tile a : Nat) (fenced : Bool) : (s.arrayFenceRecord tile a fenced).SameUnits s := by
  simp [State.arrayFenceRecord]

@[simp] theorem State.gatherFenceRecord_units (tile : Nat) (fenced : Bool) : (s.gatherFenceRecord tile fenced).SameUnits s := by
  simp [State.gatherFenceRecord]

/-! #### Memory, meters and reads of the media -/

@[simp] theorem State.clearResv_units (lo hi : Nat) (by_ : Option CtxRef) : (s.clearResv lo hi by_).SameUnits s := ⟨rfl, rfl, rfl, rfl⟩

@[simp] theorem State.modMem_units (k : Nat) (f : MemCtl → MemCtl) : (s.modMem k f).SameUnits s := ⟨rfl, rfl, rfl, rfl⟩

@[simp] theorem State.locWrite_units (l : Loc) (b : Bytes) (by_ : Option CtxRef) : (s.locWrite l b by_).SameUnits s := by
  unfold State.locWrite
  dsimp only
  repeat' split
  all_goals simp

/-- A fold keeps the units where each of its steps does. -/
theorem foldl_units {α β : Type} (g : β → State) {f : β → α → β} (h : ∀ b a, (g (f b a)).SameUnits (g b)) (l : List α) (b : β) :
    (g (l.foldl f b)).SameUnits (g b) :=
  ⟨foldl_keeps (fun b => (g b).tiles) (fun b a => (h b a).tiles) l b, foldl_keeps (fun b => (g b).gather) (fun b a => (h b a).gather) l b,
    foldl_keeps (fun b => (g b).matrix) (fun b a => (h b a).matrix) l b, foldl_keeps (fun b => (g b).queues) (fun b a => (h b a).queues) l b⟩

@[simp] theorem State.pmWrite_units (p : Part) (o : Nat) (b : Bytes) : (s.pmWrite p o b).SameUnits s :=
  foldl_units (fun acc : State × Bytes => acc.1) (by simp) _ _

@[simp] theorem State.slotWrite_units (p : Part) (q : QueueDef) (slot : Nat) (b : Bytes) : (s.slotWrite p q slot b).SameUnits s := by
  unfold State.slotWrite
  split <;> simp

@[simp] theorem State.charge_units (tag : BitVec 9) (part i n : Nat) : (s.charge tag part i n).SameUnits s := by
  obtain ⟨m, h⟩ := s.charge_eq tag part i n
  simp [h]

@[simp] theorem State.modCarrier_units (c : Nat) (f : Carrier → Carrier) : (s.modCarrier c f).SameUnits s := ⟨rfl, rfl, rfl, rfl⟩

@[simp] theorem State.countErr_units (cls : Nat) : (s.countErr cls).SameUnits s := ⟨rfl, rfl, rfl, rfl⟩

@[simp] theorem State.countRead_units (k step tag : Nat) (degrades : Bool) : (s.countRead k step tag degrades).SameUnits s := by
  unfold State.countRead
  dsimp only
  repeat' split
  all_goals simp

/-! ### Reads after writes of a tile's registers and engines -/

variable {t : Nat}

@[simp] theorem State.tile_modTile_same (f : TileRegs → TileRegs) : (s.modTile t f).tile t = f (s.tile t) := by
  simp [State.modTile, State.tile, SMap.modify]

@[simp] theorem State.gth_modGth_same (f : Gth → Gth) : (s.modGth t f).gth t = f (s.gth t) := by
  simp [State.modGth, State.gth, SMap.modify]

@[simp] theorem State.mtx_modMtx_same (f : Mtx → Mtx) : (s.modMtx t f).mtx t = f (s.mtx t) := by
  simp [State.modMtx, State.mtx, SMap.modify]

variable {s} {u : State}

theorem State.tile_congr (h : u.tiles = s.tiles) : u.tile t = s.tile t := by rw [State.tile, h, State.tile]

theorem State.gth_congr (h : u.gather = s.gather) : u.gth t = s.gth t := by rw [State.gth, h, State.gth]

theorem State.queue_congr (h : u.queues = s.queues) (p id : Nat) : u.queue p id = s.queue p id := by rw [State.queue, h, State.queue]

end Sys2Proof.Machine
end

section
/-! SUPPORT. The control registers of a tile's units, and the fences of its matrix arrays and its gather engine: what a write of one field does, and what a
fence leaves alone (R235–R237, R278, R310–R314, R593). -/
namespace Sys2Proof.Machine

variable {s : State} {t a : Nat}

/-! ### The words of the registers (R278, R574) -/

/-- The windows of the tiles' units. -/
theorem windowBlock_of_window {w : Nat} (h : 64 ≤ w) : windowBlock (65536 * w) =
    if w < 160 then some (.tile (w - 64)) else if w < 256 then some (.gather (w - 160)) else if w < 352 then some (.matrix (w - 256)) else none := by
  have hw : 65536 * w / 65536 = w := by omega
  simp only [windowBlock, hw]
  iterate 8 rw [if_neg (by omega)]

/-- The lowest field of a register's word, and the fields above it. -/
theorem testBit_pack_cons {w v : Nat} (hv : v < 2 ^ w) (r : List (Nat × Nat)) (i : Nat) :
    (pack ((w, v) :: r)).testBit i = if i < w then v.testBit i else (pack r).testBit (i - w) := by
  rw [pack, Nat.mod_eq_of_lt hv, Nat.add_comm, Nat.testBit_two_pow_mul_add _ hv]

theorem b2n_lt (x : Bool) : b2n x < 2 ^ 1 := by cases x <;> decide

theorem testBit_b2n_zero (x : Bool) : (b2n x).testBit 0 = x := by cases x <;> rfl

/-- What each bit of TILE_FENCE reads (R278). -/
theorem State.fenceWord_testBit (s : State) (t i : Nat) : (s.fenceWord t).testBit i =
    if i < 9 then (s.tile t).core.getLsbD i else if i < 13 then (s.tile t).array.getLsbD (i - 9) else decide (i = 13) && (s.tile t).gather := by
  change (pack [(9, (s.tile t).core.toNat), (4, (s.tile t).array.toNat), (1, b2n (s.tile t).gather)]).testBit i = _
  rw [testBit_pack_cons (s.tile t).core.isLt, testBit_pack_cons (s.tile t).array.isLt, testBit_pack_cons (b2n_lt _)]
  split
  · rfl
  have h13 : i - 9 < 4 ↔ i < 13 := by omega
  simp only [h13]
  split
  · rfl
  obtain rfl | hi := eq_or_ne i 13
  · exact testBit_b2n_zero _
  · have hhigh : ¬ i - 9 - 4 < 1 := by omega
    simp [hhigh, hi, pack]

theorem State.fenceWord_lt (s : State) (t : Nat) : s.fenceWord t < 2 ^ 14 := by
  refine Nat.lt_pow_two_of_testBit _ fun i hi => ?_
  have h13 : i ≠ 13 := by omega
  rw [State.fenceWord_testBit, if_neg (by omega), if_neg (by omega), decide_eq_false h13, Bool.false_and]

/-! ### Folds of which few elements act -/

/-- A fold whose elements all leave its start as it is. -/
theorem foldl_of_fixed {α β : Type} {f : β → α → β} {b : β} {l : List α} (h : ∀ x ∈ l, f b x = b) : l.foldl f b = b :=
  List.foldlRecOn l f (motive := (· = b)) rfl fun _ hc x hx => hc ▸ h x hx

/-- A fold in which only one element acts, before and after it acted. -/
theorem foldl_of_single {α β : Type} {f : β → α → β} {b : β} {a : α} {l : List α} (hl : l.Nodup) (ha : a ∈ l)
    (hbefore : ∀ x ∈ l, x ≠ a → f b x = b) (hafter : ∀ x ∈ l, x ≠ a → f (f b a) x = f b a) : l.foldl f b = f b a := by
  obtain ⟨pre, post, rfl⟩ := List.append_of_mem ha
  have hout : a ∉ pre ++ post := (List.nodup_cons.1 (List.nodup_middle.1 hl)).1
  have hpre : pre.foldl f b = b :=
    foldl_of_fixed fun x hx => hbefore x (by simp [hx]) (ne_of_mem_of_not_mem (List.mem_append_left _ hx) hout)
  have hpost : post.foldl f (f b a) = f b a :=
    foldl_of_fixed fun x hx => hafter x (by simp [hx]) (ne_of_mem_of_not_mem (List.mem_append_right _ hx) hout)
  rw [List.foldl_append, hpre, List.foldl_cons, hpost]

/-! ### Bits of TILE_FENCE written as they stand (R276, R278) -/

theorem State.writeCoreFence_same {core : Nat} {b : Bool} (h : b = (s.tile (tileOf core)).core.getLsbD (coreNo core)) :
    s.writeCoreFence core b false = s := by
  unfold State.writeCoreFence
  cases b <;> simp [← h]

theorem State.writeArrayFence_same {b : Bool} (h : b = (s.tile t).array.getLsbD a) : s.writeArrayFence t a b = s := by
  simp [State.writeArrayFence, h]

/-! ### What the phases and fences of a matrix engine leave alone -/

/-- Only the matrix engines differ. -/
def OnlyMatrix (s t : State) : Prop := t = { s with matrix := t.matrix }

theorem OnlyMatrix.trans {s t u : State} (h : OnlyMatrix s t) (h' : OnlyMatrix t u) : OnlyMatrix s u := by
  unfold OnlyMatrix at *
  rw [h', h]

theorem OnlyMatrix.refl (s : State) : OnlyMatrix s s := rfl

theorem OnlyMatrix.foldl {α : Type} {f : State → α → State} (h : ∀ s x, OnlyMatrix s (f s x)) (l : List α) (s : State) : OnlyMatrix s (l.foldl f s) :=
  List.foldlRecOn l f (.refl s) fun u hu x _ => hu.trans (h u x)

theorem OnlyMatrix.modMtx (f : Mtx → Mtx) : OnlyMatrix s (s.modMtx t f) := rfl

theorem OnlyMatrix.modMtxCmd (f : MtxCmd → MtxCmd) : OnlyMatrix s (s.modMtxCmd t f) := rfl

theorem OnlyMatrix.ite {c : Prop} [Decidable c] {u v : State} (hu : OnlyMatrix s u) (hv : OnlyMatrix s v) : OnlyMatrix s (if c then u else v) := by
  split <;> assumption

theorem OnlyMatrix.arrayDrained (s : State) (t a : Nat) : OnlyMatrix s (s.arrayDrained t a) := .modMtx _

theorem OnlyMatrix.endDrains (s : State) (t : Nat) : OnlyMatrix s (s.endDrains t) :=
  .foldl (fun u b => .ite (.arrayDrained u t b) (.refl u)) _ s

theorem OnlyMatrix.endMatrix (s : State) (t st : Nat) : OnlyMatrix s (s.endMatrix t st) :=
  .trans (.modMtxCmd _) (.endDrains _ t)

theorem OnlyMatrix.startPhase (s : State) (t : Nat) : OnlyMatrix s (s.startPhase t) := by
  unfold State.startPhase
  split
  · exact .refl s
  refine .ite (.refl s) (.ite (.modMtxCmd _) ?_)
  dsimp only
  split
  · exact .refl s
  · exact .trans (.foldl (fun u b => .ite (.arrayDrained u t b) (.refl u)) _ s) (.modMtxCmd _)

theorem OnlyMatrix.hardFenceArray (s : State) (t a : Nat) : OnlyMatrix s (s.hardFenceArray t a) :=
  .ite (.trans (.modMtx _) (.endMatrix _ t 6)) (.modMtx _)

theorem OnlyMatrix.drainArray (s : State) (t a : Nat) : OnlyMatrix s (s.drainArray t a) :=
  .ite (.ite (.hardFenceArray s t a) (.modMtx _)) (.modMtx _)

theorem OnlyMatrix.releaseArray (s : State) (t a : Nat) : OnlyMatrix s (s.releaseArray t a) :=
  .ite (.refl s) (.ite (.modMtx _) (.startPhase s t))

theorem OnlyMatrix.tile {u : State} (h : OnlyMatrix s u) : u.tile t = s.tile t := by
  rw [h]
  rfl

theorem OnlyMatrix.time {u : State} (h : OnlyMatrix s u) : u.time = s.time := by
  rw [h]

/-! ### What the fences of an array do (R310, R311, R314) -/

/-- The array is fenced hard and does not drain. -/
def State.HardFenced (s : State) (t a : Nat) : Prop := (s.mtx t).hard.getLsbD a = true ∧ (s.mtx t).draining.getLsbD a = false

theorem State.HardFenced.arrayDrained (h : s.HardFenced t a) (ha : a < 4) {b : Nat} (hb : a ≠ b) : (s.arrayDrained t b).HardFenced t a := by
  simpa [State.HardFenced, State.arrayDrained, getLsbD_bput _ _ _ _ ha, hb] using h

/-- The drains that end are those of other arrays. -/
theorem State.HardFenced.endDrains (h : s.HardFenced t a) (ha : a < 4) : (s.endDrains t).HardFenced t a := by
  refine List.foldlRecOn (motive := (State.HardFenced · t a)) _ _ h fun u hu b _ => ?_
  split
  next hdrains =>
    have hb : a ≠ b := fun hab => by simp [State.arrayDraining, ← hab, hu.2] at hdrains
    exact hu.arrayDrained ha hb
  next => exact hu

theorem State.HardFenced.modMtxCmd (h : s.HardFenced t a) (f : MtxCmd → MtxCmd) : (s.modMtxCmd t f).HardFenced t a := by
  simpa [State.HardFenced, State.modMtxCmd] using h

theorem State.hardFenced_hardFenceArray (s : State) (t : Nat) {a : Nat} (ha : a < 4) : (s.hardFenceArray t a).HardFenced t a := by
  have hset : State.HardFenced (s.modMtx t fun m =>
      { m with hard := bput m.hard a true, draining := bput m.draining a false, drainAt := m.drainAt.set 0 a 0 }) t a := by
    simp [State.HardFenced, getLsbD_bput _ _ _ _ ha]
  unfold State.hardFenceArray
  dsimp only
  split
  · exact (hset.modMtxCmd _).endDrains ha
  · exact hset

theorem State.tile_arrayBits (f : State → State) (k : Nat) : (s.arrayBits t a f).tile k = (f s).tile k := by
  unfold State.arrayBits
  dsimp only
  split
  · exact State.tile_congr (State.arrayFenceRecord_units _ t a _).tiles
  · rfl

/-- The change of an array's management bit, with its record (R595). -/
def State.putArrayBit (s : State) (t a : Nat) (b : Bool) : State := s.arrayBits t a fun s => s.modTile t fun r => { r with array := bput r.array a b }

theorem State.tile_putArrayBit (b : Bool) : (s.putArrayBit t a b).tile t = { s.tile t with array := bput (s.tile t).array a b } := by
  rw [State.putArrayBit, State.tile_arrayBits, State.tile_modTile_same]

theorem State.fenceArray_putArrayBit (s : State) (t a : Nat) : OnlyMatrix (s.putArrayBit t a true) (s.fenceArray t a) :=
  .ite (.refl _) (.drainArray _ t a)

theorem State.unfenceArray_putArrayBit (h : (s.tile t).array.getLsbD a = true) : OnlyMatrix (s.putArrayBit t a false) (s.unfenceArray t a) := by
  rw [State.unfenceArray, h, if_neg (by decide)]
  exact .releaseArray _ t a

/-- A write that changes an array's bit fences or unfences the array. -/
theorem State.writeArrayFence_changed {b : Bool} (h : b ≠ (s.tile t).array.getLsbD a) :
    s.writeArrayFence t a b = if b then s.fenceArray t a else s.unfenceArray t a := by
  simp only [State.writeArrayFence, beq_eq_false_iff_ne.2 h, Bool.false_eq_true, if_false]

/-- It leaves the tile's other registers as they were. -/
theorem State.tile_writeArrayFence {b : Bool} (h : b ≠ (s.tile t).array.getLsbD a) :
    (s.writeArrayFence t a b).tile t = { s.tile t with array := bput (s.tile t).array a b } := by
  rw [State.writeArrayFence_changed h]
  cases b
  · have hold : (s.tile t).array.getLsbD a = true := by simpa using h.symm
    rw [if_neg (by decide), (State.unfenceArray_putArrayBit hold).tile, State.tile_putArrayBit]
  · rw [if_pos rfl, (State.fenceArray_putArrayBit s t a).tile, State.tile_putArrayBit]

/-! ### Writes of TILE_FENCE that change one bit (R278) -/

/-- The word reads as TILE_FENCE does, but for one bit. -/
def State.FenceWordBut (s : State) (t k v : Nat) : Prop := ∀ i ≠ k, v.testBit i = (s.fenceWord t).testBit i

theorem State.fenceWordBut_set (s : State) (t k : Nat) : s.FenceWordBut t k (s.fenceWord t ||| 2 ^ k) := fun i hi => by
  rw [Nat.testBit_or, Nat.testBit_two_pow, decide_eq_false hi.symm, Bool.or_false]

theorem testBit_set (w k : Nat) : (w ||| 2 ^ k).testBit k = true := by rw [Nat.testBit_or, Nat.testBit_two_pow_self, Bool.or_true]

/-- The mask of TILE_FENCE's fields but for one bit. -/
theorem testBit_mask {k : Nat} (hk : k < 14) (i : Nat) : (0x3FFF - 2 ^ k).testBit i = (decide (i < 14) && !decide (k = i)) := by
  have hlt : 2 ^ k < 2 ^ 14 := Nat.pow_lt_pow_right (by decide) hk
  have hmask : 0x3FFF - 2 ^ k = 2 ^ 14 - (2 ^ k + 1) := by omega
  rw [hmask, Nat.testBit_two_pow_sub_succ hlt, Nat.testBit_two_pow]

theorem State.fenceWordBut_clear (s : State) (t : Nat) {k : Nat} (hk : k < 14) :
    s.FenceWordBut t k (s.fenceWord t &&& (0x3FFF - 2 ^ k)) := fun i hi => by
  rw [Nat.testBit_and, testBit_mask hk, decide_eq_false hi.symm, Bool.not_false, Bool.and_true]
  by_cases hlt : i < 14
  · rw [decide_eq_true hlt, Bool.and_true]
  · have hhigh : s.fenceWord t < 2 ^ i := lt_of_lt_of_le (s.fenceWord_lt t) (Nat.pow_le_pow_right (by decide) (by omega))
    rw [Nat.testBit_lt_two_pow hhigh, Bool.false_and]

theorem testBit_clear (w : Nat) {k : Nat} (hk : k < 14) : (w &&& (0x3FFF - 2 ^ k)).testBit k = false := by
  rw [Nat.testBit_and, testBit_mask hk, decide_eq_true rfl, Bool.not_true, Bool.and_false, Bool.and_false]

section
variable {k v : Nat} (h : s.FenceWordBut t k v)
include h

theorem State.FenceWordBut.core (hk : 9 ≤ k) {c : Nat} (hc : c < 9) : v.testBit c = (s.tile t).core.getLsbD c := by
  rw [h c (by omega), State.fenceWord_testBit, if_pos hc]

theorem State.FenceWordBut.force (hk : k < 14) (c : Nat) : v.testBit (16 + c) = false := by
  have h13 : 16 + c ≠ 13 := by omega
  rw [h _ (by omega), State.fenceWord_testBit, if_neg (by omega), if_neg (by omega), decide_eq_false h13, Bool.false_and]

theorem State.FenceWordBut.array {b : Nat} (hb : b < 4) (hne : 9 + b ≠ k) : v.testBit (9 + b) = (s.tile t).array.getLsbD b := by
  rw [h _ hne, State.fenceWord_testBit, if_neg (by omega), if_pos (by omega), Nat.add_sub_cancel_left]

theorem State.FenceWordBut.gather (hk : k ≠ 13) : v.testBit 13 = (s.tile t).gather := by
  rw [h _ hk.symm, State.fenceWord_testBit]
  rfl

/-- Its cores are written as they stand, none forced (R276). -/
theorem State.FenceWordBut.foldl_cores (h9 : 9 ≤ k) (h14 : k < 14) :
    (List.range 9).foldl (fun (s : State) (c : Nat) => s.writeCoreFence (9 * t + c) (v.testBit c) (v.testBit (16 + c))) s = s := by
  refine foldl_of_fixed fun c hc => ?_
  have hlt : c < 9 := List.mem_range.1 hc
  have htile : tileOf (9 * t + c) = t := by unfold tileOf; omega
  have hno : coreNo (9 * t + c) = c := by unfold coreNo; omega
  rw [h.force h14]
  exact State.writeCoreFence_same (by rw [htile, hno, h.core h9 hlt])

end

/-- A write that changes an array's bit and no other fences or unfences the array. -/
theorem State.tileFence_arrayBit {v : Nat} (h : s.FenceWordBut t (9 + a) v) (ha : a < 4) {b : Bool} (hv : v.testBit (9 + a) = b)
    (hb : b ≠ (s.tile t).array.getLsbD a) : s.tileFence t v = (if b then s.fenceArray t a else s.unfenceArray t a).kick := by
  have htile := State.tile_writeArrayFence hb
  have hfold : (List.range 4).foldl (fun (s : State) (c : Nat) => s.writeArrayFence t c (v.testBit (9 + c))) s = s.writeArrayFence t a b := by
    rw [← hv] at htile ⊢
    refine foldl_of_single List.nodup_range (List.mem_range.2 ha) (fun c hc hne => ?_) fun c hc hne => ?_
    · exact State.writeArrayFence_same (h.array (List.mem_range.1 hc) (by omega))
    · refine State.writeArrayFence_same ?_
      rw [htile, getLsbD_bput _ _ _ _ (List.mem_range.1 hc), if_neg hne, h.array (List.mem_range.1 hc) (by omega)]
  rw [← State.writeArrayFence_changed hb]
  simp only [State.tileFence, h.foldl_cores (by omega) (by omega), hfold, htile, h.gather (by omega), beq_self_eq_true, if_true]

/-- A write that changes the gather bit and no other sets it so. -/
theorem State.tileFence_gatherBit {v : Nat} (h : s.FenceWordBut t 13 v) {b : Bool} (hv : v.testBit 13 = b) (hb : b ≠ (s.tile t).gather) :
    s.tileFence t v = (s.setGatherFence t fun r => { r with gather := b }).kick := by
  have hfold : (List.range 4).foldl (fun (s : State) (c : Nat) => s.writeArrayFence t c (v.testBit (9 + c))) s = s := by
    refine foldl_of_fixed fun c hc => State.writeArrayFence_same ?_
    have hlt : c < 4 := List.mem_range.1 hc
    exact h.array hlt (by omega)
  simp only [State.tileFence, h.foldl_cores (by decide) (by decide), hfold, hv, beq_eq_false_iff_ne.2 hb.symm, Bool.false_eq_true, if_false]

/-! ### The write of a register by a path -/

/-- A live node performs the write of a window's first word, unrecorded, as its block's write (R11, R573, R608). -/
theorem State.regVia_firstWord (h : Live s) (path : RegPath) {w v : Nat} {b : Block} (hb : windowBlock (65536 * w) = some b) (hv : v < 2 ^ 14) :
    s.regVia path (65536 * w) v = s.blockWrite b 0 v {} := by
  have hzero : 65536 * w % 65536 / 4 * 4 = 0 := by omega
  rw [State.regVia, State.spaceWrite, State.viaReg_live h]
  change s.regWrite (65536 * w) _ {} = _
  rw [State.regWrite_block hb, hzero, BitVec.toNat_ofNat, Nat.mod_eq_of_lt (by omega)]

section Registers
variable (h : Live s) (path : RegPath) (ht : t < 96) {v : Nat} (hv : v < 2 ^ 14)
include h ht hv

theorem State.regVia_tileFence : s.regVia path (tileFenceAt t) v = s.tileFence t v := by
  have hoff : tileFenceAt t = 65536 * (64 + t) := by unfold tileFenceAt; omega
  have hb : windowBlock (65536 * (64 + t)) = some (.tile t) := by
    rw [windowBlock_of_window (by omega), if_pos (by omega), Nat.add_sub_cancel_left]
  rw [hoff, State.regVia_firstWord h path hb hv]
  rfl

theorem State.regVia_gthCtrl : s.regVia path (gthCtrlAt t) v = s.wrGather t 0 v := by
  have hoff : gthCtrlAt t = 65536 * (160 + t) := by unfold gthCtrlAt; omega
  have hb : windowBlock (65536 * (160 + t)) = some (.gather t) := by
    rw [windowBlock_of_window (by omega), if_neg (by omega), if_pos (by omega), Nat.add_sub_cancel_left]
  rw [hoff, State.regVia_firstWord h path hb hv]
  rfl

theorem State.regVia_mtxCtrl : s.regVia path (mtxCtrlAt t) v = s.wrMatrix t 0 v := by
  have hoff : mtxCtrlAt t = 65536 * (256 + t) := by unfold mtxCtrlAt; omega
  have hb : windowBlock (65536 * (256 + t)) = some (.matrix t) := by
    rw [windowBlock_of_window (by omega), if_neg (by omega), if_neg (by omega), if_pos (by omega), Nat.add_sub_cancel_left]
  rw [hoff, State.regVia_firstWord h path hb hv]
  rfl

end Registers

theorem State.fenceWord_set_lt (s : State) (t : Nat) {k : Nat} (hk : k < 14) : s.fenceWord t ||| 2 ^ k < 2 ^ 14 :=
  Nat.or_lt_two_pow (s.fenceWord_lt t) (Nat.pow_lt_pow_right (by decide) hk)

theorem State.fenceWord_clear_lt (s : State) (t m : Nat) : s.fenceWord t &&& m < 2 ^ 14 := lt_of_le_of_lt Nat.and_le_left (s.fenceWord_lt t)

/-! ### The rows of the fences -/

section Exec
variable (h : Live s) (path : RegPath)
include h

section Array
variable {array : Fin 384}

theorem exec_arrayFenceRequest (hbit : (s.tile (array.val / 4)).array.getLsbD (array.val % 4) = false) :
    exec (.arrayFenceRequest path array) s = settled (s.fenceArray (array.val / 4) (array.val % 4)).kick := by
  have ha : array.val % 4 < 4 := Nat.mod_lt _ (by decide)
  refine congrArg settled ?_
  rw [State.regVia_tileFence h path (by omega) (s.fenceWord_set_lt _ (by omega)),
    State.tileFence_arrayBit (s.fenceWordBut_set _ _) ha (testBit_set _ _) (by rw [hbit]; decide), if_pos rfl]

theorem exec_arrayUnfence (hbit : (s.tile (array.val / 4)).array.getLsbD (array.val % 4) = true) :
    exec (.arrayUnfence path array) s = settled (s.unfenceArray (array.val / 4) (array.val % 4)).kick := by
  have ha : array.val % 4 < 4 := Nat.mod_lt _ (by decide)
  refine congrArg settled ?_
  rw [State.regVia_tileFence h path (by omega) (s.fenceWord_clear_lt _ _),
    State.tileFence_arrayBit (s.fenceWordBut_clear _ (by omega)) ha (testBit_clear _ (by omega)) (by rw [hbit]; decide), if_neg (by decide)]

end Array

variable {tile : Fin 96}

theorem exec_gatherFenceRequest (hbit : (s.tile tile).gather = false) :
    exec (.gatherFenceRequest path tile) s = settled (s.setGatherFence tile fun r => { r with gather := true }).kick := by
  refine congrArg settled ?_
  rw [State.regVia_tileFence h path tile.isLt (s.fenceWord_set_lt _ (by decide)),
    State.tileFence_gatherBit (s.fenceWordBut_set _ _) (testBit_set _ _) (by rw [hbit]; decide)]

theorem exec_gatherUnfence (hbit : (s.tile tile).gather = true) :
    exec (.gatherUnfence path tile) s = settled (s.setGatherFence tile fun r => { r with gather := false }).kick := by
  have hmask : (0x1FFF : Nat) = 0x3FFF - 2 ^ 13 := by norm_num
  refine congrArg settled ?_
  rw [State.regVia_tileFence h path tile.isLt (s.fenceWord_clear_lt _ _), hmask,
    State.tileFence_gatherBit (s.fenceWordBut_clear _ (by decide)) (testBit_clear _ (by decide)) (by rw [hbit]; decide)]

end Exec

/-- FORCE for one array, PAUSE as it stands, forces that array and no other (R311, R313). -/
theorem State.wrMatrix_force (s : State) (t : Nat) {a : Nat} (ha : a < 4) :
    s.wrMatrix t 0 (2 ^ (1 + a) + b2n (s.mtx t).pause) = s.forceArray t a := by
  have hbit (i : Nat) : (2 ^ (1 + a) + b2n (s.mtx t).pause).testBit i = if i < 1 then (b2n (s.mtx t).pause).testBit i else decide (a = i - 1) := by
    rw [pow_add, Nat.testBit_two_pow_mul_add _ (b2n_lt _), Nat.testBit_two_pow]
  have hpause : (2 ^ (1 + a) + b2n (s.mtx t).pause).testBit 0 = (s.mtx t).pause := by rw [hbit, if_pos (by decide), testBit_b2n_zero]
  have hforce (b : Nat) : (2 ^ (1 + a) + b2n (s.mtx t).pause).testBit (1 + b) = decide (a = b) := by
    rw [hbit, if_neg (by omega), Nat.add_sub_cancel_left]
  simp only [State.wrMatrix, hpause, hforce, beq_self_eq_true, if_true]
  rw [foldl_of_single List.nodup_range (List.mem_range.2 ha) (fun b _ hne => if_neg (by simpa using hne.symm)) fun b _ hne => if_neg (by simpa using hne.symm)]
  exact if_pos (decide_eq_true rfl)

theorem exec_arrayForce (h : Live s) (path : RegPath) {array : Fin 384} (hbit : (s.tile (array.val / 4)).array.getLsbD (array.val % 4) = true)
    (htest : s.underTest 2 array.val = false) :
    exec (.arrayForce path array) s = settled (s.hardFenceArray (array.val / 4) (array.val % 4)) := by
  have ha : array.val % 4 < 4 := Nat.mod_lt _ (by decide)
  have hunit : arrayUnit (array.val / 4) (array.val % 4) = array.val := Nat.div_add_mod _ _
  have hpow : 2 ^ (1 + array.val % 4) < 2 ^ 5 := Nat.pow_lt_pow_right (by decide) (by omega)
  have hpause := b2n_lt (s.mtx (array.val / 4)).pause
  refine congrArg settled ?_
  rw [State.regVia_mtxCtrl h path (by omega) (by omega), State.wrMatrix_force s _ ha, State.forceArray, hbit, hunit, htest, if_neg (by decide)]

theorem exec_arrayDrainLimit {array : Fin 384} (h : s.arrayDraining (array.val / 4) (array.val % 4) = true) :
    exec (.arrayDrainLimit array) s = settled ((s.advanceTo ((s.mtx (array.val / 4)).drainAt.get 0 (array.val % 4) +
      (s.tile (array.val / 4)).limitUs.toNat * 1000)).hardFenceArray (array.val / 4) (array.val % 4)) := by
  refine congrArg settled ?_
  rw [State.arrayLimit, h, if_neg (by decide)]

/-! ### What the fence of a gather engine does (R237, R593) -/

/-- The gather fence with the bits that `f` gives, before it is recorded: an engine that is fenced fails what it runs. -/
def State.putGatherFence (s : State) (t : Nat) (f : TileRegs → TileRegs) : State :=
  if (s.modTile t f).gatherFenced t then (s.modTile t f).gatherFail t else s.modTile t f

theorem State.setGatherFence_units (s : State) (t : Nat) (f : TileRegs → TileRegs) : (s.setGatherFence t f).SameUnits (s.putGatherFence t f) := by
  change State.SameUnits (if _ then _ else s.putGatherFence t f) _
  split
  · exact State.gatherFenceRecord_units _ t _
  · exact ⟨rfl, rfl, rfl, rfl⟩

theorem State.tile_setGatherFence (s : State) (t : Nat) (f : TileRegs → TileRegs) : (s.setGatherFence t f).tile t = f (s.tile t) := by
  rw [State.tile_congr (s.setGatherFence_units t f).tiles, ← s.tile_modTile_same f]
  unfold State.putGatherFence
  split <;> rfl

/-- A fence fails the command that has not ended (R237). -/
theorem State.gth_setGatherFence (f : TileRegs → TileRegs) (hf : (f (s.tile t)).gather = true) : (s.setGatherFence t f).gth t = (s.gatherFail t).gth t := by
  have hfenced : (s.modTile t f).gatherFenced t = true := by simp [State.gatherFenced, hf]
  rw [State.gth_congr (s.setGatherFence_units t f).gather, State.putGatherFence, if_pos hfenced]
  rfl

theorem State.cmd_gatherFail {c : GthCmd} (hc : (s.gth t).cmd = some c) (hs : c.status = none) :
    ((s.gatherFail t).gth t).cmd = some { c with status := some 6, windowOpen := false, todo := [], segs := [] } := by
  simp [State.gatherFail, State.modGthCmd, hc, hs]

end Sys2Proof.Machine
end

section
/-! SUPPORT. The gather engine: what it takes, how a row retires, its completion, and its control register (R222–R236). -/
namespace Sys2Proof.Machine

variable {s : State} {tile : Nat}

/-! ### Taking a command (R222–R226) -/

/-- A command passes every check against a version of its table (R223–R225). -/
structure State.AcceptsGather (s : State) (p : Part) (tile : Nat) (d : Bytes) (t : Tab) : Prop where
  fields : s.gatherOk p tile d = true
  fresh : s.rack ≤ (stampAt d 8).time.toNat + 50000000
  version : ∃ off, s.tableHead p (fieldAt d 2 2) = some off ∧ s.tableVersion p (fieldAt d 2 2) (stampAt d 8) chainFuel off = .found t
  dims : t.dims ≠ 0
  output : p.gOk tile (fieldAt d 0x30 8) (fieldAt d 4 4 * t.dims * gOutBytes d) = true
  accumulators : fieldAt d 0x38 4 + 256 * t.dims ≤ 0x400000

theorem State.gatherTake_of_accepts {p : Part} {q : QueueDef} {e : QEntry} {b : Bytes} {s' : State} {t : Tab}
    (hidle : (s.gth tile).cmd = none) (hpause : (s.gth tile).pause = false) (hon : s.gatherOn tile = true)
    (hqueue : lowestQueue (s.engineQueues 6 tile fun t => (s.enables t).getLsbD 13) = some (p, q)) (htake : s.unitTake p q = some (e, b, s'))
    (h : s'.AcceptsGather p tile (b.take 64) t) : s.gatherTake tile =
      ((s'.modGth tile fun g => { g with cmd := some { part := p.num, desc := b.take 64, tag := e.tag, ver := t.off } }).charge e.tag p.num 2
        (gUnits tile (fieldAt (b.take 64) 0x18 8) (8 * fieldAt (b.take 64) 4 4))).openWindow tile := by
  obtain ⟨hok, hfresh, ⟨off, hhead, hver⟩, hdims, hout, hacc⟩ := h
  have hserve : ¬ ((s.gth tile).cmd.isSome || (s.gth tile).pause || !s.gatherOn tile) = true := by simp [hidle, hpause, hon]
  have hstale : ¬ (stampAt (b.take 64) 8).time.toNat + 50000000 < s'.rack := by omega
  have hempty : ¬ (t.dims == 0) = true := by simpa using hdims
  have hplaces : ¬ (!p.gOk tile (fieldAt (b.take 64) 0x30 8) (fieldAt (b.take 64) 4 4 * t.dims * gOutBytes (b.take 64)) ||
      decide (fieldAt (b.take 64) 0x38 4 + 256 * t.dims > 0x400000)) = true := by simp [hout, hacc]
  simp only [State.gatherTake, hqueue, htake, hok, hhead, hver, if_neg hserve, if_neg hstale, if_neg hempty, if_neg hplaces,
    Bool.not_true, Bool.false_eq_true, if_false]

/-! ### A row retires while its window is open (R228, R230, R231) -/

/-- The engine runs a command with this descriptor, in an open window of these segments. -/
def State.InWindow (s : State) (tile : Nat) (d : Bytes) (segs : List GthSeg) : Prop :=
  ∃ c, (s.gth tile).cmd = some c ∧ c.desc = d ∧ c.segs = segs ∧ c.windowOpen = true

variable {d : Bytes} {segs : List GthSeg}

theorem State.InWindow.of_gather {u : State} (h : s.InWindow tile d segs) (hu : u.gather = s.gather) : u.InWindow tile d segs := by
  rwa [State.InWindow, State.gth_congr hu]

theorem State.InWindow.modGth (h : s.InWindow tile d segs) {f : Gth → Gth} (hf : ∀ g, (f g).cmd = g.cmd) : (s.modGth tile f).InWindow tile d segs := by
  rwa [State.InWindow, State.gth_modGth_same, hf]

theorem State.InWindow.modGthCmd (h : s.InWindow tile d segs) {f : GthCmd → GthCmd}
    (hf : ∀ c, (f c).desc = c.desc ∧ (f c).segs = c.segs ∧ (f c).windowOpen = c.windowOpen) : (s.modGthCmd tile f).InWindow tile d segs := by
  obtain ⟨c, hc, hd, hsegs, hopen⟩ := h
  obtain ⟨hd', hsegs', hopen'⟩ := hf c
  refine ⟨f c, ?_, hd'.trans hd, hsegs'.trans hsegs, hopen'.trans hopen⟩
  rw [State.modGthCmd, State.gth_modGth_same, hc, Option.map_some]

theorem State.InWindow.charge (h : s.InWindow tile d segs) (tag : BitVec 9) (part i n : Nat) : (s.charge tag part i n).InWindow tile d segs :=
  h.of_gather (s.charge_units tag part i n).gather

theorem State.InWindow.report (h : s.InWindow tile d segs) (r : Report) : (s.report r).InWindow tile d segs :=
  h.of_gather (s.report_units r).gather

theorem State.InWindow.lookRow (h : s.InWindow tile d segs) (p : Part) (t : Tab) (r : Nat) : (s.lookRow p tile t r).2.2.InWindow tile d segs := by
  unfold State.lookRow
  split
  · exact h
  dsimp only
  split
  · exact h.modGth fun _ => rfl
  split
  · exact h
  · exact h
  · exact h.modGth fun _ => rfl

theorem State.poolRow_units (s : State) (tile : Nat) (d : Bytes) (e r : Nat) (v : List Nat) (segs : List GthSeg) :
    (s.poolRow tile d e r v segs).SameUnits s := by
  refine foldl_units id (fun u x => ?_) segs s
  dsimp only [id]
  split
  · exact ⟨rfl, rfl, rfl, rfl⟩
  · exact State.locWrite_units _ _ _ _

/-- What the engine does with the outcome of a look, for `occ` places that name the row: the row's values, and the command's counts (R230, R231). -/
def State.countLook (s : State) (p : Part) (tile : Nat) (t : Tab) (c : GthCmd) (r occ : Nat) : Look → List Nat × State
  | .oor => (List.replicate t.dims f32zero, s.modGthCmd tile fun c => { c with absent := c.absent + occ, oor := c.oor + occ })
  | .absent => (List.replicate t.dims f32zero, s.modGthCmd tile fun c => { c with absent := c.absent + occ })
  | .bad =>
    (List.replicate t.dims f32zero, ((s.modGth tile fun g => { g with err := bput g.err 1 true }).modGthCmd tile fun c =>
      { c with errs := c.errs + 1, badRows := c.badRows ++ [r] }).report
        { cls := 7, cause := 1, part := p.num, kind := 3, unit := tile, loc := r, tag := c.tag.toNat, detail := t.id })
  | .mem b a =>
    (rowF32 b t.dims, (s.charge c.tag p.num 2 (unitsOf a b.length).length).modGthCmd tile fun x =>
      { x with reads := x.reads + 1, coal := x.coal + (occ - 1), rereads := x.rereads + b2n (c.seen.contains r) })
  | .flash b k =>
    (rowF32 b t.dims, ((s.countRead k (s.defaultStep k)).charge c.tag p.num 4 1).modGthCmd tile fun x =>
      { x with reads := x.reads + 1, coal := x.coal + (occ - 1), rereads := x.rereads + b2n (c.seen.contains r), flash := x.flash + 1 })

theorem State.InWindow.countLook (h : s.InWindow tile d segs) (p : Part) (t : Tab) (c : GthCmd) (r occ : Nat) (l : Look) :
    (s.countLook p tile t c r occ l).2.InWindow tile d segs := by
  cases l with
  | oor => exact .modGthCmd h fun _ => ⟨rfl, rfl, rfl⟩
  | absent => exact .modGthCmd h fun _ => ⟨rfl, rfl, rfl⟩
  | bad =>
    refine State.InWindow.report (.modGthCmd (.modGth h ?_) ?_) _
    · exact fun _ => rfl
    · exact fun _ => ⟨rfl, rfl, rfl⟩
  | mem b a =>
    refine .modGthCmd (h.charge _ _ _ _) ?_
    exact fun _ => ⟨rfl, rfl, rfl⟩
  | flash b k =>
    refine .modGthCmd (.charge (h.of_gather (s.countRead_units _ _ _ _).gather) _ _ _ _) ?_
    exact fun _ => ⟨rfl, rfl, rfl⟩

/-- A row that is not the window's last is counted and pooled, and leaves the rows to come. -/
theorem State.gatherRetire_eq {c : GthCmd} {p : Part} {r y : Nat} {rest : List Nat} (hcmd : (s.gth tile).cmd = some c) (hpart : s.part? c.part = some p)
    (hopen : c.windowOpen = true) (hrun : c.status = none) (htodo : c.todo = r :: y :: rest) : ∃ (t : Tab) (l : Look) (occ units : Nat),
    let looked := (s.lookRow p tile t r).2.2.countLook p tile t c r occ l
    s.gatherRetire tile = ((looked.2.charge c.tag p.num 2 units).poolRow tile c.desc t.dims r looked.1 c.segs).modGthCmd tile fun c =>
      { c with todo := y :: rest } := by
  let t := parseTab c.ver (s.pmRead p c.ver 512)
  refine ⟨t, if (s.replayMedia p.num 3 (fieldAt c.desc 0x30 8)).any fun x => x.contains (r % 65536) then .bad else (s.lookRow p tile t r).1,
    (c.segs.flatMap fun x => (x.rows.filter (·.1 == r)).map fun y => y.2.2).sum, (s.lookRow p tile t r).2.1, ?_⟩
  have hserve : ¬ (!c.windowOpen || c.status.isSome) = true := by simp [hopen, hrun]
  simp only [State.gatherRetire, hcmd, hpart, if_neg hserve, htodo, List.isEmpty_cons, Bool.false_eq_true, if_false]
  rfl

theorem State.gatherRetire_row {c : GthCmd} {p : Part} {r y : Nat} {rest : List Nat} (hcmd : (s.gth tile).cmd = some c) (hpart : s.part? c.part = some p)
    (hopen : c.windowOpen = true) (hrun : c.status = none) (htodo : c.todo = r :: y :: rest) : ∃ c', ((s.gatherRetire tile).gth tile).cmd = some c' ∧
      c'.todo = y :: rest ∧ c'.desc = c.desc ∧ c'.segs = c.segs ∧ c'.windowOpen = true := by
  obtain ⟨t, l, occ, units, heq⟩ := State.gatherRetire_eq hcmd hpart hopen hrun htodo
  have hstart : s.InWindow tile c.desc c.segs := ⟨c, hcmd, rfl, rfl, hopen⟩
  obtain ⟨c', hcmd', hdesc, hsegs, hopen'⟩ := (((hstart.lookRow p t r).countLook p t c r occ l).charge c.tag p.num 2
    units).of_gather (State.poolRow_units _ tile c.desc t.dims r _ c.segs).gather
  refine ⟨{ c' with todo := y :: rest }, ?_, rfl, hdesc, hsegs, hopen'⟩
  rw [heq, State.modGthCmd, State.gth_modGth_same, hcmd', Option.map_some]

/-! ### Completions (R233, R234) -/

/-- A posted entry joins its queue behind the others, and no other unit changes. -/
theorem State.post_of_free {p : Part} {q : QueueDef} {n : Nat} (hfree : freeSlot ((s.queue p.num q.id).entries.map (·.slot)) q.size = some n)
    (b : Bytes) (tag : BitVec 9) (req : Option Nat) (std : Option StdWork) :
    ((s.post p q b tag req std).queue p.num q.id).entries = (s.queue p.num q.id).entries ++ [{ slot := n, tag := tag, req := req, std := std }] ∧
      (s.post p q b tag req std).gather = s.gather := by
  simp only [State.post, hfree]
  refine ⟨?_, (s.slotWrite_units p q n _).gather⟩
  simp [State.setQueue, State.queue]

/-- The engine after a command with status 0: free, and the command counted. -/
def Gth.completed (g : Gth) (c : GthCmd) : Gth :=
  { g with cmd := none, cmdCnt := g.cmdCnt + 1, readCnt := g.readCnt + BitVec.ofNat 32 c.reads, coalCnt := g.coalCnt + BitVec.ofNat 32 c.coal,
           rereadCnt := g.rereadCnt + BitVec.ofNat 32 c.rereads }

theorem State.gatherComplete_eq {c : GthCmd} {p : Part} {q : QueueDef} (hcmd : (s.gth tile).cmd = some c) (hstatus : c.status = some 0)
    (hpart : s.part? c.part = some p) (hqueue : p.queueDef? (fieldAt c.desc 0x14 2) = some q) (hkind : q.kind = 3) (hbytes : 32 ≤ q.bytes)
    (hroom : s.queueFull p.num q = false) :
    s.gatherComplete tile = ((s.post p q (c.record 0 ++ zeros (q.bytes - 32)) c.tag none none).caskMedia p.num 3 (fieldAt c.desc 0x30 8)
      c.badRows).modGth tile (Gth.completed · c) := by
  have hq : (p.queueDef? (fieldAt c.desc 0x14 2)).filter (fun q => q.kind == 3 && decide (q.bytes ≥ 32)) = some q := by
    simp [hqueue, Option.filter, hkind, hbytes]
  simp only [State.gatherComplete, hcmd, hstatus, hpart, hq, Option.any_some, hroom, Bool.false_eq_true, if_false]
  rfl

/-! ### GTH_CTRL (R235, R236) -/

theorem State.wrGather_pause {on : Bool} (h : (s.gth tile).pause ≠ on) : s.wrGather tile 0 (b2n on) = s.setGthPause tile on := by
  have hflush : (b2n on).testBit 1 = false := by cases on <;> rfl
  simp only [State.wrGather, hflush, testBit_b2n_zero, Bool.false_eq_true, if_false, beq_eq_false_iff_ne.2 h]

theorem State.wrGather_flush (s : State) (tile : Nat) : s.wrGather tile 0 (2 + b2n (s.gth tile).pause) = s.flushPaths tile := by
  have hflush : (2 + b2n (s.gth tile).pause).testBit 1 = true := by cases (s.gth tile).pause <;> rfl
  have hpause : (2 + b2n (s.gth tile).pause).testBit 0 = ((s.flushPaths tile).gth tile).pause := by
    rw [State.flushPaths, State.gth_modGth_same]
    cases (s.gth tile).pause <;> rfl
  simp only [State.wrGather, hflush, if_true, hpause, beq_self_eq_true]

section Rows
variable (h : Live s) (path : RegPath) {tile : Fin 96}
include h

theorem exec_gatherPause {on : Bool} (hp : (s.gth tile).pause ≠ on) : exec (.gatherPause path tile on) s = settled (s.setGthPause tile on) := by
  have hlt := b2n_lt on
  refine congrArg settled ?_
  rw [State.regVia_gthCtrl h path tile.isLt (by omega), State.wrGather_pause hp]

theorem exec_pcFlush : exec (.pcFlush path tile) s = settled (s.flushPaths tile) := by
  have hlt := b2n_lt (s.gth tile).pause
  refine congrArg settled ?_
  rw [State.regVia_gthCtrl h path tile.isLt (by omega), State.wrGather_flush]

end Rows

end Sys2Proof.Machine
end

section
/-! PROOFS. The statements of 06_embedding_tables about gather engines and the fences of a tile's engines. -/
namespace Sys2Proof.Machine

variable {s : State}

theorem runs_gatherComplete {tile : Fin 96} {c : GthCmd} {p : Part} {q : QueueDef} {n : Nat} (hcmd : (s.gth tile).cmd = some c)
    (hstatus : c.status = some 0) (hpart : s.part? c.part = some p) (hqueue : p.queueDef? (fieldAt c.desc 0x14 2) = some q) (hkind : q.kind = 3)
    (hbytes : 32 ≤ q.bytes) (hroom : s.queueFull p.num q = false) (hfree : freeSlot ((s.queue p.num q.id).entries.map (·.slot)) q.size = some n) :
    Runs (exec (.gatherComplete tile) s) fun u => (u.gth tile).cmd = none ∧ (u.gth tile).cmdCnt = (s.gth tile).cmdCnt + 1 ∧
      (u.gth tile).err = (s.gth tile).err ∧
      (u.queue p.num q.id).entries = (s.queue p.num q.id).entries ++ [{ slot := n, tag := c.tag, req := none, std := none }] := by
  obtain ⟨hentries, hgather⟩ := s.post_of_free hfree (c.record 0 ++ zeros (q.bytes - 32)) c.tag none none
  refine ⟨_, congrArg settled (State.gatherComplete_eq hcmd hstatus hpart hqueue hkind hbytes hroom), ?_⟩
  generalize s.post p q (c.record 0 ++ zeros (q.bytes - 32)) c.tag none none = v at *
  obtain ⟨-, hgather', -, hqueues⟩ := v.caskMedia_units p.num 3 (fieldAt c.desc 0x30 8) c.badRows
  have hgth := State.gth_congr (t := tile) (hgather'.trans hgather)
  rw [State.gth_modGth_same, hgth]
  refine ⟨rfl, rfl, rfl, ?_⟩
  rw [← hentries, ← State.queue_congr hqueues]
  rfl

/-- Settles O31: each row of the engine runs as its own lemma says. -/
theorem gatherEngineServesItsQueue : Obligations.GatherEngineServesItsQueue := by
  intro s tile
  refine ⟨fun p q e d s' t off hidle hpause hon hqueue htake hok hfresh hhead hver hdims hout hacc => ?_,
    fun c p x y rest hcmd hpart hopen hrun htodo => ?_, fun c p q n hcmd hstatus hpart hqueue hkind hbytes hroom hfree _ => ?_,
    fun path h hp => ?_, fun path h hp => ?_, fun path h => ?_⟩
  · exact ⟨_, congrArg settled (State.gatherTake_of_accepts hidle hpause hon hqueue htake
      ⟨hok, hfresh, ⟨off, hhead, hver⟩, hdims, hout, hacc⟩), rfl⟩
  · exact ⟨s.gatherRetire tile, rfl, State.gatherRetire_row hcmd hpart hopen hrun htodo⟩
  · exact runs_gatherComplete hcmd hstatus hpart hqueue hkind hbytes hroom hfree
  · exact ⟨_, exec_gatherPause h path (by rw [hp]; decide), rfl⟩
  · exact ⟨_, exec_gatherPause h path (by rw [hp]; decide), rfl⟩
  · refine ⟨_, exec_pcFlush h path, ?_, ?_, rfl⟩ <;> rw [State.flushPaths, State.gth_modGth_same]

/-- Settles O33: a write of one bit fences or frees that unit alone, and only its engine changes. -/
theorem arrayAndGatherFences : Obligations.ArrayAndGatherFences := by
  intro s path array tile t a
  have ha : a < 4 := Nat.mod_lt _ (by decide)
  refine ⟨fun h hbit => ?_, fun h hbit => ?_, fun h hbit htest => ?_, fun hdrains => ?_, fun h hbit _ => ?_, fun h hbit => ?_⟩
  · refine ⟨s.fenceArray t a, exec_arrayFenceRequest h path hbit, rfl, ?_⟩
    rw [(s.fenceArray_putArrayBit t a).tile, State.tile_putArrayBit, getLsbD_bput _ _ _ _ ha, if_pos rfl]
  · refine ⟨s.unfenceArray t a, exec_arrayUnfence h path hbit, rfl, ?_⟩
    rw [(State.unfenceArray_putArrayBit hbit).tile, State.tile_putArrayBit, getLsbD_bput _ _ _ _ ha, if_pos rfl]
  · exact ⟨s.hardFenceArray t a, exec_arrayForce h path hbit htest, rfl, s.hardFenced_hardFenceArray t ha⟩
  · obtain ⟨hhard, hdraining⟩ := State.hardFenced_hardFenceArray
      (s.advanceTo ((s.mtx t).drainAt.get 0 a + (s.tile t).limitUs.toNat * 1000)) t ha
    refine ⟨_, exec_arrayDrainLimit hdrains, hhard, hdraining, ?_⟩
    rw [(OnlyMatrix.hardFenceArray _ _ _).time, State.advanceTo_up]
  · refine ⟨s.setGatherFence tile fun r => { r with gather := true }, exec_gatherFenceRequest h path hbit, ?_, fun c hc hs => ?_⟩
    · exact congrArg TileRegs.gather (s.tile_setGatherFence tile _)
    · exact ⟨_, by rw [State.gth_setGatherFence _ rfl, State.cmd_gatherFail hc hs], rfl, rfl⟩
  · exact ⟨_, exec_gatherUnfence h path hbit, congrArg TileRegs.gather (s.tile_setGatherFence tile _)⟩

end Sys2Proof.Machine
end

section
/-! SUPPORT. The contexts of the general cores through the operations that their instructions share: registers, retirement, waits and wakes, the turn to
the next context, and the reservations that a write clears (R246, R247, R258, R267). -/
namespace Sys2Proof.Machine

variable {s t u : State} {p : Part} {r : CtxRef}

/-! ### Issuing (R246) -/

/-- The context that issues is the current one of its core, and is ready. -/
theorem Issues.current {core : Nat} (h : Issues s core p r) : r.core = core ∧ r = ⟨r.core, (s.core r.core).cur⟩ ∧ (s.ctx r).isReady = true := by
  obtain ⟨-, rfl, -, hready, -⟩ := h
  exact ⟨rfl, rfl, hready⟩

/-- What an instruction does is what comes of its issue. -/
theorem Issues.runs {core : Nat} {f : Part → CtxRef → State} {post : State → Prop} (h : Issues s core p r) (hf : Runs (settled (f p r)) post) :
    Runs (settled (s.issue core f)) post := by
  rwa [h.issue_eq]

/-! ### Integer registers -/

theorem Ctx.rx_wx_ne (c : Ctx) {rd x : Fin 32} (v : BitVec 64) (h : x ≠ rd) : (c.wx rd v).rx x = c.rx x := by
  have hval : x.val ≠ rd.val := fun e => h (Fin.ext e)
  unfold Ctx.wx
  split
  · rfl
  · simp [Ctx.rx, hval]

/-- A register is all that a write to it changes. -/
theorem Ctx.wx_eq (c : Ctx) (rd : Fin 32) (v : BitVec 64) : c.wx rd v = { c with x := (c.wx rd v).x } := by
  unfold Ctx.wx
  split <;> rfl

theorem State.core_congr (h : t.cores = s.cores) (c : Nat) : t.core c = s.core c := by rw [State.core, h, State.core]

theorem State.ctx_congr (h : t.cores = s.cores) (q : CtxRef) : t.ctx q = s.ctx q := by rw [State.ctx, State.core_congr h, State.ctx]

/-! ### The other contexts, and what is neither core nor meter -/

theorem OthersStay.refl (s : State) (r : CtxRef) : OthersStay s s r := fun _ _ => rfl

theorem OthersStay.trans (h : OthersStay s t r) (h' : OthersStay t u r) : OthersStay s u r := fun q hq => (h' q hq).trans (h q hq)

theorem OthersStay.modCtx (h : OthersStay s t r) (f : Ctx → Ctx) : OthersStay s (t.modCtx r f) r :=
  h.trans fun _ hq => t.ctx_modCtx_ne f hq

theorem OnlyCores.refl (s : State) : OnlyCores s s := rfl

theorem OnlyCores.modCtx (h : OnlyCores s t) (r : CtxRef) (f : Ctx → Ctx) : OnlyCores s (t.modCtx r f) := h.trans rfl

section OnlyCores
variable (h : OnlyCores s t)
include h

theorem OnlyCores.queues : t.queues = s.queues := by rw [h]

theorem OnlyCores.req : t.req = s.req := by rw [h]

theorem OnlyCores.errCount (cls : Nat) : t.errCount cls = s.errCount cls := by rw [h]; rfl

end OnlyCores

theorem StaysAt.refl (s : State) (r : CtxRef) : StaysAt s s r := ⟨rfl, .refl s r, rfl, rfl⟩

/-- A change of the context that keeps its place leaves it at its instruction. -/
theorem StaysAt.modCtx (h : StaysAt s t r) {f : Ctx → Ctx} (hpc : (f (t.ctx r)).pc = (t.ctx r).pc) (hinstret : (f (t.ctx r)).instret = (t.ctx r).instret) :
    StaysAt s (t.modCtx r f) r :=
  h.trans ⟨rfl, fun _ hq => t.ctx_modCtx_ne f hq, by rwa [State.ctx_modCtx_same], by rwa [State.ctx_modCtx_same]⟩

@[simp] theorem State.st_modCtx (s : State) (r : CtxRef) (f : Ctx → Ctx) : ((s.modCtx r f).core r.core).st = (s.core r.core).st := by
  rw [State.core_modCtx]

/-! ### Retirement (R246) -/

theorem State.onlyCores_retireTo (s : State) (p : Part) (r : CtxRef) (pc : BitVec 64) : OnlyCores s (s.retireTo p r pc) := by
  obtain ⟨m, c, h⟩ := s.retireTo_eq p r pc
  rw [OnlyCores, h]

theorem State.othersStay_retireTo (s : State) (p : Part) (r : CtxRef) (pc : BitVec 64) : OthersStay s (s.retireTo p r pc) r :=
  fun _ hq => s.ctx_retireTo_ne p pc hq

@[simp] theorem State.st_retireTo (s : State) (p : Part) (r : CtxRef) (pc : BitVec 64) : ((s.retireTo p r pc).core r.core).st = (s.core r.core).st := by
  simp [State.retireTo]

@[simp] theorem State.rx_retireTo (s : State) (p : Part) (r : CtxRef) (pc : BitVec 64) (x : Fin 32) :
    ((s.retireTo p r pc).ctx r).rx x = (s.ctx r).rx x := by
  rw [State.ctx_retireTo]
  rfl

/-- The context that retires goes on from where it stood. -/
theorem WentOn.of_retire (hpc : (t.ctx r).pc = (s.ctx r).pc) (hinstret : (t.ctx r).instret = (s.ctx r).instret) (p : Part) :
    WentOn s (t.retire p r 4) r := by
  unfold State.retire
  rw [WentOn, State.ctx_retireTo, hpc, hinstret]
  exact ⟨rfl, rfl⟩

/-- What an instruction that writes a register and retires leaves of its context. -/
theorem State.ctx_retireX (s : State) (p : Part) (r : CtxRef) (n : Nat) (rd : Fin 32) (v : BitVec 64) : (s.retireX p r n rd v).ctx r =
    { (s.ctx r).wx rd v with pc := (s.ctx r).pc + BitVec.ofNat 64 n, instret := (s.ctx r).instret + 1, grant := false,
                             hook := (s.ctx r).hook && (s.ctx r).pc + BitVec.ofNat 64 n != (s.ctx r).abfepc } := by
  rw [State.retireX, State.retire, State.ctx_retireTo, State.ctx_modCtx_same, Ctx.wx_eq]

theorem State.rx_retireX_same (s : State) (p : Part) (r : CtxRef) (n : Nat) {rd : Fin 32} (v : BitVec 64) (h : rd ≠ 0) :
    ((s.retireX p r n rd v).ctx r).rx rd = v := by
  rw [State.ctx_retireX]
  exact Ctx.rx_wx_same _ v h

theorem State.rx_retireX_ne (s : State) (p : Part) (r : CtxRef) (n : Nat) {rd x : Fin 32} (v : BitVec 64) (h : x ≠ rd) :
    ((s.retireX p r n rd v).ctx r).rx x = (s.ctx r).rx x := by
  rw [State.ctx_retireX]
  exact Ctx.rx_wx_ne _ v h

/-- An instruction that writes a register and retires has gone on, and changes no other context. -/
theorem State.retireX_wentOn (s : State) (p : Part) (r : CtxRef) (rd : Fin 32) (v : BitVec 64) :
    WentOn s (s.retireX p r 4 rd v) r ∧ OthersStay s (s.retireX p r 4 rd v) r ∧ OnlyCores s (s.retireX p r 4 rd v) :=
  ((StaysAt.refl s r).wx rd v).retire p

@[simp] theorem State.st_retireX (s : State) (p : Part) (r : CtxRef) (n : Nat) (rd : Fin 32) (v : BitVec 64) :
    ((s.retireX p r n rd v).core r.core).st = (s.core r.core).st := by
  simp [State.retireX, State.retire]

/-! ### Waits and wakes (R246, R272) -/

@[simp] theorem State.ctx_pickNext (s : State) (c : Nat) (q : CtxRef) : (s.pickNext c).ctx q = s.ctx q := by
  unfold State.pickNext
  dsimp only
  split
  · exact State.ctx_setCore_of_ctxs (by rfl) q
  · rfl

theorem State.onlyCores_pickNext (s : State) (c : Nat) : OnlyCores s (s.pickNext c) := by
  unfold State.pickNext
  dsimp only
  split <;> rfl

theorem State.ctx_block (s : State) (r : CtxRef) (w : CtxWait) : (s.block r w).ctx r = { s.ctx r with wait := w } := by
  simp [State.block]

theorem State.onlyCores_block (s : State) (r : CtxRef) (w : CtxWait) : OnlyCores s (s.block r w) :=
  ((OnlyCores.refl s).modCtx r _).trans (State.onlyCores_pickNext _ _)

/-- A context that waits stays at its instruction. -/
theorem StaysAt.block (h : StaysAt s t r) (w : CtxWait) : StaysAt s (t.block r w) r := by
  refine h.trans ⟨t.onlyCores_block r w, fun q hq => ?_, ?_, ?_⟩
  · rw [State.block, State.ctx_pickNext, t.ctx_modCtx_ne _ hq]
  all_goals rw [State.ctx_block]

theorem Ctx.wait_divert (c : Ctx) (st : CoreState) : (c.divert st).wait = c.wait := by
  unfold Ctx.divert
  split <;> rfl

/-- A core that runs diverts no context. -/
theorem Ctx.divert_running (c : Ctx) : c.divert .running = c := rfl

theorem State.ctx_wake (s : State) (r q : CtxRef) :
    (s.wake r).ctx q = (s.modCtx r fun c => ({ c with wait := .ready }).divert (s.core r.core).st).ctx q := by
  unfold State.wake
  dsimp only
  split
  · rfl
  · exact State.ctx_setCore_of_ctxs (by rfl) q

@[simp] theorem State.wait_wake (s : State) (r : CtxRef) : ((s.wake r).ctx r).wait = .ready := by
  rw [State.ctx_wake, State.ctx_modCtx_same, Ctx.wait_divert]

/-- On a core that runs, becoming ready is all that happens to a context that wakes. -/
theorem State.ctx_wake_running (h : (s.core r.core).st = .running) : (s.wake r).ctx r = { s.ctx r with wait := .ready } := by
  rw [State.ctx_wake, State.ctx_modCtx_same, h, Ctx.divert_running]

theorem OthersStay.wake (h : OthersStay s t r) : OthersStay s (t.wake r) r :=
  h.trans fun q hq => by rw [State.ctx_wake, t.ctx_modCtx_ne _ hq]

theorem State.onlyCores_wake (s : State) (r : CtxRef) : OnlyCores s (s.wake r) := by
  unfold State.wake
  dsimp only
  split <;> rfl

/-- Becoming ready leaves a context of a core that runs its registers and its place. -/
theorem State.wake_running (h : (s.core r.core).st = .running) :
    (∀ x, ((s.wake r).ctx r).rx x = (s.ctx r).rx x) ∧ ((s.wake r).ctx r).pc = (s.ctx r).pc := by
  rw [State.ctx_wake_running h]
  exact ⟨fun _ => rfl, rfl⟩

/-- An instruction that ends a context's wait with a result has gone on, on a core that runs. -/
theorem State.retireX_wake (h : (s.core r.core).st = .running) (p : Part) (rd : Fin 32) (v : BitVec 64) :
    (((s.retireX p r 4 rd v).wake r).ctx r).wait = .ready ∧ (rd ≠ 0 → (((s.retireX p r 4 rd v).wake r).ctx r).rx rd = v) ∧
      (((s.retireX p r 4 rd v).wake r).ctx r).pc = (s.ctx r).pc + 4 := by
  obtain ⟨⟨hpc, -⟩, -, -⟩ := s.retireX_wentOn p r rd v
  obtain ⟨hrx, hwake⟩ := State.wake_running ((s.st_retireX p r 4 rd v).trans h)
  exact ⟨State.wait_wake _ _, fun hrd => (hrx rd).trans (s.rx_retireX_same p r 4 v hrd), hwake.trans hpc⟩

/-! ### The core's turn (R246, R257) -/

/-- Where the current context is ready, the core turns to the first that is, counted from the one after it. -/
theorem State.pickNext_first {c : Nat} (h : (s.ctx ⟨c, (s.core c).cur⟩).isReady = true) : ∃ i < 16,
    ((s.pickNext c).core c).cur = Fin.ofNat 16 ((s.core c).cur.val + 1 + i) ∧
      (s.ctx ⟨c, Fin.ofNat 16 ((s.core c).cur.val + 1 + i)⟩).isReady = true ∧
      ∀ j < i, (s.ctx ⟨c, Fin.ofNat 16 ((s.core c).cur.val + 1 + j)⟩).isReady = false := by
  have hall : (s.ctx ⟨c, Fin.ofNat 16 ((s.core c).cur.val + 1 + 15)⟩).isReady = true := by
    rwa [show Fin.ofNat 16 ((s.core c).cur.val + 1 + 15) = (s.core c).cur from Fin.ext (by simp [Fin.ofNat]; omega)]
  unfold State.pickNext
  dsimp only
  split
  next i hi =>
    rw [List.find?_range_eq_some] at hi
    obtain ⟨hready, hmem, hfirst⟩ := hi
    refine ⟨i, List.mem_range.1 hmem, by rw [State.core_setCore_same], hready, fun j hj => by rw [← Bool.not_eq_true']; exact hfirst j hj⟩
  next hnone =>
    have := List.find?_eq_none.1 hnone 15 (by simp)
    exact absurd hall this

/-- The context that a core turns to is ready, and is another one where another is ready. -/
theorem State.pickNext_turns {c : Nat} (h : (s.ctx ⟨c, (s.core c).cur⟩).isReady = true) :
    (s.ctx ⟨c, ((s.pickNext c).core c).cur⟩).isReady = true ∧
      ∀ q : Fin 16, q ≠ (s.core c).cur → (s.ctx ⟨c, q⟩).isReady = true → ((s.pickNext c).core c).cur ≠ (s.core c).cur := by
  obtain ⟨i, hi, hcur, hready, hfirst⟩ := State.pickNext_first h
  rw [hcur]
  refine ⟨hready, fun q hq hqready heq => ?_⟩
  have hlast : i = 15 := by
    have := congrArg Fin.val heq
    simp only [Fin.val_ofNat] at this
    omega
  have hval : q.val ≠ (s.core c).cur.val := fun e => hq (Fin.ext e)
  have hskipped := hfirst ((q.val + 15 - (s.core c).cur.val) % 16) (by omega)
  rw [show Fin.ofNat 16 ((s.core c).cur.val + 1 + (q.val + 15 - (s.core c).cur.val) % 16) = q from
    Fin.ext (by simp only [Fin.val_ofNat]; omega), hqready] at hskipped
  exact absurd hskipped (by decide)

/-! ### What a write clears (R267) -/

/-- A map rewritten entry by entry, keys kept: what is read of it is related to what was read before, as each entry is. -/
theorem SMap.get_map_of_keys {α : Type} {d : α} {R : α → α → Prop} {f : Nat × α → Nat × α} (hkey : ∀ e, (f e).1 = e.1) (hd : R d d)
    (hf : ∀ e, R e.2 (f e).2) (m : SMap α) (k : Nat) : R (SMap.get m d k) (SMap.get (m.map f) d k) := by
  induction m with
  | nil => exact hd
  | cons e rest ih =>
    have he := hf e
    obtain ⟨k', v⟩ := e
    rw [List.map_cons, ← Prod.eta (f (k', v)), hkey]
    unfold SMap.get
    split
    · exact he
    · exact ih

/-- Two contexts that differ at most in their reservations. -/
def Ctx.SameButResv (c d : Ctx) : Prop := d = { c with resv := d.resv }

theorem Ctx.SameButResv.refl (c : Ctx) : c.SameButResv c := rfl

theorem Ctx.SameButResv.trans {a b c : Ctx} (h : a.SameButResv b) (h' : b.SameButResv c) : a.SameButResv c :=
  Eq.trans h' (congrArg (fun x : Ctx => { x with resv := c.resv }) h)

/-- The cores stand as they did, and their contexts differ at most in their reservations. -/
structure SameButResv (s t : State) : Prop where
  st : ∀ c, (t.core c).st = (s.core c).st
  ctx : ∀ q, (s.ctx q).SameButResv (t.ctx q)

theorem SameButResv.refl (s : State) : SameButResv s s := ⟨fun _ => rfl, fun _ => rfl⟩

theorem SameButResv.trans (h : SameButResv s t) (h' : SameButResv t u) : SameButResv s u :=
  ⟨fun c => (h'.st c).trans (h.st c), fun q => (h.ctx q).trans (h'.ctx q)⟩

theorem SameButResv.of_cores (h : t.cores = s.cores) : SameButResv s t :=
  ⟨fun c => by rw [State.core_congr h], fun q => by rw [State.ctx_congr h]; rfl⟩

/-- Two cores that differ at most in the reservations of their contexts. -/
def Core.SameButResv (k l : Core) : Prop := l.st = k.st ∧ ∀ i, (k.ctxs.get Ctx.reset i).SameButResv (l.ctxs.get Ctx.reset i)

theorem State.clearResv_sameButResv (s : State) (lo hi : Nat) (by_ : Option CtxRef) : SameButResv s (s.clearResv lo hi by_) := by
  have hcore : ∀ c, (s.core c).SameButResv ((s.clearResv lo hi by_).core c) := fun c => by
    refine SMap.get_map_of_keys (R := Core.SameButResv) (fun _ => by rfl) ⟨rfl, fun _ => rfl⟩ (fun e => ⟨by rfl, fun i => ?_⟩) s.cores c
    exact SMap.get_map_of_keys (R := Ctx.SameButResv) (fun x => by dsimp only; split <;> rfl) (.refl _) (fun x => by dsimp only; split <;> rfl) e.2.ctxs i
  exact ⟨fun c => (hcore c).1, fun q => (hcore q.core).2 q.ctx.val⟩

theorem State.locWrite_sameButResv (s : State) (l : Loc) (b : Bytes) (by_ : Option CtxRef) : SameButResv s (s.locWrite l b by_) := by
  unfold State.locWrite
  split
  · exact .refl s
  cases l with
  | core n o => exact (s.clearResv_sameButResv _ _ by_).trans (.of_cores rfl)
  | tile t o => exact (s.clearResv_sameButResv _ _ by_).trans (.of_cores rfl)
  | dram k o =>
    refine .of_cores ?_
    dsimp only
    repeat' split
    all_goals rfl

theorem State.pmWrite_sameButResv (s : State) (p : Part) (o : Nat) (b : Bytes) : SameButResv s (s.pmWrite p o b) :=
  List.foldlRecOn _ _ (motive := fun acc : State × Bytes => SameButResv s acc.1) (.refl s) fun acc h _ _ =>
    h.trans (acc.1.locWrite_sameButResv _ _ none)

theorem State.slotWrite_sameButResv (s : State) (p : Part) (q : QueueDef) (slot : Nat) (b : Bytes) : SameButResv s (s.slotWrite p q slot b) := by
  unfold State.slotWrite
  split
  · exact s.pmWrite_sameButResv p _ b
  · exact s.locWrite_sameButResv _ b none

theorem State.post_sameButResv (s : State) (p : Part) (q : QueueDef) (b : Bytes) (tag : BitVec 9) (req : Option Nat) (std : Option StdWork) :
    SameButResv s (s.post p q b tag req std) := by
  unfold State.post
  dsimp only
  split
  · exact .refl s
  · exact (s.slotWrite_sameButResv p q _ _).trans (.of_cores rfl)

/-- Everything of a context but its reservation is as it was. -/
theorem SameButResv.place (h : SameButResv s t) (q : CtxRef) :
    (t.ctx q).pc = (s.ctx q).pc ∧ (t.ctx q).instret = (s.ctx q).instret ∧ (t.ctx q).wait = (s.ctx q).wait ∧
      ∀ x, (t.ctx q).rx x = (s.ctx q).rx x := by
  rw [h.ctx q]
  exact ⟨rfl, rfl, rfl, fun _ => rfl⟩

/-- Only the cores, the meters and the cores' SRAM differ, and that is `m` now. -/
def OnlySram (s t : State) (m : Memory) : Prop := t = { s with cores := t.cores, meter := t.meter, coreSram := m }

theorem OnlySram.then {m : Memory} (h : OnlySram s t m) (h' : OnlyCores t u) : OnlySram s u m :=
  Eq.trans h' (congrArg (fun x : State => { x with cores := u.cores, meter := u.meter }) h)

/-- A write to a core's SRAM is a write of its bytes, and clears reservations. -/
theorem State.locWrite_core {b : Bytes} (hb : b ≠ []) (n o : Nat) (by_ : Option CtxRef) :
    OnlySram s (s.locWrite (.core n o) b by_) (s.coreSram.write (n * 2 ^ 18 + o) b) := by
  rw [State.locWrite, if_neg (by simpa using hb)]
  rfl

/-- The context that wrote to a core's SRAM and retires has gone on, with its registers as they were. -/
theorem SameButResv.retire (h : SameButResv s t) (p : Part) :
    WentOn s (t.retire p r 4) r ∧ ∀ x, ((t.retire p r 4).ctx r).rx x = (s.ctx r).rx x := by
  obtain ⟨hpc, hinstret, -, hrx⟩ := h.place r
  exact ⟨.of_retire hpc hinstret p, fun x => (t.rx_retire p 4 x).trans (hrx x)⟩

/-! ### Accesses of a core's SRAM: none is held, charged, uncorrectable or late (R247, R362, R510) -/

@[simp] theorem State.tooMany_core (n o : Nat) : s.tooMany r (.core n o) = false := rfl

@[simp] theorem State.holdFor_core (n o : Nat) : s.holdFor r (.core n o) = none := by simp [State.holdFor, State.busyBank]

@[simp] theorem State.chargeLoc_core (n o k : Nat) : s.chargeLoc p r (.core n o) k = s := rfl

@[simp] theorem State.locBad_core (n o k : Nat) : s.locBad (.core n o) k = false := rfl

@[simp] theorem State.pend_core (n o : Nat) (rd : Fin 32) (v : BitVec 64) : s.pend r (.core n o) (.int rd v) = s.modCtx r (·.wx rd v) := rfl

end Sys2Proof.Machine
end

section
/-! PROOFS. The statement of 07_general_cores about AB.YIELD, AB.WAITW and AB.STAMP. -/
namespace Sys2Proof.Machine

variable {s : State} {p : Part} {r : CtxRef}

/-! ### Operations of a context that nothing captures or replays (R607, R611) -/

theorem State.waitRec_idle (h : s.cask.state = 0) (p : Part) (r : CtxRef) (ins outcome addr result : Nat) :
    s.waitRec p r ins outcome addr result = s := State.caskRec_idle h _ _ _ _

theorem State.replaying_idle (h : s.cask.state = 0) (n : Nat) : s.replaying n = false := by simp [State.replaying, h]

/-! ### The rows of the wakes -/

section Rows
variable {core : Fin 864} {ctx : Fin 16} (hpart : s.corePart core = some p)
include hpart

theorem exec_waitwWake : exec (.waitwWake core ctx) s = settled (s.waitwWake p ⟨core, ctx⟩) := by
  rw [show exec (.waitwWake core ctx) s = execWaitwWake core ctx s from rfl, execWaitwWake, hpart]

theorem exec_waitwLimit : exec (.waitwLimit core ctx) s = settled (s.waitwLimit p ⟨core, ctx⟩) := by
  rw [show exec (.waitwLimit core ctx) s = execWaitwLimit core ctx s from rfl, execWaitwLimit, hpart]

theorem exec_stampArrives : exec (.stampArrives core ctx) s = settled (s.stampArrives p ⟨core, ctx⟩) := by
  rw [show exec (.stampArrives core ctx) s = execStampArrives core ctx s from rfl, execStampArrives, hpart]

end Rows

/-! ### AB.YIELD (R257) -/

/-- The context that retires may still issue. -/
theorem State.isReady_retire (p : Part) (n : Nat) : ((s.retire p r n).ctx r).isReady = (s.ctx r).isReady := by
  rw [State.retire, State.ctx_retireTo]
  rfl

/-- The core's turn stays with its context while that retires. -/
theorem State.cur_retire (p : Part) (n : Nat) : ((s.retire p r n).core r.core).cur = (s.core r.core).cur := by
  simp [State.retire, State.retireTo, State.core_modCtx]

theorem runs_abYield (hcur : r = ⟨r.core, (s.core r.core).cur⟩) (hready : (s.ctx r).isReady = true) (p : Part) :
    Runs (settled (s.abYield p r)) fun u => WentOn s u r ∧ OthersStay s u r ∧ OnlyCores s u ∧ (u.ctx ⟨r.core, (u.core r.core).cur⟩).isReady = true ∧
      ((∃ q : Fin 16, q ≠ r.ctx ∧ (s.ctx ⟨r.core, q⟩).isReady = true) → (u.core r.core).cur ≠ r.ctx) := by
  obtain ⟨hwent, hothers, hcores⟩ := (StaysAt.refl s r).retire p
  have hr : (⟨r.core, ((s.retire p r 4).core r.core).cur⟩ : CtxRef) = r := by rw [State.cur_retire, ← hcur]
  have hctx : r.ctx = ((s.retire p r 4).core r.core).cur := congrArg CtxRef.ctx hr.symm
  obtain ⟨hturned, hother⟩ := State.pickNext_turns (s := s.retire p r 4) (c := r.core) (by rw [hr, State.isReady_retire, hready])
  refine runs_settled ⟨by simpa [WentOn, State.abYield] using hwent, fun q hq => ?_, hcores.trans (State.onlyCores_pickNext _ _), ?_, ?_⟩
  · rw [State.abYield, State.ctx_pickNext, hothers q hq]
  · rwa [State.abYield, State.ctx_pickNext]
  · rintro ⟨q, hq, hqready⟩
    rw [hctx] at hq ⊢
    refine hother q hq ?_
    rwa [hothers ⟨r.core, q⟩ fun e => hq (by rw [← hctx, ← e])]

/-! ### AB.WAITW and its wakes (R258) -/

section Waitw
variable {l : Loc} (hcask : s.cask.state = 0)
include hcask

theorem State.abWaitw_differs (hloads : (s.ctx r).loads = []) {rs1 rs2 : Fin 32} (hloc : p.watchLoc r.core ((s.ctx r).rx rs1).toNat = some l)
    (hne : BitVec.ofNat 64 (leNat (s.locRead l 8)) ≠ (s.ctx r).rx rs2) (rd : Fin 32) :
    s.abWaitw p r rd rs1 rs2 = s.retireX p r 4 rd (BitVec.ofNat 64 (leNat (s.locRead l 8))) := by
  simp [State.abWaitw, State.needing_quiet hloads, hloc, State.replaying_idle hcask, hne, State.waitRec_idle hcask]

theorem State.abWaitw_equal (hloads : (s.ctx r).loads = []) {rs1 rs2 : Fin 32} (hloc : p.watchLoc r.core ((s.ctx r).rx rs1).toNat = some l)
    (heq : BitVec.ofNat 64 (leNat (s.locRead l 8)) = (s.ctx r).rx rs2) (rd : Fin 32) :
    s.abWaitw p r rd rs1 rs2 = s.block r (.waitw ((s.ctx r).rx rs1).toNat ((s.ctx r).rx rs2) rd) := by
  simp [State.abWaitw, State.needing_quiet hloads, hloc, State.replaying_idle hcask, heq]

variable {a : Nat} {v : BitVec 64} {rd : Fin 32} (hwait : (s.ctx r).wait = .waitw a v rd) (hloc : p.watchLoc r.core a = some l)
include hwait hloc

theorem State.waitwWake_differs (hne : BitVec.ofNat 64 (leNat (s.locRead l 8)) ≠ v) :
    s.waitwWake p r = (s.retireX p r 4 rd (BitVec.ofNat 64 (leNat (s.locRead l 8)))).wake r := by
  simp [State.waitwWake, hwait, hloc, hne, State.waitRec_idle hcask]

theorem State.waitwLimit_equal (heq : BitVec.ofNat 64 (leNat (s.locRead l 8)) = v) (hlim : (s.ctx r).abwaitlim ≠ 0) :
    s.waitwLimit p r = (s.retireX p r 4 rd v).wake r := by
  have hlimit : ¬(s.ctx r).abwaitlim = 0#64 := hlim
  simp [State.waitwLimit, hwait, hloc, heq, hlimit, State.waitRec_idle hcask]

end Waitw

/-! ### AB.STAMP and the stamp's arrival (R259) -/

theorem State.abStamp_allowed (hloads : (s.ctx r).loads = []) {rs1 : Fin 32} {l : Loc} (hloc : p.stampLoc r.core ((s.ctx r).rx rs1).toNat = some l) :
    s.abStamp p r rs1 = s.block r (.stamp ((s.ctx r).rx rs1).toNat) := by
  simp [State.abStamp, State.needing_quiet hloads, hloc]

/-- A stamp taken leaves the clock moved, and nothing else. -/
theorem State.takeStamp_eq (s : State) : s.takeStamp.2 = { s with time := s.takeStamp.2.time } := by
  unfold State.takeStamp
  dsimp only
  split <;> rfl

/-- The stamp that is written whole to a core's SRAM. -/
def State.stampBytes (s : State) : Bytes := s.takeStamp.1.bytes ++ zeros 4

theorem State.stampBytes_ne_nil (s : State) : s.stampBytes ≠ [] := by
  unfold State.stampBytes
  exact List.append_ne_nil_of_right_ne_nil _ (by decide)

theorem State.stampArrives_core (hcask : s.cask.state = 0) {a n o : Nat} (hwait : (s.ctx r).wait = .stamp a)
    (hloc : p.stampLoc r.core a = some (.core n o)) (hcan : s.canStamp = true) :
    s.stampArrives p r = ((s.takeStamp.2.locWrite (.core n o) s.stampBytes (some r)).retire p r 4).wake r := by
  have htaken : s.takeStamp.2.cask.state = 0 := by rwa [State.takeStamp_eq]
  simp [State.stampArrives, hwait, hloc, State.replaying_idle hcask, hcan, State.caskRec_idle htaken, State.stampBytes]

theorem runs_stampArrives (hcask : s.cask.state = 0) (hst : (s.core r.core).st = .running) {a n o : Nat} (hwait : (s.ctx r).wait = .stamp a)
    (hloc : p.stampLoc r.core a = some (.core n o)) (hcan : s.canStamp = true) :
    Runs (settled (s.stampArrives p r)) fun u => (u.ctx r).wait = .ready ∧ (u.ctx r).pc = (s.ctx r).pc + 4 ∧ u.time = s.takeStamp.2.time ∧
      u.coreSram = s.coreSram.write (n * 2 ^ 18 + o) (s.takeStamp.1.bytes ++ zeros 4) := by
  rw [State.stampArrives_core hcask hwait hloc hcan]
  have hstamp := s.takeStamp_eq
  have hsame : SameButResv s (s.takeStamp.2.locWrite (.core n o) s.stampBytes (some r)) :=
    (SameButResv.of_cores (by rw [hstamp])).trans (s.takeStamp.2.locWrite_sameButResv _ _ _)
  have hsram := s.takeStamp.2.locWrite_core s.stampBytes_ne_nil n o (some r)
  generalize s.takeStamp.2.locWrite (.core n o) s.stampBytes (some r) = t at *
  obtain ⟨⟨hpc, -⟩, -⟩ := hsame.retire (r := r) p
  have hrun : ((t.retire p r 4).core r.core).st = .running := by rw [State.retire, State.st_retireTo, hsame.st, hst]
  have hafter := hsram.then ((t.onlyCores_retireTo p r _).trans (State.onlyCores_wake (t.retire p r 4) r))
  refine runs_settled ⟨State.wait_wake _ _, (State.wake_running hrun).2.trans hpc, ?_, ?_⟩
  · rw [hafter]
  · rw [hafter, hstamp]
    rfl

/-- Settles O25: a yield retires and turns; each wait either ends at once in its word or blocks, and its wake retires with the word or the stamp. -/
theorem yieldsAndWordWaits : Obligations.YieldsAndWordWaits := by
  intro s hcask
  refine ⟨fun core p r hi hq => ?_, fun core ctx p hpart hst => ?_⟩
  · obtain ⟨hloads, -, -⟩ := hq
    obtain ⟨hcore, hcur, hready⟩ := hi.current
    rw [← hcore]
    refine ⟨hi.runs (runs_abYield hcur hready p), fun rd rs1 rs2 l hloc => ⟨fun hne => hi.runs ?_, fun heq => hi.runs ?_⟩,
      fun rs1 l hloc => hi.runs ?_⟩
    · rw [State.abWaitw_differs hcask hloads hloc hne rd]
      exact runs_settled ⟨s.rx_retireX_same p r 4 _, s.retireX_wentOn p r rd _⟩
    · rw [State.abWaitw_equal hcask hloads hloc heq rd]
      have hstays := (StaysAt.refl s r).block (.waitw ((s.ctx r).rx rs1).toNat ((s.ctx r).rx rs2) rd)
      exact runs_settled ⟨by rw [State.ctx_block, heq], hstays.pc, hstays.others, hstays.onlyCores⟩
    · rw [State.abStamp_allowed hloads hloc]
      have hstays := (StaysAt.refl s r).block (.stamp ((s.ctx r).rx rs1).toNat)
      exact runs_settled ⟨by rw [State.ctx_block], hstays.pc, hstays.others, hstays.onlyCores⟩
  · intro r
    refine ⟨fun a v rd l hwait hloc => ⟨fun hne => ?_, fun heq hlim => ?_⟩, fun a n o hwait hloc hcan => ?_⟩
    · rw [exec_waitwWake hpart, State.waitwWake_differs hcask hwait hloc hne]
      exact runs_settled (State.retireX_wake hst p rd _)
    · rw [exec_waitwLimit hpart, State.waitwLimit_equal hcask hwait hloc heq hlim]
      exact runs_settled (State.retireX_wake hst p rd v)
    · rw [exec_stampArrives hpart]
      exact runs_stampArrives hcask hst hwait hloc hcan

end Sys2Proof.Machine
end

section
/-! SUPPORT. One word of a context, by its opcode (R239), and its accesses in the core's own SRAM (R241, R247, R263, R267). -/
namespace Sys2Proof.Machine

variable {s : State} {p : Part} {r : CtxRef}

/-! ### The word that a context issues -/

/-- A 32-bit word that a context issues is executed whole. -/
theorem State.runWord_of_issues {core : Nat} (hi : Issues s core p r) {word : BitVec 32} (h : word.toNat % 4 = 3) :
    s.runWord core word = s.execWord p r word.toNat 4 := by
  rw [State.runWord, hi.issue_eq]
  simp [h]

section Opcodes
variable {w len : Nat} (hloads : (s.ctx r).loads = [])
include hloads

theorem State.execWord_lui (h : w % 128 = 0x37) : s.execWord p r w len = s.retireX p r len (fRd w) (immU w) := by
  simp [State.execWord, State.needing_quiet hloads, h]

theorem State.execWord_addi (h : w % 128 = 0x13) (hf3 : fF3 w = 0) :
    s.execWord p r w len = s.retireX p r len (fRd w) ((s.ctx r).rx (fRs1 w) + immI w) := by
  simp [State.execWord, State.needing_quiet hloads, h, hf3, aluOp]

theorem State.execWord_jal (h : w % 128 = 0x6F) : s.execWord p r w len =
    (s.modCtx r (·.wx (fRd w) ((s.ctx r).pc + BitVec.ofNat 64 len))).retireTo p r ((s.ctx r).pc + immJ w) := by
  simp [State.execWord, State.needing_quiet hloads, h]

theorem State.execWord_beq (h : w % 128 = 0x63) (hf3 : fF3 w = 0) : s.execWord p r w len =
    s.retireTo p r ((s.ctx r).pc + if (s.ctx r).rx (fRs1 w) = (s.ctx r).rx (fRs2 w) then immB w else BitVec.ofNat 64 len) := by
  by_cases heq : (s.ctx r).rx (fRs1 w) = (s.ctx r).rx (fRs2 w)
  · simp [State.execWord, State.needing_quiet hloads, h, hf3, branchTaken, heq]
  · simp [State.execWord, State.needing_quiet hloads, h, hf3, branchTaken, heq]

theorem State.execWord_ld (h : w % 128 = 0x03) (hf3 : fF3 w = 3) :
    s.execWord p r w len = s.scalarLoad p r len (fRd w) ((s.ctx r).rx (fRs1 w) + immI w).toNat 8 true none := by
  simp [State.execWord, State.needing_quiet hloads, State.loadWord, h, hf3]

theorem State.execWord_sd (h : w % 128 = 0x23) (hf3 : fF3 w = 3) :
    s.execWord p r w len = s.scalarStore p r len ((s.ctx r).rx (fRs1 w) + immS w).toNat 8 ((s.ctx r).rx (fRs2 w)) := by
  simp [State.execWord, State.needing_quiet hloads, State.storeWord, h, hf3]

theorem State.execWord_atomic (h : w % 128 = 0x2F) : s.execWord p r w len = s.atomicOp p r len w := by
  simp [State.execWord, State.needing_quiet hloads, h]

theorem State.execWord_fence (h : w % 128 = 0x0F) (hf3 : fF3 w = 0) (houtst : (s.ctx r).outst = 0) : s.execWord p r w len = s.retire p r 4 := by
  simp [State.execWord, State.needing_quiet hloads, h, hf3, State.fenceOp, houtst]

end Opcodes

/-! ### Accesses in the core's own SRAM -/

/-- An aligned doubleword of the core's own SRAM may be read and written. -/
theorem Part.checkAcc_local {core a : Nat} (ha : a % 8 = 0) (hlt : a < 0x40000) (store atomic : Bool) :
    p.checkAcc core a 8 store atomic = .ok (.core core a) := by
  have hmap : p.mapAddr core a 8 store = some (.core core a) := by
    rw [Part.mapAddr, if_pos hlt, if_pos (by omega)]
  simp [Part.checkAcc, hmap, ha]

/-- No access in the core's own SRAM is recorded (R608). -/
theorem recorded_local {a : Nat} (h : a < 0x40000) : recorded a = false := by
  simp [recorded]
  omega

/-- The aligned 64 bytes that an address of a core's SRAM lies in, as a reservation names them. -/
def resvBlock (core a : Nat) : Nat := 2 ^ 40 + (core * 2 ^ 18 + a) / 64

@[simp] theorem Loc.resvKey_core (n o : Nat) : (Loc.core n o).resvKey = some (resvBlock n o) := rfl

/-- A number read as signed and put into its own width is itself. -/
theorem ofInt_signedOf {n : Nat} (v : Nat) : BitVec.ofInt n (signedOf n v) = BitVec.ofNat n v := by
  apply BitVec.eq_of_toNat_eq
  have hmod : signedOf n v % (2 ^ n : Nat) = (v % 2 ^ n : Nat) := by
    unfold signedOf
    split <;> simp
  rw [BitVec.toNat_ofInt, hmod, BitVec.toNat_ofNat]
  exact Int.toNat_natCast _

/-- The doubleword at an address of the core's own SRAM. -/
def State.localWord (s : State) (core a : Nat) : BitVec 64 := BitVec.ofNat 64 (leNat (s.coreSram.read (core * 2 ^ 18 + a) 8))

section Local
variable {a len : Nat} (ha : a % 8 = 0) (hlt : a < 0x40000)
include ha hlt

theorem State.scalarLoad_local (rd : Fin 32) : s.scalarLoad p r len rd a 8 true none = s.retireX p r len rd (s.localWord r.core a) := by
  simp only [State.scalarLoad, Part.checkAcc_local ha hlt]
  simp [ofInt_signedOf, State.retireX, State.localWord, State.locRead]

theorem State.scalarStore_local (v : BitVec 64) :
    s.scalarStore p r len a 8 v = (s.locWrite (.core r.core a) (toLE 8 v.toNat) (some r)).retire p r len := by
  simp [State.scalarStore, Part.checkAcc_local ha hlt, State.storeLoc, State.busyBank]

end Local

section Atomics
variable {w len : Nat} (hf3 : fF3 w = 3) (ha : ((s.ctx r).rx (fRs1 w)).toNat % 8 = 0) (hlt : ((s.ctx r).rx (fRs1 w)).toNat < 0x40000)
include hf3 ha hlt

theorem State.atomicOp_amoadd (hf7 : fF7 w / 4 = 0) : s.atomicOp p r len w =
    (s.locWrite (.core r.core ((s.ctx r).rx (fRs1 w)).toNat)
      (toLE 8 (s.localWord r.core ((s.ctx r).rx (fRs1 w)).toNat + (s.ctx r).rx (fRs2 w)).toNat) (some r)).retireX p r len (fRd w)
        (s.localWord r.core ((s.ctx r).rx (fRs1 w)).toNat) := by
  simp [State.atomicOp, hf3, hf7, Part.checkAcc_local ha hlt, amoValue, recorded_local hlt, ofInt_signedOf, State.localWord, State.locRead,
    State.retireX]

theorem State.atomicOp_lr (hf7 : fF7 w / 4 = 2) (hrs2 : fRs2 w = 0) : s.atomicOp p r len w =
    (s.modCtx r fun c => { c with resv := some (resvBlock r.core ((s.ctx r).rx (fRs1 w)).toNat) }).retireX p r len (fRd w)
        (s.localWord r.core ((s.ctx r).rx (fRs1 w)).toNat) := by
  simp [State.atomicOp, hf3, hf7, hrs2, Part.checkAcc_local ha hlt, ofInt_signedOf, State.localWord, State.locRead, State.retireX]

/-- A store-conditional whose reservation stands stores, and gives it up. -/
theorem State.atomicOp_sc_holds (hf7 : fF7 w / 4 = 3) (hresv : (s.ctx r).resv = some (resvBlock r.core ((s.ctx r).rx (fRs1 w)).toNat)) :
    s.atomicOp p r len w =
      ((s.locWrite (.core r.core ((s.ctx r).rx (fRs1 w)).toNat) (toLE 8 ((s.ctx r).rx (fRs2 w)).toNat) (some r)).modCtx r
        fun c => { c with resv := none }).retireX p r len (fRd w) 0 := by
  have hsource : ((s.ctx r).rx (fRs2 w)).toNat % 18446744073709551616 = ((s.ctx r).rx (fRs2 w)).toNat := Nat.mod_eq_of_lt (BitVec.isLt _)
  simp [State.atomicOp, hf3, hf7, Part.checkAcc_local ha hlt, recorded_local hlt, State.retireX, hsource, hresv]

/-- One whose reservation is lost stores nothing. -/
theorem State.atomicOp_sc_lost (hf7 : fF7 w / 4 = 3) (hresv : (s.ctx r).resv ≠ some (resvBlock r.core ((s.ctx r).rx (fRs1 w)).toNat)) :
    s.atomicOp p r len w = (s.modCtx r fun c => { c with resv := none }).retireX p r len (fRd w) 1 := by
  simp [State.atomicOp, hf3, hf7, Part.checkAcc_local ha hlt, recorded_local hlt, State.retireX, hresv]

end Atomics

end Sys2Proof.Machine
end

section
/-! PROOFS. The statements of 07_general_cores about loads, stores and atomics in a core's SRAM, and about integer instructions and results that arrive. -/
namespace Sys2Proof.Machine

variable {s t u : State} {p : Part} {r : CtxRef}

/-! ### The rows of words (R239, R247, R263, R267) -/

theorem Issues.runs_word {core : Nat} (hi : Issues s core p r) {word : BitVec 32} (hw : word.toNat % 4 = 3) {k : WordKind} (hkind : wordKind word.toNat = k)
    {post : State → Prop} (h : Runs (settled (s.execWord p r word.toNat 4)) post) :
    Runs (presented (wordKind word.toNat == k) (settled (s.runWord core word))) post := by
  rwa [hkind, beq_self_eq_true, presented_true, State.runWord_of_issues hi hw]

theorem exec_rvInstruction {core : Fin 864} (hi : Issues s core p r) {word : BitVec 32} (hw : word.toNat % 4 = 3) :
    exec (.rvInstruction core word) s = settled (s.execWord p r word.toNat 4) := by
  rw [show exec (.rvInstruction core word) s = settled (s.runWord core word) from rfl, State.runWord_of_issues hi hw]

section Kinds
variable {w : Nat} (hw : w % 4 = 3)
include hw

theorem wordKind_load (h : w % 128 = 0x03) : wordKind w = .load := by simp [wordKind, hw, h]

theorem wordKind_store (h : w % 128 = 0x23) : wordKind w = .store := by simp [wordKind, hw, h]

theorem wordKind_fence (h : w % 128 = 0x0F) (hf3 : fF3 w = 0) : wordKind w = .fence := by simpa [wordKind, hw, h, fF3] using hf3

/-- Of the atomic words, funct5 tells LR and SC from the AMOs. -/
theorem wordKind_atomic (h : w % 128 = 0x2F) : wordKind w = if fF7 w / 4 = 2 then .lr else if fF7 w / 4 = 3 then .sc else .amo := by
  have hf5 : fF7 w / 4 = w / 134217728 % 32 := by
    rw [fF7]
    omega
  simp only [wordKind, hw, h, hf5, beq_self_eq_true, if_true, Nat.reducePow]
  generalize w / 134217728 % 32 = k
  split
  · rfl
  · rfl
  next h2 h3 => rw [if_neg h2, if_neg h3]

end Kinds

/-! ### Writes of a context to its core's SRAM -/

/-- A context that goes on after others lost at most reservations goes on from where it stood. -/
theorem SameButResv.wentOn (h : SameButResv s t) (h' : WentOn t u r) : WentOn s u r := by
  obtain ⟨hpc, hinstret, -⟩ := h.place r
  rwa [WentOn, ← hpc, ← hinstret]

/-- An instruction that sets the reservation, writes a register and retires has gone on. -/
theorem State.resv_retireX (s : State) (p : Part) (r : CtxRef) (resv : Option Nat) (rd : Fin 32) (v : BitVec 64) :
    let u := (s.modCtx r fun c => { c with resv := resv }).retireX p r 4 rd v
    (u.ctx r).resv = resv ∧ (rd ≠ 0 → (u.ctx r).rx rd = v) ∧ WentOn s u r ∧ OthersStay s u r ∧ OnlyCores s u := by
  intro u
  refine ⟨?_, fun hrd => State.rx_retireX_same _ p r 4 v hrd, ((StaysAt.refl s r).modCtx rfl rfl |>.wx rd v).retire p⟩
  rw [State.ctx_retireX, State.ctx_modCtx_same, Ctx.wx_eq]

section Written
variable {n o : Nat} {b : Bytes} (hb : b ≠ [])
include hb

/-- A store leaves the bytes in the SRAM and goes on, its registers as they were. -/
theorem State.retire_locWrite :
    let u := (s.locWrite (.core n o) b (some r)).retire p r 4
    OnlySram s u (s.coreSram.write (n * 2 ^ 18 + o) b) ∧ WentOn s u r ∧ ∀ x, (u.ctx r).rx x = (s.ctx r).rx x :=
  ⟨(s.locWrite_core hb n o _).then (State.onlyCores_retireTo _ p r _), (s.locWrite_sameButResv _ b _).retire p⟩

/-- A read-modify-write leaves the bytes in the SRAM and its value in the register, and goes on. -/
theorem State.retireX_locWrite (rd : Fin 32) (v : BitVec 64) :
    let u := (s.locWrite (.core n o) b (some r)).retireX p r 4 rd v
    OnlySram s u (s.coreSram.write (n * 2 ^ 18 + o) b) ∧ (rd ≠ 0 → (u.ctx r).rx rd = v) ∧ WentOn s u r := by
  obtain ⟨hwent, -, hcores⟩ := (s.locWrite (.core n o) b (some r)).retireX_wentOn p r rd v
  exact ⟨(s.locWrite_core hb n o _).then hcores, State.rx_retireX_same _ p r 4 v, (s.locWrite_sameButResv _ b _).wentOn hwent⟩

/-- So does a store-conditional, which gives up its reservation besides. -/
theorem State.resv_retireX_locWrite (rd : Fin 32) (v : BitVec 64) :
    let u := ((s.locWrite (.core n o) b (some r)).modCtx r fun c => { c with resv := none }).retireX p r 4 rd v
    OnlySram s u (s.coreSram.write (n * 2 ^ 18 + o) b) ∧ (u.ctx r).resv = none ∧ (rd ≠ 0 → (u.ctx r).rx rd = v) ∧ WentOn s u r := by
  obtain ⟨hresv, hrx, hwent, -, hcores⟩ := (s.locWrite (.core n o) b (some r)).resv_retireX p r none rd v
  exact ⟨(s.locWrite_core hb n o _).then hcores, hresv, hrx, (s.locWrite_sameButResv _ b _).wentOn hwent⟩

end Written

theorem toLE_ne_nil {n : Nat} (h : n ≠ 0) (v : Nat) : toLE n v ≠ [] := by
  rwa [ne_eq, ← List.length_eq_zero_iff, toLE_length]

/-- Settles O27: each word is one access of the core's own SRAM, in order with the retirement of its context. -/
theorem coreLoadsStoresAndAtomics : Obligations.CoreLoadsStoresAndAtomics := by
  intro s core p r hi hq word w a cell old sram hw
  obtain ⟨hloads, houtst, -⟩ := hq
  obtain ⟨hcore, -, -⟩ := hi.current
  refine ⟨fun b h hf3 hb ha hlt => hi.runs_word hw (wordKind_load hw h) ?_, fun b h hf3 hb ha hlt => hi.runs_word hw (wordKind_store hw h) ?_,
    fun h hf3 hf7 ha hlt => hi.runs_word hw (by rw [wordKind_atomic hw h, hf7]; rfl) ?_,
    fun h hf3 hf7 hrs2 ha hlt => hi.runs_word hw (by rw [wordKind_atomic hw h, hf7]; rfl) ?_,
    fun h hf3 hf7 ha hlt => ⟨fun hresv => hi.runs_word hw (by rw [wordKind_atomic hw h, hf7]; rfl) ?_,
      fun hresv => hi.runs_word hw (by rw [wordKind_atomic hw h, hf7]; rfl) ?_⟩,
    fun h hf3 => hi.runs_word hw (wordKind_fence hw h hf3) ?_⟩
  · rw [State.execWord_ld hloads h hf3, ← hb, State.scalarLoad_local ha hlt, hcore]
    exact runs_settled ⟨s.rx_retireX_same p r 4 _, fun x => s.rx_retireX_ne p r 4 _, s.retireX_wentOn p r _ _⟩
  · rw [State.execWord_sd hloads h hf3, ← hb, State.scalarStore_local ha hlt, hcore]
    exact runs_settled (State.retire_locWrite (toLE_ne_nil (by decide) _))
  · rw [State.execWord_atomic hloads h, State.atomicOp_amoadd hf3 ha hlt hf7, hcore]
    exact runs_settled (State.retireX_locWrite (toLE_ne_nil (by decide) _) _ _)
  · rw [State.execWord_atomic hloads h, State.atomicOp_lr hf3 ha hlt hf7 hrs2, hcore]
    exact runs_settled (s.resv_retireX p r _ _ _)
  · rw [State.execWord_atomic hloads h, State.atomicOp_sc_holds hf3 ha hlt hf7 (by rw [hcore]; exact hresv), hcore]
    exact runs_settled (State.resv_retireX_locWrite (toLE_ne_nil (by decide) _) _ _)
  · rw [State.execWord_atomic hloads h, State.atomicOp_sc_lost hf3 ha hlt hf7 (by rw [hcore]; exact hresv)]
    exact runs_settled (s.resv_retireX p r _ _ _)
  · rw [State.execWord_fence hloads h hf3 houtst]
    obtain ⟨hwent, hframe⟩ := (StaysAt.refl s r).retire p
    exact runs_settled ⟨hwent, s.rx_retire p 4, hframe⟩

/-! ### Integer words (R239) -/

/-- The register takes the value, and no other register or context changes. -/
def Puts (s u : State) (r : CtxRef) (rd : Fin 32) (v : BitVec 64) : Prop :=
  (rd ≠ 0 → (u.ctx r).rx rd = v) ∧ (∀ x, x ≠ rd → (u.ctx r).rx x = (s.ctx r).rx x) ∧ OthersStay s u r ∧ OnlyCores s u

theorem State.puts_retireX (s : State) (p : Part) (r : CtxRef) (rd : Fin 32) (v : BitVec 64) :
    Puts s (s.retireX p r 4 rd v) r rd v ∧ WentOn s (s.retireX p r 4 rd v) r := by
  obtain ⟨hwent, hframe⟩ := s.retireX_wentOn p r rd v
  exact ⟨⟨s.rx_retireX_same p r 4 v, fun _ => s.rx_retireX_ne p r 4 v, hframe⟩, hwent⟩

/-- A link goes to the register, and the context to the target. -/
theorem State.puts_jump (s : State) (p : Part) (r : CtxRef) (rd : Fin 32) (v pc : BitVec 64) :
    Puts s ((s.modCtx r (·.wx rd v)).retireTo p r pc) r rd v ∧ (((s.modCtx r (·.wx rd v)).retireTo p r pc).ctx r).pc = pc := by
  refine ⟨⟨fun hrd => ?_, fun x hx => ?_, ((OthersStay.refl s r).modCtx _).trans (State.othersStay_retireTo _ p r pc),
    ((OnlyCores.refl s).modCtx r _).trans (State.onlyCores_retireTo _ p r pc)⟩, by rw [State.ctx_retireTo]⟩
  · rw [State.rx_retireTo, State.ctx_modCtx_same, Ctx.rx_wx_same _ v hrd]
  · rw [State.rx_retireTo, State.ctx_modCtx_same, Ctx.rx_wx_ne _ v hx]

/-! ### The vector unit comes free (R248) -/

/-- A key that is listed is listed with what is read there. -/
theorem SMap.mem_of_key {α : Type} {d : α} {m : SMap α} {k : Nat} (h : k ∈ m.map (·.1)) : (k, SMap.get m d k) ∈ m := by
  induction m with
  | nil => simp at h
  | cons e rest ih =>
    obtain ⟨k', v⟩ := e
    unfold SMap.get
    split
    next heq => simp [heq]
    next hne =>
      have hrest : k ∈ rest.map (·.1) := by simpa [Ne.symm hne] using h
      exact List.mem_cons_of_mem _ (ih hrest)

/-- A key that is not listed reads as the default. -/
theorem SMap.get_of_not_key {α : Type} {d : α} {m : SMap α} {k : Nat} (h : k ∉ m.map (·.1)) : SMap.get m d k = d := by
  induction m with
  | nil => rfl
  | cons e rest ih =>
    obtain ⟨k', v⟩ := e
    simp only [List.map_cons, List.mem_cons, not_or] at h
    rw [SMap.get, if_neg (Ne.symm h.1), ih h.2]

/-- A fold in which one element acts, and nothing does after it. -/
theorem foldl_to_fixed {α β : Type} {f : β → α → β} {b : β} {a : α} {l : List α} (ha : a ∈ l) (hbefore : ∀ x ∈ l, x ≠ a → f b x = b)
    (hafter : ∀ x ∈ l, f (f b a) x = f b a) : l.foldl f b = f b a := by
  obtain ⟨pre, post, hl, hpre⟩ := List.eq_append_cons_of_mem ha
  rw [hl, List.foldl_append, List.foldl_cons, foldl_of_fixed fun x hx => hbefore x (by simp [hl, hx]) (ne_of_mem_of_not_mem hx hpre),
    foldl_of_fixed fun x hx => hafter x (by simp [hl, hx])]

/-- What a context does when the vector unit comes free. -/
def State.vectorFreeAt (p : Part) (core : Nat) (s : State) (i : Nat) : State :=
  let r : CtxRef := ⟨core, Fin.ofNat 16 i⟩
  match (s.ctx r).wait with
  | .vunit => s.wake r
  | .vrel => ((s.freeSlotOf r).retire p r 4).wake r
  | _ => s

/-- The unit of a core occupied by none. -/
def State.freeUnit (s : State) (core : Nat) : State := s.setCore core { s.core core with vbusy := none }

theorem State.vectorFree_eq (core : Nat) :
    s.vectorFree p core = ((s.core core).ctxs.map (·.1)).foldl (State.vectorFreeAt p core) (s.freeUnit core) := by
  have hctxs : ((s.freeUnit core).core core).ctxs = (s.core core).ctxs := by rw [State.freeUnit, State.core_setCore_same]
  rw [← hctxs]
  rfl

theorem State.onlyCores_freeUnit (s : State) (core : Nat) : OnlyCores s (s.freeUnit core) := rfl

@[simp] theorem State.ctx_freeUnit (core : Nat) (q : CtxRef) : (s.freeUnit core).ctx q = s.ctx q := State.ctx_setCore_of_ctxs (by rfl) q

theorem State.vectorFreeAt_waiting {core i : Nat} (h : (s.ctx ⟨core, Fin.ofNat 16 i⟩).wait = .vunit) :
    s.vectorFreeAt p core i = s.wake ⟨core, Fin.ofNat 16 i⟩ := by
  rw [State.vectorFreeAt, h]

theorem State.vectorFreeAt_other {core i : Nat} (hunit : (s.ctx ⟨core, Fin.ofNat 16 i⟩).wait ≠ .vunit)
    (hrel : (s.ctx ⟨core, Fin.ofNat 16 i⟩).wait ≠ .vrel) :
    s.vectorFreeAt p core i = s := by
  unfold State.vectorFreeAt
  dsimp only
  split
  next h => exact absurd h hunit
  next h => exact absurd h hrel
  next => rfl

/-- A core of whose contexts only `r` waits for the vector unit, and none in AB.VREL. -/
def OnlyWaiter (s : State) (r : CtxRef) : Prop :=
  ∀ e ∈ (s.core r.core).ctxs, e.1 < 16 ∧ e.2.wait ≠ .vrel ∧ (e.2.wait = .vunit → e.1 = r.ctx.val)

theorem OnlyWaiter.at_key (h : OnlyWaiter s r) {i : Nat} (hi : i ∈ (s.core r.core).ctxs.map (·.1)) :
    i < 16 ∧ (s.ctx ⟨r.core, Fin.ofNat 16 i⟩).wait ≠ .vrel ∧ ((s.ctx ⟨r.core, Fin.ofNat 16 i⟩).wait = .vunit → i = r.ctx.val) := by
  have hentry := h _ (SMap.mem_of_key (d := Ctx.reset) hi)
  rwa [State.ctx, Fin.val_ofNat, Nat.mod_eq_of_lt hentry.1]

/-- The one context that waits for the vector unit becomes ready when it comes free. -/
theorem State.vectorFree_onlyWaiter (h : OnlyWaiter s r) (hwait : (s.ctx r).wait = .vunit) (p : Part) :
    s.vectorFree p r.core = (s.freeUnit r.core).wake r := by
  have hself : (⟨r.core, Fin.ofNat 16 r.ctx.val⟩ : CtxRef) = r := by simp
  have hkey : r.ctx.val ∈ (s.core r.core).ctxs.map (·.1) := by
    by_contra hnot
    rw [State.ctx, SMap.get_of_not_key hnot] at hwait
    exact absurd hwait (by decide)
  have hact : (s.freeUnit r.core).vectorFreeAt p r.core r.ctx.val = (s.freeUnit r.core).wake r := by
    rw [State.vectorFreeAt_waiting (by rwa [hself, State.ctx_freeUnit]), hself]
  rw [State.vectorFree_eq, foldl_to_fixed hkey (fun i hi hne => ?_) (fun i hi => ?_), hact]
  · obtain ⟨-, hrel, hunit⟩ := h.at_key hi
    exact State.vectorFreeAt_other (by rw [State.ctx_freeUnit]; exact fun e => hne (hunit e)) (by rwa [State.ctx_freeUnit])
  · obtain ⟨hlt, hrel, hunit⟩ := h.at_key hi
    rw [hact]
    by_cases heq : (⟨r.core, Fin.ofNat 16 i⟩ : CtxRef) = r
    · have hready := State.wait_wake (s.freeUnit r.core) r
      exact State.vectorFreeAt_other (by rw [heq, hready]; decide) (by rw [heq, hready]; decide)
    · have hstays := (OthersStay.refl (s.freeUnit r.core) r).wake _ heq
      rw [State.ctx_freeUnit] at hstays
      refine State.vectorFreeAt_other (fun e => heq ?_) (by rwa [hstays])
      rw [hstays] at e
      rw [hunit e, hself]

theorem State.vbusy_wake (s : State) (r : CtxRef) : ((s.wake r).core r.core).vbusy = (s.core r.core).vbusy := by
  unfold State.wake
  dsimp only
  split <;> simp [State.core_modCtx]

/-! ### Results that arrive (R246, R247) -/

/-- The oldest result goes to its register, and the wait for it ends. -/
theorem State.resultArrives_int {rd : Fin 32} {x : BitVec 64} {rest : List PendRes} (hloads : (s.ctx r).loads = .int rd x :: rest)
    (hwait : (s.ctx r).wait = .memory) : s.resultArrives r = (s.modCtx r fun c => { c.wx rd x with loads := rest }).wake r := by
  have hwx : ((s.ctx r).wx rd x).wait = .memory := by rw [Ctx.wx_eq, hwait]
  simp [State.resultArrives, hloads, hwx]

theorem exec_divideDone {core : Fin 864} {ctx : Fin 16} (hwait : (s.ctx ⟨core, ctx⟩).wait = .unit_) :
    exec (.divideDone core ctx) s = settled (s.wake ⟨core, ctx⟩) := by
  rw [show exec (.divideDone core ctx) s = execDivideDone core ctx s from rfl, execDivideDone, hwait]

theorem exec_vectorUnitFree {core : Fin 864} (hpart : s.corePart core = some p) : exec (.vectorUnitFree core) s = settled (s.vectorFree p core) := by
  rw [show exec (.vectorUnitFree core) s = execVectorUnitFree core s from rfl, execVectorUnitFree, hpart]

/-- Settles O28: each word is one write of a register and one retirement, and each event is one wake. -/
theorem integerInstructionsOfTheProfile : Obligations.IntegerInstructionsOfTheProfile := by
  intro s
  constructor
  · intro core p r hi hq word w put
    obtain ⟨hloads, -, -⟩ := hq
    refine ⟨fun h => ?_, fun h hf3 => ?_, fun h => ?_, fun h hf3 => ?_⟩
    · rw [exec_rvInstruction hi (by omega), State.execWord_lui hloads h]
      exact runs_settled (s.puts_retireX p r _ _)
    · rw [exec_rvInstruction hi (by omega), State.execWord_addi hloads h hf3]
      exact runs_settled (s.puts_retireX p r _ _)
    · rw [exec_rvInstruction hi (by omega), State.execWord_jal hloads h]
      exact runs_settled (s.puts_jump p r _ _ _)
    · rw [exec_rvInstruction hi (by omega), State.execWord_beq hloads h hf3]
      refine runs_settled ⟨s.othersStay_retireTo p r _, s.onlyCores_retireTo p r _, s.rx_retireTo p r _, ?_⟩
      rw [State.ctx_retireTo]
      rfl
  · intro core ctx hst r
    refine ⟨fun rd x rest hloads hwait => ?_, fun hwait => ?_, fun p hpart honly hwait => ?_⟩
    · rw [show exec (.accessResultArrives core ctx) s = settled (s.resultArrives r) from rfl, State.resultArrives_int hloads hwait]
      refine runs_settled ⟨?_, fun hrd => ?_, State.wait_wake _ _, ((OthersStay.refl s r).modCtx _).wake,
        ((OnlyCores.refl s).modCtx r _).trans (State.onlyCores_wake _ r)⟩
      · rw [State.ctx_wake_running (by rwa [State.st_modCtx]), State.ctx_modCtx_same]
      · rw [(State.wake_running (by rwa [State.st_modCtx])).1, State.ctx_modCtx_same]
        exact Ctx.rx_wx_same _ x hrd
    · rw [exec_divideDone hwait]
      exact runs_settled ⟨State.wait_wake s r, (State.wake_running hst).2, (OthersStay.refl s r).wake, s.onlyCores_wake r⟩
    · rw [exec_vectorUnitFree hpart, State.vectorFree_onlyWaiter (r := r) honly hwait p]
      have hfree : OthersStay s (s.freeUnit core) r := fun q _ => State.ctx_freeUnit core q
      refine runs_settled ⟨?_, State.wait_wake _ _, hfree.wake, (s.onlyCores_freeUnit core).trans (State.onlyCores_wake _ r)⟩
      rw [State.vbusy_wake (s.freeUnit core) r, State.freeUnit, State.core_setCore_same]

end Sys2Proof.Machine
end

section
/-! PROOFS. The statement of 07_general_cores about AB.QTAKE, AB.QPUT and AB.QREL. -/
namespace Sys2Proof.Machine

variable {s : State} {p : Part} {q : QueueDef} {r : CtxRef}

/-! ### Queues -/

theorem Part.id_of_queueDef? {id : Nat} (h : p.queueDef? id = some q) : q.id = id := by
  simpa using List.find?_some h

@[simp] theorem State.queue_setQueue_same (s : State) (n id : Nat) (v : QState) : (s.setQueue n id v).queue n id = v := by
  simp [State.setQueue, State.queue]

@[simp] theorem State.queue_modQueue_same (s : State) (n id : Nat) (f : QState → QState) : (s.modQueue n id f).queue n id = f (s.queue n id) :=
  s.queue_setQueue_same n id _

/-- A posted entry joins its queue behind the others. -/
theorem State.queue_post {n : Nat} (hfree : freeSlot ((s.queue p.num q.id).entries.map (·.slot)) q.size = some n) (b : Bytes) (tag : BitVec 9) :
    (s.post p q b tag none none).queue p.num q.id =
      { s.queue p.num q.id with entries := (s.queue p.num q.id).entries ++ [{ slot := n, tag := tag, req := none, std := none }] } := by
  simp only [State.post, hfree]
  exact State.queue_setQueue_same _ _ _ _

/-! ### An entry given to a context (R252) -/

/-- What a context has of an entry that it was given: the address, the entry among those it took, the entry marked, and its retirement. -/
structure GivesEntry (s u : State) (p : Part) (q : QueueDef) (e : QEntry) (r : CtxRef) (rd : Fin 32) : Prop where
  address : rd ≠ 0 → (u.ctx r).rx rd = BitVec.ofNat 64 (q.slotAddr e.slot)
  taken : (u.ctx r).taken = (s.ctx r).taken ++ [⟨q.id, e.slot⟩]
  queue : u.queue p.num q.id = (s.queue p.num q.id).take e.slot
  wentOn : WentOn s u r
  others : OthersStay s u r
  st : (u.core r.core).st = (s.core r.core).st

/-- A context's record of an entry that it was given: its address in the register, the entry among those taken. -/
structure Ctx.Records (c d : Ctx) (q : QueueDef) (e : QEntry) (rd : Fin 32) : Prop where
  address : rd ≠ 0 → d.rx rd = BitVec.ofNat 64 (q.slotAddr e.slot)
  taken : d.taken = c.taken ++ [⟨q.id, e.slot⟩]
  pc : d.pc = c.pc
  instret : d.instret = c.instret

theorem Ctx.records_wx (c : Ctx) (q : QueueDef) (e : QEntry) (rd : Fin 32) (held : Option Nat) (tenant : BitVec 9) :
    c.Records { (c.wx rd (BitVec.ofNat 64 (q.slotAddr e.slot))) with taken := c.taken ++ [⟨q.id, e.slot⟩], held := held, tenant := tenant } q e rd := by
  obtain ⟨hpc, hinstret, -⟩ := c.wx_place rd (BitVec.ofNat 64 (q.slotAddr e.slot))
  exact ⟨fun hrd => Ctx.rx_wx_same c _ hrd, rfl, hpc, hinstret⟩

/-- The entry marked in its queue and the cores as they were, the context records the entry, and retires. -/
theorem GivesEntry.of_marked {t : State} {e : QEntry} {rd : Fin 32} {f : Ctx → Ctx} (hcask : t.cask.state = 0)
    (hcores : t.cores = s.cores) (hqueues : t.queues = (s.modQueue p.num q.id (·.take e.slot)).queues) (hf : ∀ c : Ctx, c.Records (f c) q e rd) (a : Nat) :
    GivesEntry s (((t.modCtx r f).waitRec p r 1 0 a 0).retire p r 4) p q e r rd := by
  obtain ⟨haddress, htaken, hpc, hinstret⟩ := hf (t.ctx r)
  obtain ⟨hwent, hothers, honly⟩ := ((StaysAt.refl t r).modCtx hpc hinstret).retire p
  rw [State.waitRec_idle (s := t.modCtx r f) hcask]
  refine ⟨fun hrd => ?_, ?_, ?_, (SameButResv.of_cores hcores).wentOn hwent, fun x hx => (hothers x hx).trans (State.ctx_congr hcores x), ?_⟩
  · rw [State.rx_retire, State.ctx_modCtx_same, haddress hrd]
  · rw [State.retire, State.ctx_retireTo, State.ctx_modCtx_same, htaken, State.ctx_congr hcores]
  · rw [State.queue_congr (honly.queues.trans hqueues), State.queue_modQueue_same]
  · rw [State.retire, State.st_retireTo, State.st_modCtx, State.core_congr hcores]

theorem State.giveEntry_gives (h : s.cask.state = 0) (p : Part) (q : QueueDef) (e : QEntry) (r : CtxRef) (rd : Fin 32) :
    GivesEntry s (s.giveEntry p q e r rd) p q e r rd := by
  unfold State.giveEntry
  dsimp only
  split
  · exact .of_marked (by exact h) (by rfl) (by rfl) (fun c => c.records_wx q e rd _ _) _
  · exact .of_marked (by exact h) (by rfl) (by rfl) (fun c => c.records_wx q e rd _ _) _

/-! ### AB.QTAKE and its wake (R252) -/

theorem State.taken_wake (h : (s.core r.core).st = .running) : ((s.wake r).ctx r).taken = (s.ctx r).taken := by rw [State.ctx_wake_running h]

/-- A context of a running core may take from a queue, or poll it: the queue is one of contexts' work, and the context holds no request. -/
structure AcceptsTake (s : State) (p : Part) (q : QueueDef) (r : CtxRef) (rs1 rs2 : Fin 32) : Prop where
  cask : s.cask.state = 0
  loads : (s.ctx r).loads = []
  named : ((s.ctx r).rx rs1).toNat = q.id
  defined : p.queueDef? q.id = some q
  running : (s.core r.core).st = .running
  kind : q.kind = 0 ∨ q.kind = 1 ∨ q.kind = 3
  held : (s.ctx r).held = none
  poll : ((s.ctx r).rx rs2).toNat ≤ 1

theorem AcceptsTake.unrefused {rs1 rs2 : Fin 32} (h : AcceptsTake s p q r rs1 rs2) {n : Nat} (hn : n ≤ 1) :
    (decide (n > 1) || !(q.kind == 0 || q.kind == 1 || q.kind == 3) || ((q.kind == 0 || q.kind == 1) && (s.ctx r).held.isSome)) = false := by
  have hkind : (q.kind == 0 || q.kind == 1 || q.kind == 3) = true := by simpa [or_assoc] using h.kind
  rw [hkind, h.held]
  simpa

section Take
variable {rs1 rs2 : Fin 32} (h : AcceptsTake s p q r rs1 rs2) (rd : Fin 32)
include h

/-- A take that is not refused, outside a replay and a drain, gives the entry or meets an empty queue. -/
theorem State.abQtake_takes {e : QEntry} (hold : (s.queue p.num q.id).oldest = some e) (hline : (s.queue p.num q.id).takers = []) :
    s.abQtake p r rd rs1 rs2 = s.giveEntry p q e r rd := by
  simp only [State.abQtake, State.needing_quiet h.loads, h.named, h.defined, h.unrefused h.poll, State.replaying_idle h.cask, h.running, hold, hline]
  rfl

theorem State.abQtake_polls (hold : (s.queue p.num q.id).oldest = none) (hpoll : ((s.ctx r).rx rs2).toNat = 1) :
    s.abQtake p r rd rs1 rs2 = s.retireX p r 4 rd 0 := by
  simp only [State.abQtake, State.needing_quiet h.loads, h.named, h.defined, h.unrefused (Nat.le_refl 1), State.replaying_idle h.cask, h.running, hold, hpoll,
    State.waitRec_idle h.cask]
  rfl

theorem State.abQtake_waits (hold : (s.queue p.num q.id).oldest = none) (hpoll : ((s.ctx r).rx rs2).toNat = 0) :
    s.abQtake p r rd rs1 rs2 = (s.modQueue p.num q.id fun v => { v with takers := v.takers ++ [r] }).block r (.qtake q.id rd) := by
  simp only [State.abQtake, State.needing_quiet h.loads, h.named, h.defined, h.unrefused (Nat.zero_le 1), State.replaying_idle h.cask, h.running, hold, hpoll]
  rfl

end Take

theorem State.qtakeWake_first {e : QEntry} {rest : List CtxRef} {rd : Fin 32} (hdef : p.queueDef? q.id = some q)
    (hold : (s.queue p.num q.id).oldest = some e) (hline : (s.queue p.num q.id).takers = r :: rest) (hrun : (s.core r.core).st = .running)
    (hwait : (s.ctx r).wait = .qtake q.id rd) :
    s.qtakeWake p q.id = ((s.modQueue p.num q.id fun v => { v with takers := v.takers.filter (· != r) }).giveEntry p q e r rd).wake r := by
  simp [State.qtakeWake, hdef, hold, hline, hrun, hwait]

/-! ### AB.QPUT and its wake (R253) -/

theorem State.abQput_posts (hq : Quiet s r) {rs1 rs2 : Fin 32} (hnamed : ((s.ctx r).rx rs1).toNat = q.id) (hdef : p.queueDef? q.id = some q)
    (hlow : 3 ≤ q.kind) (hhigh : q.kind ≤ 7) (hsource : (p.putSource r.core ((s.ctx r).rx rs2).toNat q.bytes).isSome = true)
    (hroom : s.queueFull p.num q = false) (hline : (s.queue p.num q.id).posters = []) (rd : Fin 32) :
    s.abQput p r rd rs1 rs2 = s.putEntry p q r (s.ctxRead p r.core ((s.ctx r).rx rs2).toNat q.bytes) rd := by
  obtain ⟨hloads, houtst, -⟩ := hq
  have h1 : ¬q.kind ≤ 1 := by omega
  have h2 : q.kind ≠ 2 := by omega
  simp [State.abQput, State.needing_quiet hloads, hnamed, hdef, h1, Nat.not_lt.2 hhigh, Option.isSome_iff_ne_none.1 hsource, h2, houtst, hroom, hline]

theorem State.qputWake_first {rest : List CtxRef} {a : Nat} {rd : Fin 32} (hdef : p.queueDef? q.id = some q)
    (hline : (s.queue p.num q.id).posters = r :: rest) (hroom : s.queueFull p.num q = false) (hwait : (s.ctx r).wait = .qput q.id a rd) :
    ∃ b, s.qputWake p q.id = ((s.modQueue p.num q.id fun v => { v with posters := rest }).putEntry p q r b rd).wake r := by
  refine ⟨(s.modQueue p.num q.id fun v => { v with posters := rest }).ctxRead p r.core a q.bytes, ?_⟩
  simp [State.qputWake, hdef, hline, hroom, hwait]

/-- A post joins the queue with its context's tag, and the context goes on with 0. -/
theorem State.putEntry_posts {n : Nat} (hfree : freeSlot ((s.queue p.num q.id).entries.map (·.slot)) q.size = some n) (b : Bytes) (rd : Fin 32) :
    (s.putEntry p q r b rd).queue p.num q.id = { s.queue p.num q.id with
      entries := (s.queue p.num q.id).entries ++ [{ slot := n, tag := (s.ctx r).tenant, req := none, std := none }] } ∧
    (rd ≠ 0 → ((s.putEntry p q r b rd).ctx r).rx rd = 0) ∧ WentOn s (s.putEntry p q r b rd) r := by
  obtain ⟨hwent, -, honly⟩ := (s.post p q b (s.ctx r).tenant none none).retireX_wentOn p r rd 0
  refine ⟨?_, State.rx_retireX_same _ p r 4 0, (s.post_sameButResv p q b _ none none).wentOn hwent⟩
  rw [State.putEntry, State.queue_congr honly.queues, State.queue_post hfree]

/-! ### AB.QREL (R254) -/

theorem State.abQrel_releases (hloads : (s.ctx r).loads = []) {rs1 : Fin 32} {e : TakenEntry}
    (hfind : ((s.ctx r).taken.find? fun e => (p.queueDef? e.queue).any fun q => q.slotAddr e.slot == ((s.ctx r).rx rs1).toNat) = some e) :
    s.abQrel p r rs1 = ((s.modQueue p.num e.queue (·.release e.slot)).modCtx r fun c => { c with taken := c.taken.filter (· != e) }).retire p r 4 := by
  simp only [State.abQrel, State.needing_quiet hloads, hfind]

/-! ### The rows of the wakes -/

section Rows
variable {part : Fin 32} (hpart : s.part? part.val = some p) {queue : BitVec 16}
include hpart

theorem exec_abQtakeWake : exec (.abQtakeWake part queue) s = settled (s.qtakeWake p queue.toNat) := by
  rw [show exec (.abQtakeWake part queue) s = execAbQtakeWake part queue s from rfl, execAbQtakeWake, hpart]

theorem exec_abQputWake : exec (.abQputWake part queue) s = settled (s.qputWake p queue.toNat) := by
  rw [show exec (.abQputWake part queue) s = execAbQputWake part queue s from rfl, execAbQputWake, hpart]

end Rows

/-- Settles O24: each instruction is one change of its queue and one retirement or wait, and each wake gives or posts for the context first in line. -/
theorem queueTakesAndPosts : Obligations.QueueTakesAndPosts := by
  intro s p q hcask
  constructor
  · intro core r rd rs1 rs2 hi hq
    obtain ⟨hloads, -, -⟩ := id hq
    obtain ⟨hcore, -, -⟩ := hi.current
    rw [← hcore]
    refine ⟨fun hdef hrun hkind hheld hpoll => ?_, fun rl n hdef hlow hhigh hsource hroom hline hfree => hi.runs ?_, fun e hdef hfind => hi.runs ?_⟩
    · have hid := Part.id_of_queueDef? hdef
      have haccepts : AcceptsTake s p q r rs1 rs2 := ⟨hcask, hloads, hid.symm, by rwa [hid], hrun, hkind, hheld, hpoll⟩
      refine ⟨fun e hold hline => hi.runs ?_, fun hold hone => hi.runs ?_, fun hold hzero => hi.runs ?_⟩
      · rw [State.abQtake_takes haccepts rd hold hline]
        have hgives := State.giveEntry_gives hcask p q e r rd
        exact runs_settled ⟨hgives.address, hgives.taken, hgives.queue, hgives.wentOn, hgives.others⟩
      · rw [State.abQtake_polls haccepts rd hold hone]
        refine runs_settled ⟨?_, s.retireX_wentOn p r rd 0⟩
        split
        next h0 => rw [State.ctx_retireX, h0]; rfl
        next h0 => exact s.rx_retireX_same p r 4 0 h0
      · rw [State.abQtake_waits haccepts rd hold hzero]
        refine runs_settled ⟨by rw [State.ctx_block], ?_⟩
        rw [State.queue_congr (State.onlyCores_block _ _ _).queues, State.queue_modQueue_same]
    · have hid := Part.id_of_queueDef? hdef
      rw [State.abQput_posts hq hid.symm (by rwa [hid]) hlow hhigh hsource hroom hline rd]
      obtain ⟨hqueue, hrx, hpc, -⟩ := State.putEntry_posts (r := r) hfree (s.ctxRead p r.core ((s.ctx r).rx rs2).toNat q.bytes) rd
      exact runs_settled ⟨by rw [hqueue], hrx, hpc⟩
    · rw [State.abQrel_releases hloads hfind]
      obtain ⟨hwent, hothers, honly⟩ := ((StaysAt.refl (s.modQueue p.num e.queue (·.release e.slot)) r).modCtx
        (f := fun c => { c with taken := c.taken.filter (· != e) }) rfl rfl).retire p
      refine runs_settled ⟨by rw [State.queue_congr honly.queues, State.queue_modQueue_same], ?_, hwent, hothers⟩
      rw [State.retire, State.ctx_retireTo, State.ctx_modCtx_same]
      rfl
  · intro part queue hpart hdef
    have hid := Part.id_of_queueDef? hdef
    rw [← hid] at hdef
    refine ⟨fun e r rest rd hold hline hrun hwait => ?_, fun r rest a rd n hline hroom hwait hfree => ?_⟩
    · rw [exec_abQtakeWake hpart, ← hid, State.qtakeWake_first hdef hold hline hrun hwait]
      have hgives := State.giveEntry_gives (s := s.modQueue p.num q.id fun v => { v with takers := v.takers.filter (· != r) }) hcask p q e r rd
      have hstill := hgives.st.trans hrun
      exact runs_settled ⟨State.wait_wake _ _, (State.taken_wake hstill).trans hgives.taken,
        fun hrd => ((State.wake_running hstill).1 rd).trans (hgives.address hrd)⟩
    · obtain ⟨b, hwake⟩ := State.qputWake_first hdef hline hroom hwait
      rw [exec_abQputWake hpart, ← hid, hwake]
      obtain ⟨hqueue, -, -⟩ := State.putEntry_posts (s := s.modQueue p.num q.id fun v => { v with posters := rest }) (r := r)
        (by rwa [State.queue_modQueue_same]) b rd
      rw [State.queue_modQueue_same, ← State.queue_congr (State.onlyCores_wake _ r).queues] at hqueue
      exact runs_settled ⟨by rw [hqueue]; rfl, by rw [hqueue], State.wait_wake _ _⟩

end Sys2Proof.Machine
end

section
/-! PROOFS. The statement of 07_general_cores about the exceptions of ECALL and EBREAK. -/
namespace Sys2Proof.Machine

variable {s t : State} {p : Part} {r : CtxRef}

/-! ### A report that nothing captures (R587, R589) -/

theorem State.stampOrZero_eq (s : State) : s.stampOrZero.2 = { s with time := s.stampOrZero.2.time } := by
  unfold State.stampOrZero
  split
  · exact s.takeStamp_eq
  · rfl

/-- A record of the log is counted in its class, and moves the log, the clock and what leaves the node. -/
theorem State.logRecord_eq (s : State) (rep : Report) :
    (s.logRecord rep).2 = { s with time := (s.logRecord rep).2.time, flt := (s.logRecord rep).2.flt, out := (s.logRecord rep).2.out } ∧
      (s.logRecord rep).2.errCount rep.cls = s.errCount rep.cls + 1 := by
  have hcount : (s.flt.classCnt.modify 0 rep.cls (· + 1)).get 0 rep.cls = s.errCount rep.cls + 1 := SMap.get_set_same _ _ _
  have hstamp := s.stampOrZero_eq
  unfold State.logRecord
  dsimp only
  rw [hstamp]
  repeat' split
  all_goals exact ⟨rfl, hcount⟩

/-- Only the log, the clock and what leaves the node differ. -/
def OnlyReports (s t : State) : Prop := t = { s with time := t.time, flt := t.flt, out := t.out }

section OnlyReports
variable (h : OnlyReports s t)
include h

theorem OnlyReports.cores : t.cores = s.cores := by rw [h]

theorem OnlyReports.queues : t.queues = s.queues := by rw [h]

theorem OnlyReports.req : t.req = s.req := by rw [h]

end OnlyReports

theorem State.report_idle (h : s.cask.state = 0) (rep : Report) :
    OnlyReports s (s.report rep) ∧ (s.report rep).errCount rep.cls = s.errCount rep.cls + 1 := by
  obtain ⟨honly, hcount⟩ := s.logRecord_eq rep
  have hcask : (s.logRecord rep).2.cask.state = 0 := by rwa [honly]
  have hreport : s.report rep = (s.logRecord rep).2 := by
    obtain heq | ⟨b, heq⟩ := s.report_eq rep
    · exact heq
    · rw [heq, State.caskEvent, State.caskRec_idle hcask]
  rw [hreport]
  exact ⟨honly, hcount⟩

/-! ### The restart of a context (R244, R268–R270) -/

/-- A context that does nothing but run: it is ready, and holds no request, entry or slot. -/
structure Ctx.Unladen (c : Ctx) : Prop where
  wait : c.wait = .ready
  held : c.held = none
  taken : c.taken = []
  slot : c.slot = none

/-- A context leaves the line for a vector slot. -/
def State.leaveSlotLine (s : State) (r : CtxRef) : State :=
  s.setCore r.core { s.core r.core with slotWait := (s.core r.core).slotWait.filter (· != r.ctx) }

@[simp] theorem State.ctx_leaveSlotLine (s : State) (r q : CtxRef) : (s.leaveSlotLine r).ctx q = s.ctx q := State.ctx_setCore_of_ctxs (by rfl) q

theorem State.onlyCores_leaveSlotLine (s : State) (r : CtxRef) : OnlyCores s (s.leaveSlotLine r) := rfl

theorem State.st_leaveSlotLine (s : State) (r : CtxRef) : ((s.leaveSlotLine r).core r.core).st = (s.core r.core).st := by
  rw [State.leaveSlotLine, State.core_setCore_same]

/-- A context that holds nothing has nothing to give up but its place in the line for a slot. -/
theorem State.giveUp_unladen (h : (s.ctx r).Unladen) (p : Part) :
    ((s.unwait p r).freeSlotOf r).releaseTaken p r = (s.leaveSlotLine r).modCtx r fun c => { c with taken := [] } := by
  have hunwait : s.unwait p r = s.leaveSlotLine r := by simp [State.unwait, h.wait, State.leaveSlotLine]
  have hfree : (s.leaveSlotLine r).freeSlotOf r = s.leaveSlotLine r := by simp [State.freeSlotOf, h.slot]
  rw [hunwait, hfree, State.releaseTaken, State.ctx_leaveSlotLine, h.taken, List.foldl_nil]

/-- What the first exception of a context leaves of its history: counted, its time kept, no reservation. -/
def Ctx.faulted (c : Ctx) (now : Nat) : Ctx := { c with taken := [], resv := none, faults := if c.faults == 255 then 255 else c.faults + 1, faultAt := [now] }

/-- The record of an exception. -/
def State.trapReport (s : State) (p : Part) (r : CtxRef) (cause tval : Nat) : Report :=
  { cls := 0x06, part := p.num, kind := 1, unit := r.core, loc := (s.ctx r).pc.toNat, tag := (s.ctx r).tenant.toNat,
    detail := cause % 256 + 256 * r.ctx.val + (tval * 4096) % 2 ^ 64, action := 0 + s.actionBits s }

/-- Where a context starts, and what it keeps of its faults. -/
theorem Part.entryCtx_starts (p : Part) (r : CtxRef) (g : Program) (old : Ctx) (now : Nat) :
    (p.entryCtx r g old now).pc = BitVec.ofNat 64 (0x400000 + p.codeOff (tileOf r.core) g.id + g.entry) ∧ (p.entryCtx r g old now).wait = .ready ∧
      (p.entryCtx r g old now).resv = none ∧ (p.entryCtx r g old now).faults = old.faults ∧ (p.entryCtx r g old now).faultAt = old.faultAt :=
  ⟨rfl, rfl, rfl, rfl, rfl⟩

theorem Part.isReady_entryCtx (p : Part) (r : CtxRef) (g : Program) (old : Ctx) (now : Nat) : (p.entryCtx r g old now).isReady = true := rfl

theorem State.trap_restarts {g : Program} (hg : p.ctxProg r = some g) (h : (s.ctx r).Unladen) (hfresh : (s.ctx r).faultAt = [])
    (hrun : (s.core r.core).st = .running) (hcask : s.cask.state = 0) {cause tval : Nat}
    (ht : s.report (s.trapReport p r cause tval) = t) :
    s.trap p r cause tval = ((t.leaveSlotLine r).modCtx r fun c => { c with taken := [] }).modCtx r
      fun _ => p.entryCtx r g ((s.ctx r).faulted t.rack) t.time.up := by
  obtain ⟨honly, -⟩ := State.report_idle hcask (s.trapReport p r cause tval)
  rw [ht] at honly
  have hcores : t.cores = s.cores := honly.cores
  have hctx : t.ctx r = s.ctx r := State.ctx_congr hcores r
  have hgive := State.giveUp_unladen (s := t) (by rwa [hctx]) p
  have hst : (((t.leaveSlotLine r).modCtx r fun c => { c with taken := [] }).core r.core).st = .running := by
    rw [State.st_modCtx, State.st_leaveSlotLine, State.core_congr hcores, hrun]
  have hrecent : ∀ now : Nat, [now].filter (fun x => decide (x + 1000000000 > now)) = [now] := fun now => by simp
  have hfew : ∀ now : Nat, ([now].length ≥ 8) = False := fun now => eq_false (by simp)
  unfold State.trapReport at ht
  simp only [State.trap, State.reportThen, h.held, ht, hgive, hfresh, hg, hst, Ctx.divert_running, State.ctx_modCtx_same, State.ctx_leaveSlotLine, hctx,
    hrecent, hfew, if_false, Part.isReady_entryCtx, if_true]
  rfl

theorem runs_trap {g : Program} (hg : p.ctxProg r = some g) (h : (s.ctx r).Unladen) (hfresh : (s.ctx r).faultAt = [])
    (hrun : (s.core r.core).st = .running) (hcask : s.cask.state = 0) (cause tval : Nat) :
    Runs (settled (s.trap p r cause tval)) fun u =>
      (u.ctx r).pc = BitVec.ofNat 64 (0x400000 + p.codeOff (tileOf r.core) g.id + g.entry) ∧ (u.ctx r).wait = .ready ∧ (u.ctx r).resv = none ∧
        (u.ctx r).faults = (if (s.ctx r).faults = 255 then 255 else (s.ctx r).faults + 1) ∧ (u.ctx r).faultAt.length = 1 ∧
        u.errCount 0x06 = s.errCount 0x06 + 1 ∧ OthersStay s u r ∧ u.queues = s.queues ∧ u.req = s.req := by
  obtain ⟨honly, hcount⟩ := State.report_idle hcask (s.trapReport p r cause tval)
  have hrestart := State.trap_restarts hg h hfresh hrun hcask (cause := cause) (tval := tval) rfl
  generalize s.report (s.trapReport p r cause tval) = t at *
  have hothers : OthersStay s (t.leaveSlotLine r) r := fun q _ => (t.ctx_leaveSlotLine r q).trans (State.ctx_congr honly.cores q)
  have hcores := ((t.onlyCores_leaveSlotLine r).modCtx r fun c => { c with taken := [] }).modCtx r
    fun _ => p.entryCtx r g ((s.ctx r).faulted t.rack) t.time.up
  obtain ⟨hpc, hwait, hresv, hfaults, htimes⟩ := p.entryCtx_starts r g ((s.ctx r).faulted t.rack) t.time.up
  rw [hrestart]
  refine runs_settled ⟨?_, ?_, ?_, ?_, ?_, (hcores.errCount 0x06).trans hcount, (hothers.modCtx _).modCtx _, ?_, ?_⟩
  · rw [State.ctx_modCtx_same, hpc]
  · rw [State.ctx_modCtx_same, hwait]
  · rw [State.ctx_modCtx_same, hresv]
  · rw [State.ctx_modCtx_same, hfaults]
    simp [Ctx.faulted]
  · rw [State.ctx_modCtx_same, htimes]
    rfl
  · exact hcores.queues.trans honly.queues
  · exact hcores.req.trans honly.req

/-- Settles O29: both are exceptions of a context that holds nothing, and its first one restarts it. -/
theorem contextExceptionsRestart : Obligations.ContextExceptionsRestart := by
  intro s core p r hi hq g hg hheld htaken hslot hfresh hrun after
  obtain ⟨hcore, -, hready⟩ := hi.current
  have hunladen : (s.ctx r).Unladen := ⟨by simpa [Ctx.isReady] using hready, hheld, htaken, hslot⟩
  rw [← hcore] at hrun
  have htrap := fun cause tval => runs_trap hg hunladen hfresh hrun hq.2.2 cause tval
  rw [hcore] at htrap
  exact ⟨hi.runs (htrap 8 0), hi.runs (htrap 3 (s.ctx r).pc.toNat)⟩

end Sys2Proof.Machine
end

section
/-! SUPPORT. The matrix engine: what it takes, how a phase before the last chunk ends, its completion, and its control register (R282–R314). -/
namespace Sys2Proof.Machine

variable {s : State} {tile : Nat}

/-! ### Reads after writes of an engine -/

@[simp] theorem State.mtx_modMtxCmd_same (s : State) (t : Nat) (f : MtxCmd → MtxCmd) :
    (s.modMtxCmd t f).mtx t = { s.mtx t with cmd := (s.mtx t).cmd.map f } := by
  rw [State.modMtxCmd, State.mtx_modMtx_same]

theorem State.mtx_congr {u : State} (h : u.matrix = s.matrix) (t : Nat) : u.mtx t = s.mtx t := by rw [State.mtx, h, State.mtx]

@[simp] theorem State.takeFree_units (s : State) : s.takeFree.2.SameUnits s := ⟨rfl, rfl, rfl, rfl⟩

@[simp] theorem State.chargeMacs_units (s : State) (tag : BitVec 9) (part n : Nat) : (s.chargeMacs tag part n).SameUnits s := ⟨rfl, rfl, rfl, rfl⟩

/-- A post writes a slot and its queue's list, and no engine. -/
theorem State.matrix_post (s : State) (p : Part) (q : QueueDef) (b : Bytes) (tag : BitVec 9) (req : Option Nat) (std : Option StdWork) :
    (s.post p q b tag req std).matrix = s.matrix := by
  unfold State.post
  dsimp only
  split
  · rfl
  next n _ => exact (s.slotWrite_units p q n _).matrix

/-! ### The start of a phase (R283, R284, R314) -/

/-- A paused engine starts no phase. -/
theorem State.startPhase_paused (h : (s.mtx tile).pause = true) : s.startPhase tile = s := by
  unfold State.startPhase
  split
  · rfl
  · exact if_pos (by simp [h])

/-- Past the first chunk a phase starts, or waits, with the arrays that serve its group; nothing else of the engine changes. -/
theorem State.mtx_startPhase_of_chunk {c : MtxCmd} (hcmd : (s.mtx tile).cmd = some c) (hchunk : c.chunk ≠ 0) :
    ∃ on, (s.startPhase tile).mtx tile = { s.mtx tile with cmd := some { c with running := on } } := by
  have hlater : (c.chunk != 0) = true := by simpa using hchunk
  simp only [State.startPhase, hcmd, hlater, if_true]
  split
  · exact ⟨c.running, by rw [← hcmd]⟩
  · exact ⟨true, by rw [State.mtx_modMtxCmd_same, hcmd, Option.map_some]⟩

/-! ### Taking a descriptor (R289, R297, R298) -/

theorem State.matrixTake_of_ok {want : Nat → Bool} {p : Part} {q : QueueDef} {e e' : QEntry} {b : Bytes} {s' : State}
    (hidle : (s.mtx tile).cmd = none) (hpause : (s.mtx tile).pause = false) (hon : ∃ a < 4, s.arrayEnabled tile a = true)
    (hqueue : lowestQueue (s.engineQueues 7 tile fun t => (List.range 4).any (s.arrayEnabled t)) = some (p, q))
    (holdest : (s.queue p.num q.id).oldest = some e) (hwant : want (fieldAt (s.slotRead p q e.slot) 0 1) = true)
    (htake : s.unitTake p q = some (e', b, s')) (hok : matrixOk p tile (b.take 128) = true) :
    s.matrixTake tile want =
      (s'.modMtx tile fun m => { m with cmd := some { part := p.num, desc := b.take 128, tag := e'.tag } }).startPhase tile := by
  have hany : (List.range 4).any (s.arrayEnabled tile) = true := by simpa using hon
  have hserve : ¬ ((s.mtx tile).cmd.isSome || (s.mtx tile).pause || !(List.range 4).any (s.arrayEnabled tile)) = true := by
    simp only [hidle, hpause, hany]
    decide
  simp only [State.matrixTake, if_neg hserve, hqueue, holdest, hwant, htake, hok, Bool.not_true, Bool.false_eq_true, if_false, if_true]

/-! ### The end of a phase (R283) -/

/-- The products' places along K that the running phase multiplies. -/
def MtxCmd.places (c : MtxCmd) : List Nat :=
  (List.range (parseM c.desc).kappa).filterMap fun i =>
    if (parseM c.desc).kappa * c.chunk + i < (parseM c.desc).k then some ((parseM c.desc).kappa * c.chunk + i) else none

/-- MACs of the running phase: a product for each token, output and place. -/
def MtxCmd.phaseMacs (c : MtxCmd) : Nat :=
  (parseM c.desc).tokens c.tb * ((parseM c.desc).outs c.nb c.serving.length).length * c.places.length

/-- The descriptor when the next chunk is to be multiplied. -/
def MtxCmd.nextChunk (c : MtxCmd) (acc : SMap Nat) : MtxCmd :=
  { c with acc := acc, macs := c.macs + c.phaseMacs, running := false, chunk := c.chunk + 1 }

/-- The state once a phase's operand reads are charged (R510) and its free cycle count is drawn. -/
def State.chargePhase (s : State) (p : Part) (tile : Nat) (c : MtxCmd) : State :=
  s.takeFree.2.charge c.tag p.num 2 (phaseUnits tile (parseM c.desc) c c.places)

theorem State.matrix_chargePhase (s : State) (p : Part) (tile : Nat) (c : MtxCmd) : (s.chargePhase p tile c).matrix = s.matrix :=
  (s.takeFree.2.charge_units _ _ _ _).matrix

section Phase
variable {c : MtxCmd} {p : Part} (hcmd : (s.mtx tile).cmd = some c) (hpart : s.part? c.part = some p) (hrun : c.running = true)
  (hstatus : c.status = none) (hgood : s.phaseBad p tile (parseM c.desc) c c.places = false) (hmore : c.chunk + 1 < (parseM c.desc).chunks)
include hcmd hpart hrun hstatus hgood hmore

/-- A phase before the last chunk leaves its sums and counts its MACs, and the next chunk's phase may start; the cycles it took are free. -/
theorem State.phaseEnd_eq :
    ∃ (u : State) (busy : BitVec 32), s.phaseEnd tile = u.startPhase tile ∧ u.mtx tile =
      { s.mtx tile with cmd := some (c.nextChunk (s.phaseSums p tile (parseM c.desc) c c.places)),
                        macCnt := (s.mtx tile).macCnt + BitVec.ofNat 64 c.phaseMacs, busyCyc := (s.mtx tile).busyCyc + busy } := by
  have hruns : ¬ (!c.running || c.status.isSome) = true := by simp [hrun, hstatus]
  have hreads : ¬ s.phaseBad p tile (parseM c.desc) c c.places = true := by simp [hgood]
  have heq : s.phaseEnd tile =
      ((((s.chargePhase p tile c).modMtx tile fun m =>
        { m with macCnt := m.macCnt + BitVec.ofNat 64 c.phaseMacs, busyCyc := m.busyCyc + s.takeFree.1.setWidth 32 }).modMtxCmd tile fun x =>
        { x with acc := s.phaseSums p tile (parseM c.desc) c c.places, macs := x.macs + c.phaseMacs, running := false }).modMtxCmd tile fun x =>
        { x with chunk := x.chunk + 1 }).startPhase tile := by
    unfold MtxCmd.places at hreads
    simp only [State.phaseEnd, hcmd, hpart, if_neg hruns, if_neg hreads, if_pos hmore]
    rfl
  refine ⟨_, s.takeFree.1.setWidth 32, heq, ?_⟩
  simp only [State.mtx_modMtxCmd_same, State.mtx_modMtx_same, State.mtx_congr (s.matrix_chargePhase p tile c), hcmd]
  rfl

theorem State.phaseEnd_next :
    ∃ c', ((s.phaseEnd tile).mtx tile).cmd = some c' ∧ c'.chunk = c.chunk + 1 ∧ c'.acc = s.phaseSums p tile (parseM c.desc) c c.places ∧
      c'.desc = c.desc ∧ c'.macs = c.macs + c.phaseMacs ∧
      ((s.phaseEnd tile).mtx tile).macCnt = (s.mtx tile).macCnt + BitVec.ofNat 64 c.phaseMacs := by
  obtain ⟨u, busy, heq, hu⟩ := State.phaseEnd_eq hcmd hpart hrun hstatus hgood hmore
  obtain ⟨on, hmtx⟩ := State.mtx_startPhase_of_chunk (congrArg Mtx.cmd hu) (Nat.succ_ne_zero c.chunk)
  rw [heq, hmtx, hu]
  exact ⟨_, rfl, rfl, rfl, rfl, rfl, rfl⟩

end Phase

/-! ### Completions (R298, R299, R302) -/

/-- The engine after a descriptor with status 0: free, and the descriptor counted with its cycles, which are free values. -/
def Mtx.completed (m : Mtx) (busy stall hold : BitVec 32) : Mtx :=
  { m with cmd := none, descCnt := m.descCnt + 1, busyCyc := m.busyCyc + busy, stallCyc := m.stallCyc + stall, holdCyc := m.holdCyc + hold }

section Complete
variable {c : MtxCmd} {p : Part} {q : QueueDef} (hcmd : (s.mtx tile).cmd = some c) (hstatus : c.status = some 0) (hpart : s.part? c.part = some p)
  (hqueue : p.queueDef? (parseM c.desc).queue = some q) (hkind : q.kind = 3) (hbytes : 32 ≤ q.bytes) (hroom : s.queueFull p.num q = false)
include hcmd hstatus hpart hqueue hkind hbytes hroom

theorem State.matrixComplete_eq : ∃ (u : State) (b : Bytes) (macs : Nat) (busy stall hold : BitVec 32), u.SameUnits s ∧ s.matrixComplete tile =
    ((u.post p q b c.tag none none).chargeMacs c.tag p.num macs).modMtx tile (Mtx.completed · busy stall hold) := by
  have hq : (p.queueDef? (parseM c.desc).queue).filter (fun q => q.kind == 3 && decide (q.bytes ≥ 32)) = some q := by
    simp [hqueue, Option.filter, hkind, hbytes]
  simp only [State.matrixComplete, hcmd, hstatus, hpart, hq, Option.any_some, hroom, Bool.false_eq_true, if_false]
  exact ⟨s.takeFree.2.takeFree.2.takeFree.2.takeFree.2, _, _, _, _, _, by simp, rfl⟩

theorem State.matrixComplete_posts {n : Nat} (hfree : freeSlot ((s.queue p.num q.id).entries.map (·.slot)) q.size = some n) :
    (∃ busy stall hold, (s.matrixComplete tile).mtx tile = (s.mtx tile).completed busy stall hold) ∧
      ((s.matrixComplete tile).queue p.num q.id).entries =
        (s.queue p.num q.id).entries ++ [{ slot := n, tag := c.tag, req := none, std := none }] := by
  obtain ⟨u, b, macs, busy, stall, hold, hu, heq⟩ := State.matrixComplete_eq hcmd hstatus hpart hqueue hkind hbytes hroom
  rw [← State.queue_congr hu.queues] at hfree ⊢
  have hmatrix := (State.chargeMacs_units _ c.tag p.num macs).matrix.trans ((u.matrix_post p q b c.tag none none).trans hu.matrix)
  rw [heq]
  exact ⟨⟨busy, stall, hold, by rw [State.mtx_modMtx_same, State.mtx_congr hmatrix]⟩, (State.post_of_free hfree b c.tag none none).1⟩

end Complete

/-! ### MTX_CTRL.PAUSE (R313, R314) -/

theorem State.setMtxPause_true (s : State) (tile : Nat) : s.setMtxPause tile true = s.modMtx tile fun m => { m with pause := true } :=
  State.startPhase_paused (by rw [State.mtx_modMtx_same])

/-- PAUSE without FORCE sets PAUSE alone. -/
theorem State.wrMatrix_pause {on : Bool} (h : (s.mtx tile).pause ≠ on) : s.wrMatrix tile 0 (b2n on) = s.setMtxPause tile on := by
  have hforce (a : Nat) : (b2n on).testBit (1 + a) = false :=
    Nat.testBit_lt_two_pow (lt_of_lt_of_le (b2n_lt on) (Nat.pow_le_pow_right (by decide) (by omega)))
  simp only [State.wrMatrix, testBit_b2n_zero, beq_eq_false_iff_ne.2 h, hforce, Bool.false_eq_true, if_false]
  exact foldl_of_fixed fun _ _ => rfl

theorem exec_matrixPause (h : Live s) (path : RegPath) {tile : Fin 96} {on : Bool} (hp : (s.mtx tile).pause ≠ on) :
    exec (.matrixPause path tile on) s = settled (s.setMtxPause tile on) := by
  have hlt := b2n_lt on
  refine congrArg settled ?_
  rw [State.regVia_mtxCtrl h path tile.isLt (by omega), State.wrMatrix_pause hp]

end Sys2Proof.Machine
end

section
/-! PROOFS. The statement of 08_matrix_engine. -/
namespace Sys2Proof.Machine

/-- Settles O32: each row of the engine runs as its own lemma says. -/
theorem matrixEngineServesItsQueue : Obligations.MatrixEngineServesItsQueue := by
  intro s tile
  refine ⟨fun p q e e' b s' hidle hpause hon hqueue holdest htake hok => ⟨fun hop => ?_, fun hop => ?_⟩,
    fun c p hcmd hpart hrun hstatus hgood hmore => ⟨s.phaseEnd tile, rfl, State.phaseEnd_next hcmd hpart hrun hstatus hgood hmore⟩,
    fun c p q n hcmd hstatus hpart hqueue hkind hbytes hroom hfree => ?_, fun path h hp => ?_⟩
  · exact ⟨_, congrArg settled (State.matrixTake_of_ok hidle hpause hon hqueue holdest (bne_iff_ne.2 hop) htake hok), rfl⟩
  · exact ⟨_, congrArg settled (State.matrixTake_of_ok hidle hpause hon hqueue holdest (beq_iff_eq.2 hop) htake hok), rfl⟩
  · obtain ⟨⟨busy, stall, hold, hmtx⟩, hentries⟩ := State.matrixComplete_posts hcmd hstatus hpart hqueue hkind hbytes hroom hfree
    refine ⟨s.matrixComplete tile, rfl, ?_, ?_, ?_, hentries⟩ <;> rw [hmtx] <;> rfl
  · exact ⟨_, exec_matrixPause h path (by rw [hp]; decide), s.setMtxPause_true tile⟩

end Sys2Proof.Machine
end

section
/-! SUPPORT. The scan order of entries, and what a scan of a list keeps, counts and sums (R359, R369). -/
namespace Sys2Proof.Machine

/-! ### The scan order (R359) -/

/-- `e` comes before `x` in scan order: the higher sum, and of equal ones the lower slot (R359). -/
abbrev ScanBefore (e x : Nat × Nat) : Prop := x.2 < e.2 ∨ e.2 = x.2 ∧ e.1 < x.1

theorem ScanBefore.irrefl (e : Nat × Nat) : ¬ ScanBefore e e := by
  unfold ScanBefore
  omega

theorem ScanBefore.trans {a b c : Nat × Nat} (h : ScanBefore a b) (h' : ScanBefore b c) : ScanBefore a c := by
  unfold ScanBefore at *
  omega

/-- Of two entries one comes before the other. -/
theorem scanBefore_iff_not {e f : Nat × Nat} (h : e ≠ f) : ScanBefore e f ↔ ¬ ScanBefore f e := by
  rw [ne_eq, Prod.ext_iff] at h
  unfold ScanBefore
  omega

theorem scanInsert_cons (e x : Nat × Nat) (r : List (Nat × Nat)) :
    scanInsert e (x :: r) = if ScanBefore e x then e :: x :: r else x :: scanInsert e r := by
  simp [scanInsert]

/-- Entering the scan order is the library's ordered insertion. -/
theorem scanInsert_eq_orderedInsert (e : Nat × Nat) (l : List (Nat × Nat)) : scanInsert e l = l.orderedInsert ScanBefore e := by
  induction l with
  | nil => rfl
  | cons x r ih => rw [scanInsert_cons, List.orderedInsert_cons, ih]

theorem scanInsert_perm (e : Nat × Nat) (l : List (Nat × Nat)) : (scanInsert e l).Perm (e :: l) := by
  rw [scanInsert_eq_orderedInsert]
  exact List.perm_orderedInsert _ e l

/-- Two insertions may change places. -/
theorem scanInsert_comm (e f : Nat × Nat) (l : List (Nat × Nat)) : scanInsert e (scanInsert f l) = scanInsert f (scanInsert e l) := by
  wlog h : ScanBefore e f generalizing e f
  · by_cases heq : e = f
    · rw [heq]
    · exact (this f e ((scanBefore_iff_not (Ne.symm heq)).2 h)).symm
  have hfe : ¬ ScanBefore f e := fun hfe => ScanBefore.irrefl e (h.trans hfe)
  induction l with
  | nil => simp [scanInsert_cons, scanInsert, h, hfe]
  | cons x r ih =>
    by_cases hf : ScanBefore f x
    · simp [scanInsert_cons, h, hfe, hf, h.trans hf]
    · by_cases he : ScanBefore e x <;> simp [scanInsert_cons, hfe, hf, he, ih]

/-- An entry that comes before none goes to the end. -/
theorem scanInsert_of_last {e : Nat × Nat} {l : List (Nat × Nat)} (h : ∀ x ∈ l, ¬ ScanBefore e x) : scanInsert e l = l ++ [e] := by
  induction l with
  | nil => rfl
  | cons x r ih =>
    obtain ⟨hx, hr⟩ := List.forall_mem_cons.1 h
    rw [scanInsert_cons, if_neg hx, ih hr, List.cons_append]

/-- What stands first after an insertion does not depend on what stood behind it. -/
theorem take_scanInsert_take (e : Nat × Nat) (l : List (Nat × Nat)) (c : Nat) : (scanInsert e (l.take c)).take c = (scanInsert e l).take c := by
  induction l generalizing c with
  | nil => simp
  | cons x r ih =>
    cases c with
    | zero => rfl
    | succ c =>
      rw [List.take_succ_cons, scanInsert_cons, scanInsert_cons]
      split
      · cases c with
        | zero => rfl
        | succ c => rw [List.take_succ_cons, List.take_succ_cons, List.take_succ_cons, List.take_succ_cons, List.take_take, Nat.min_eq_left (by omega)]
      · rw [List.take_succ_cons, List.take_succ_cons, ih]

theorem take_foldl_scanInsert_take (c : Nat) (m : List (Nat × Nat)) (l : List (Nat × Nat)) :
    (m.foldl (fun a x => scanInsert x a) (l.take c)).take c = (m.foldl (fun a x => scanInsert x a) l).take c := by
  induction m generalizing l with
  | nil => simp
  | cons e m ih => rw [List.foldl_cons, List.foldl_cons, ← ih (scanInsert e (l.take c)), take_scanInsert_take, ih]

/-! ### Lists in scan order -/

/-- The entries of a list in scan order. -/
def scanOrder (l : List (Nat × Nat)) : List (Nat × Nat) := l.foldl (fun a x => scanInsert x a) []

theorem scanOrder_append (l m : List (Nat × Nat)) : scanOrder (l ++ m) = m.foldl (fun a x => scanInsert x a) (scanOrder l) := List.foldl_append

@[simp] theorem scanOrder_concat (l : List (Nat × Nat)) (e : Nat × Nat) : scanOrder (l ++ [e]) = scanInsert e (scanOrder l) := scanOrder_append l [e]

theorem scanOrder_perm (l : List (Nat × Nat)) : (scanOrder l).Perm l := by
  induction l using List.reverseRecOn with
  | nil => rfl
  | append_singleton l e ih =>
    rw [scanOrder_concat]
    exact (scanInsert_perm e _).trans ((ih.cons e).trans (List.perm_append_singleton e l).symm)

@[simp] theorem length_scanOrder (l : List (Nat × Nat)) : (scanOrder l).length = l.length := (scanOrder_perm l).length_eq

/-- The scan order of entries does not depend on the order in which they came. -/
theorem scanOrder_congr {l m : List (Nat × Nat)} (h : l.Perm m) : scanOrder l = scanOrder m :=
  h.foldl_eq (rcomm := ⟨fun a e f => scanInsert_comm f e a⟩) []

/-- No entry of the list comes before an earlier one. -/
def ScanSorted (l : List (Nat × Nat)) : Prop := l.Pairwise fun x y => ¬ ScanBefore y x

theorem ScanSorted.scanInsert {l : List (Nat × Nat)} (h : ScanSorted l) (e : Nat × Nat) : ScanSorted (scanInsert e l) := by
  induction l with
  | nil => exact List.pairwise_singleton _ e
  | cons x r ih =>
    obtain ⟨hx, hr⟩ := List.pairwise_cons.1 h
    rw [scanInsert_cons]
    split
    · rename_i he
      have hlast : ∀ y ∈ x :: r, ¬ ScanBefore y e := fun y hy hbefore => by
        obtain rfl | hy := List.mem_cons.1 hy
        · unfold ScanBefore at he hbefore
          omega
        · exact hx y hy (hbefore.trans he)
      exact List.pairwise_cons.2 ⟨hlast, h⟩
    · rename_i he
      refine List.pairwise_cons.2 ⟨fun y hy => ?_, ih hr⟩
      obtain rfl | hy := List.mem_cons.1 ((scanInsert_perm e r).mem_iff.1 hy)
      · exact he
      · exact hx y hy

theorem scanSorted_scanOrder (l : List (Nat × Nat)) : ScanSorted (scanOrder l) := by
  induction l using List.reverseRecOn with
  | nil => exact List.Pairwise.nil
  | append_singleton l e ih => rw [scanOrder_concat]; exact ih.scanInsert e

theorem ScanSorted.scanOrder_eq {l : List (Nat × Nat)} (h : ScanSorted l) : scanOrder l = l := by
  induction l using List.reverseRecOn with
  | nil => rfl
  | append_singleton l e ih =>
    obtain ⟨hl, -, hlast⟩ := List.pairwise_append.1 h
    rw [scanOrder_concat, ih hl, scanInsert_of_last fun x hx => hlast x hx e (List.mem_singleton_self e)]

/-- The first entries of a list stand for all of it where only as many are kept. -/
theorem take_scanOrder_take_append (c : Nat) (l m : List (Nat × Nat)) :
    (scanOrder ((scanOrder l).take c ++ m)).take c = (scanOrder (l ++ m)).take c := by
  have hsorted : ScanSorted ((scanOrder l).take c) := (scanSorted_scanOrder l).sublist (List.take_sublist c _)
  rw [scanOrder_append, hsorted.scanOrder_eq, take_foldl_scanInsert_take, ← scanOrder_append]

/-- The first entries of two lists hold the first entries of both. -/
theorem take_scanOrder_takes (c : Nat) (l m : List (Nat × Nat)) :
    (scanOrder ((scanOrder l).take c ++ (scanOrder m).take c)).take c = (scanOrder (l ++ m)).take c := by
  rw [take_scanOrder_take_append, scanOrder_congr List.perm_append_comm, take_scanOrder_take_append, scanOrder_congr List.perm_append_comm]

/-! ### What a scan keeps, counts and sums (R359, R369) -/

/-- The sum of the scan sums of a list's entries. -/
def sumTotal (l : List (Nat × Nat)) : Nat := (l.map (·.2)).sum

theorem sumTotal_append (l m : List (Nat × Nat)) : sumTotal (l ++ m) = sumTotal l + sumTotal m := by simp [sumTotal]

theorem sumTotal_congr {l m : List (Nat × Nat)} (h : l.Perm m) : sumTotal l = sumTotal m := (h.map _).sum_eq

theorem sumTotal_take_add_drop (c : Nat) (l : List (Nat × Nat)) : sumTotal (l.take c) + sumTotal (l.drop c) = sumTotal l := by
  rw [← sumTotal_append, List.take_append_drop]

theorem offer_eq (c : Nat) (e : Nat × Nat) (l : List (Nat × Nat)) :
    offer c e l = ((scanInsert e l).take c, (scanInsert e l)[c]?.map (·.2)) := by
  rw [offer, List.head?_drop]

/-- An entry leaves a list that was full. -/
theorem offer_out_isSome (c : Nat) (e : Nat × Nat) (l : List (Nat × Nat)) : (offer c e l).2.isSome = decide (c ≤ l.length) := by
  have hlen := (scanInsert_perm e l).length_eq
  rw [Bool.eq_iff_iff, offer_eq, Option.isSome_map, isSome_getElem?, hlen, List.length_cons, decide_eq_true_eq]
  exact Nat.lt_succ_iff

/-- Nothing that is offered is lost: its sum is kept or leaves. -/
theorem offer_sumTotal {c : Nat} {l : List (Nat × Nat)} (h : l.length ≤ c) (e : Nat × Nat) :
    sumTotal (offer c e l).1 + (offer c e l).2.getD 0 = e.2 + sumTotal l := by
  have hlen := (scanInsert_perm e l).length_eq
  have hout : sumTotal ((scanInsert e l).drop c) = ((scanInsert e l)[c]?.map (·.2)).getD 0 := by
    rw [List.drop_eq_getElem?_toList_append, List.drop_eq_nil_of_le (by rw [hlen, List.length_cons]; omega)]
    cases (scanInsert e l)[c]? <;> simp [sumTotal]
  rw [offer_eq, ← hout, sumTotal_take_add_drop, sumTotal_congr (scanInsert_perm e l), sumTotal, List.map_cons, List.sum_cons, ← sumTotal]

/-- One entry offered to the list kept, the count discarded and the total of the sums discarded. -/
def offerStep (c : Nat) (a : List (Nat × Nat) × Nat × Nat) (x : Nat × Nat) : List (Nat × Nat) × Nat × Nat :=
  ((offer c x a.1).1, a.2.1 + (if (offer c x a.1).2.isSome then 1 else 0), a.2.2 + (offer c x a.1).2.getD 0)

/-- What a scan of `l` keeps, counts and sums. -/
def scanOffers (c : Nat) (l : List (Nat × Nat)) : List (Nat × Nat) × Nat × Nat := l.foldl (offerStep c) ([], 0, 0)

theorem scanOffers_concat (c : Nat) (l : List (Nat × Nat)) (e : Nat × Nat) : scanOffers c (l ++ [e]) = offerStep c (scanOffers c l) e :=
  List.foldl_append

theorem scanOffers_kept (c : Nat) (l : List (Nat × Nat)) : (scanOffers c l).1 = (scanOrder l).take c := by
  induction l using List.reverseRecOn with
  | nil => rw [scanOrder, List.foldl_nil, List.take_nil]; rfl
  | append_singleton l e ih => rw [scanOffers_concat, scanOrder_concat, offerStep, ih, offer_eq]; exact take_scanInsert_take e _ c

theorem scanOffers_length (c : Nat) (l : List (Nat × Nat)) : (scanOffers c l).1.length = min c l.length := by
  rw [scanOffers_kept, List.length_take, length_scanOrder]

theorem scanOffers_count (c : Nat) (l : List (Nat × Nat)) : (scanOffers c l).2.1 = l.length - c := by
  induction l using List.reverseRecOn with
  | nil => exact (Nat.zero_sub c).symm
  | append_singleton l e ih =>
    simp only [scanOffers_concat, offerStep, ih, offer_out_isSome, scanOffers_length, decide_eq_true_eq, List.length_append, List.length_singleton]
    split <;> omega

/-- What a scan keeps and what it discards is all there was. -/
theorem scanOffers_total (c : Nat) (l : List (Nat × Nat)) : sumTotal (scanOffers c l).1 + (scanOffers c l).2.2 = sumTotal l := by
  induction l using List.reverseRecOn with
  | nil => rfl
  | append_singleton l e ih =>
    have hstep := offer_sumTotal (c := c) (l := (scanOffers c l).1) (by rw [scanOffers_length]; omega) e
    have hend : sumTotal (l ++ [e]) = sumTotal l + e.2 := by simp [sumTotal]
    simp only [scanOffers_concat, offerStep, hend]
    omega

theorem scanOffers_sum (c : Nat) (l : List (Nat × Nat)) : (scanOffers c l).2.2 = sumTotal ((scanOrder l).drop c) := by
  have htotal := scanOffers_total c l
  have hparts := sumTotal_take_add_drop c (scanOrder l)
  rw [sumTotal_congr (scanOrder_perm l), ← scanOffers_kept] at hparts
  omega

theorem mergeRanges_pair {r q : ScanRange} {l m : List (Nat × Nat)} {d e n v d' e' n' v' : Nat} (c : Nat) (hr : r.result = some (l, d, e, n, v))
    (hq : q.result = some (m, d', e', n', v')) :
    mergeRanges c [r, q] = ((scanOrder (l ++ m)).take c, d + d', e + e', n + n' + ((scanOrder (l ++ m)).drop c).length,
      v + v' + sumTotal ((scanOrder (l ++ m)).drop c)) := by
  simp [mergeRanges, hr, hq, scanOrder, sumTotal]

/-- The merge of two ranges' scans is one scan of both (R369). -/
theorem mergeRanges_scanOffers {r q : ScanRange} {l m : List (Nat × Nat)} {d e d' e' : Nat} (c : Nat)
    (hr : r.result = some ((scanOffers c l).1, d, e, (scanOffers c l).2.1, (scanOffers c l).2.2))
    (hq : q.result = some ((scanOffers c m).1, d', e', (scanOffers c m).2.1, (scanOffers c m).2.2)) :
    mergeRanges c [r, q] = ((scanOffers c (l ++ m)).1, d + d', e + e', (scanOffers c (l ++ m)).2.1, (scanOffers c (l ++ m)).2.2) := by
  have hkept : (scanOrder ((scanOffers c l).1 ++ (scanOffers c m).1)).take c = (scanOffers c (l ++ m)).1 := by
    rw [scanOffers_kept, scanOffers_kept, scanOffers_kept, take_scanOrder_takes]
  have hsum : (scanOffers c l).2.2 + (scanOffers c m).2.2 + sumTotal ((scanOrder ((scanOffers c l).1 ++ (scanOffers c m).1)).drop c) =
      (scanOffers c (l ++ m)).2.2 := by
    have hboth := sumTotal_take_add_drop c (scanOrder ((scanOffers c l).1 ++ (scanOffers c m).1))
    rw [hkept, sumTotal_congr (scanOrder_perm _), sumTotal_append] at hboth
    have hl := scanOffers_total c l
    have hm := scanOffers_total c m
    have hlm := scanOffers_total c (l ++ m)
    rw [sumTotal_append] at hlm
    omega
  rw [mergeRanges_pair c hr hq, hkept, hsum, List.length_drop, length_scanOrder, List.length_append, scanOffers_length, scanOffers_length,
    scanOffers_count, scanOffers_count, scanOffers_count, List.length_append]
  congr 4
  omega

end Sys2Proof.Machine
end

section
/-! SUPPORT. The banks of a mash stack: reads after writes, the scores of a code, and the end of a chunk (R358–R361). -/
namespace Sys2Proof.Machine

variable {s : State} {k n : Nat}

/-! ### Reads after writes of a bank -/

@[simp] theorem State.bank_modBank_same (s : State) (k n : Nat) (f : Bank → Bank) : (s.modBank k n f).bank k n = f (s.bank k n) := by
  simp [State.modBank, State.bank, SMap.modify]

theorem State.bank_modBank_ne (f : Bank → Bank) {j : Nat} (h : j ≠ n) : (s.modBank k n f).bank k j = s.bank k j := by
  simp [State.modBank, State.bank, SMap.modify, h]

@[simp] theorem State.pause_modBank (s : State) (k n : Nat) (f : Bank → Bank) : ((s.modBank k n f).memCtl k).pause = (s.memCtl k).pause := by
  simp [State.modBank]

/-- Of stack `k` only bank `n` changed, and of the rest nothing but the stacks. -/
structure State.OnlyBank (k n : Nat) (u s : State) : Prop where
  banks : ∀ j, j ≠ n → u.bank k j = s.bank k j
  rest : u = { s with mem := u.mem }

theorem State.OnlyBank.trans {u t : State} (h : State.OnlyBank k n u t) (h' : State.OnlyBank k n t s) : State.OnlyBank k n u s where
  banks j hj := (h.banks j hj).trans (h'.banks j hj)
  rest := by rw [h.rest, h'.rest]

theorem State.modBank_only (s : State) (k n : Nat) (f : Bank → Bank) : State.OnlyBank k n (s.modBank k n f) s :=
  ⟨fun _ hj => State.bank_modBank_ne f hj, rfl⟩

/-! ### The end of a chunk (R359–R361) -/

/-- An entry is offered to the list that a bank holds; what leaves it is counted and summed (R359). -/
def Bank.offered (b : Bank) (e : Nat × Nat) : Bank :=
  match (offer b.c.toNat e b.cands).2 with
  | none => { b with cands := (offer b.c.toNat e b.cands).1 }
  | some v => { b with cands := (offer b.c.toNat e b.cands).1, dcount := b.dcount + 1, dsum := b.dsum + BitVec.ofNat 32 v }

theorem Bank.offered_cands (b : Bank) (e : Nat × Nat) : (b.offered e).cands = (offer b.c.toNat e b.cands).1 := by
  unfold Bank.offered
  split <;> rfl

theorem Bank.offered_dcount (b : Bank) (e : Nat × Nat) :
    (b.offered e).dcount = b.dcount + (if (offer b.c.toNat e b.cands).2.isSome then 1 else 0) := by
  unfold Bank.offered
  split
  · rename_i h
    rw [h]
    exact (BitVec.add_zero b.dcount).symm
  · rename_i h
    rw [h]
    rfl

/-- What waits for a bank: held accesses, a refresh and a command. -/
def Bank.waiting (b : Bank) : List HeldAccess × Bool × Option Nat := (b.held, b.refresh, b.cmd)

theorem Bank.waiting_iff {b : Bank} {held : List HeldAccess} {due : Bool} {cmd : Option Nat} :
    b.waiting = (held, due, cmd) ↔ b.held = held ∧ b.refresh = due ∧ b.cmd = cmd := by
  simp [Bank.waiting]

theorem Bank.offered_waiting (b : Bank) (e : Nat × Nat) : (b.offered e).waiting = b.waiting := by
  unfold Bank.offered
  split <;> rfl

/-- Code `i` of a bank's range as an entry: its slot and its scan sum. -/
def State.codeEntry (s : State) (k n : Nat) (b : Bank) (i : Nat) : Nat × Nat :=
  (b.first.toNat + i, scanSum b.layout.toNat b.lut (s.locRead (.dram k (n * 100663296 + b.start.toNat + 6 * i)) 6))

/-- Where no unit is bad, a code is skipped as the dead map says, or offered. -/
theorem State.scoreCode_good (s : State) (k n : Nat) (b : Bank) (i : Nat) : s.scoreCode k n [] none b i =
    if bitOf (nth b.deadMap (i / 8) 0).toNat (i % 8) then { b with dead := b.dead + 1 } else b.offered (s.codeEntry k n b i) := by
  have hread : (codeUnits n b.start.toNat i).any ([] : List Nat).contains = false := List.any_eq_false.2 fun _ _ => by simp
  unfold State.scoreCode
  split
  · rfl
  · simp only [hread, Bool.false_eq_true, if_false]
    rfl

theorem State.scoreCode_waiting (s : State) (k n : Nat) (b : Bank) (i : Nat) : (s.scoreCode k n [] none b i).waiting = b.waiting := by
  rw [State.scoreCode_good]
  split
  · rfl
  · exact b.offered_waiting _

/-- The end of a chunk of bank `b` whose scores are `scored` (R361). -/
def Bank.chunkOver (b scored : Bank) : Bank :=
  { scored with
    chunk := b.chunk + 1
    state := if b.aborting then 4 else if 512 * (b.chunk.toNat + 1) ≥ b.count.toNat then 3 else 2
    aborting := false }

theorem Bank.chunkOver_waiting (b scored : Bank) : (b.chunkOver scored).waiting = scored.waiting := rfl

/-- What the running chunk of bank `n` leaves in it, where no unit is bad and it serves no command. -/
def State.chunkScored (s : State) (k n : Nat) : Bank :=
  let b := s.bank k n
  b.chunkOver ((chunkCodes b.count.toNat b.chunk.toNat).foldl (s.scoreCode k n [] none) b)

theorem State.chunkScored_waiting (s : State) (k n : Nat) : (s.chunkScored k n).waiting = (s.bank k n).waiting := by
  rw [State.chunkScored, Bank.chunkOver_waiting, foldl_keeps Bank.waiting (s.scoreCode_waiting k n)]

/-- With no unit bad and no command served, the codes are scored and no error is reported. -/
theorem State.scoreChunk_eq (hcmd : (s.bank k n).cmd = none) (hbad : (s.memCtl k).bad = []) :
    s.scoreChunk k n = s.modBank k n fun _ => s.chunkScored k n := by
  have hhit (l : List Nat) (f : Nat → List Nat) : (l.flatMap fun i => (f i).filter ([] : List Nat).contains).eraseDups = [] := by
    rw [List.flatMap_eq_nil_iff.2 fun _ _ => List.filter_eq_nil_iff.2 fun _ _ => by simp]
    rfl
  have htold : s.toldSlots k n = none := by rw [State.toldSlots, hcmd]
  unfold State.scoreChunk State.chunkScored
  rw [hbad, htold]
  generalize chunkCodes _ _ = l
  simp only [hhit, List.foldl_nil]
  rfl

theorem State.serveHeld_nil (h : (s.bank k n).held = []) : s.serveHeld k n = s.modBank k n fun b => { b with held := [] } := by
  rw [State.serveHeld, h, List.foldl_nil]

theorem State.bankDone_of_idle (h : (s.bank k n).cmd = none) : s.bankDone k n = s := by
  rw [State.bankDone, h]

theorem State.chunkEnd_of_idle (h : (s.bank k n).state ≠ 1) : s.chunkEnd k n = s := by
  rw [State.chunkEnd, if_pos (bne_iff_ne.2 h)]

/-- A bank that no access, refresh or command waits for ends its chunk as scored, and goes on unless the stack is paused (R361, R380). -/
theorem State.chunkEnd_eq (hrun : (s.bank k n).state = 1) (hwait : (s.bank k n).waiting = ([], false, none)) (hbad : (s.memCtl k).bad = []) :
    s.chunkEnd k n =
      let t := (s.modBank k n fun _ => s.chunkScored k n).modBank k n fun b => { b with held := [] }
      if (s.chunkScored k n).state == 2 && !(s.memCtl k).pause then t.modBank k n Bank.continueOp else t := by
  obtain ⟨hheld', href', hcmd'⟩ := Bank.waiting_iff.1 ((s.chunkScored_waiting k n).trans hwait)
  obtain ⟨-, -, hcmd⟩ := Bank.waiting_iff.1 hwait
  rw [State.chunkEnd, hrun, State.scoreChunk_eq hcmd hbad]
  simp only [State.bank_modBank_same, href', bne_self_eq_false, Bool.false_eq_true, if_false]
  rw [State.serveHeld_nil (by rw [State.bank_modBank_same, hheld']),
    State.bankDone_of_idle (by rw [State.bank_modBank_same, State.bank_modBank_same, hcmd'])]
  simp only [State.bank_modBank_same, State.pause_modBank]

theorem State.chunkEnd_only (hrun : (s.bank k n).state = 1) (hwait : (s.bank k n).waiting = ([], false, none)) (hbad : (s.memCtl k).bad = []) :
    State.OnlyBank k n (s.chunkEnd k n) s := by
  have hserved := ((s.modBank k n fun _ => s.chunkScored k n).modBank_only k n fun b => { b with held := [] }).trans (s.modBank_only k n _)
  rw [State.chunkEnd_eq hrun hwait hbad]
  dsimp only
  split
  · exact (State.modBank_only _ k n _).trans hserved
  · exact hserved

/-- A bank whose chunk ended is stopped, done, or goes on unless the stack is paused (R361, R380). -/
theorem Bank.chunkOver_next (b scored : Bank) (paused : Bool) :
    (if (b.chunkOver scored).state == 2 && !paused then (b.chunkOver scored).continueOp else b.chunkOver scored) =
      { scored with
        chunk := b.chunk + 1
        aborting := false
        state := if b.aborting then 4 else if 512 * (b.chunk.toNat + 1) ≥ b.count.toNat then 3 else if paused then 2 else 1 } := by
  unfold Bank.continueOp Bank.chunkOver
  by_cases habort : b.aborting = true
  · simp [habort]
  · by_cases hdone : 512 * (b.chunk.toNat + 1) ≥ b.count.toNat
    · simp [habort, hdone]
    · cases paused <;> simp [habort, hdone]

theorem State.bank_chunkEnd (hrun : (s.bank k n).state = 1) (hwait : (s.bank k n).waiting = ([], false, none)) (hbad : (s.memCtl k).bad = []) :
    (s.chunkEnd k n).bank k n = let b := s.bank k n
      { (chunkCodes b.count.toNat b.chunk.toNat).foldl (s.scoreCode k n [] none) b with
        chunk := b.chunk + 1
        aborting := false
        state := if b.aborting then 4 else if 512 * (b.chunk.toNat + 1) ≥ b.count.toNat then 3 else if (s.memCtl k).pause then 2 else 1 } := by
  obtain ⟨hheld, -, -⟩ := Bank.waiting_iff.1 ((s.chunkScored_waiting k n).trans hwait)
  have hserved : { s.chunkScored k n with held := [] } = s.chunkScored k n := by rw [← hheld]
  rw [State.chunkEnd_eq hrun hwait hbad]
  dsimp only
  rw [apply_ite fun u : State => u.bank k n, State.bank_modBank_same, State.bank_modBank_same, State.bank_modBank_same, hserved]
  exact Bank.chunkOver_next _ _ _

end Sys2Proof.Machine
end

section
/-! PROOFS. The statement of 10_memory_and_mash_stacks about the end of a chunk and the scan order. -/
namespace Sys2Proof.Machine

/-- Settles O40: a chunk that nothing waits for ends as `State.bank_chunkEnd` says, and lists in scan order are what their entries leave in any order. -/
theorem chunksScoreTheirCodes : Obligations.ChunksScoreTheirCodes := by
  refine ⟨fun s mash bank => ⟨fun hidle => ?_, fun hrun hheld href hcmd hbad => ?_⟩, fun s k n b i => ⟨fun hdead => ?_, fun hlive => ?_⟩,
    fun c es fs r q d e d' e' => ⟨scanOffers_kept c es, scanOffers_count c es, scanOffers_sum c es, mergeRanges_scanOffers c⟩⟩
  · exact runs_settled (State.chunkEnd_of_idle hidle)
  · have hwait : (s.bank (8 + mash.val) bank).waiting = ([], false, none) := Bank.waiting_iff.2 ⟨hheld, href, hcmd⟩
    have honly := State.chunkEnd_only hrun hwait hbad
    exact runs_settled ⟨State.bank_chunkEnd hrun hwait hbad, honly.banks, honly.rest⟩
  · rw [State.scoreCode_good, if_pos hdead]
  · rw [State.scoreCode_good, if_neg (by rw [hlive]; decide)]
    exact ⟨b.offered_cands _, b.offered_dcount _⟩

end Sys2Proof.Machine
end

section
/-! SUPPORT. The control register of a mash stack (R380). -/
namespace Sys2Proof.Machine

variable {s : State} {k : Nat}

/-- The windows of the stack controllers (R574). -/
theorem windowBlock_memAt {o : Nat} (hk : k < 16) (ho : o < 65536) : windowBlock (memAt k o) = some (.memory k) := by
  have hw : memAt k o / 65536 = 32 + k := by unfold memAt; omega
  simp only [windowBlock, hw]
  iterate 6 rw [if_neg (by omega)]
  rw [if_pos (by omega), Nat.add_sub_cancel_left]

/-- A live node performs the write of MSH_CTRL, unrecorded, as its block's write (R11, R380, R608). -/
theorem State.regVia_mshCtrl (h : Live s) (path : RegPath) (hk : k < 16) {v : Nat} (hv : v < 2 ^ 14) :
    s.regVia path (memAt k 0x40) v = s.wrMemory k 0x40 v := by
  have hoff : memAt k 0x40 % 65536 / 4 * 4 = 0x40 := by unfold memAt; omega
  rw [State.regVia, State.spaceWrite, State.viaReg_live h]
  change s.regWrite (memAt k 0x40) _ {} = _
  rw [State.regWrite_block (windowBlock_memAt hk (by decide)), hoff, BitVec.toNat_ofNat, Nat.mod_eq_of_lt (by omega)]
  rfl

/-- A write of PAUSE alone that changes it sets it so. -/
theorem State.wrMemory_pause {on : Bool} (h : (s.memCtl k).pause ≠ on) : s.wrMemory k 0x40 (b2n on) = s.setMshPause k on := by
  have hclr : (b2n on).testBit 1 = false := by cases on <;> rfl
  simp only [State.wrMemory, testBit_b2n_zero, beq_eq_false_iff_ne.2 h, hclr, Bool.false_eq_true, if_false]

/-- A write of HOLD_CLR with PAUSE as it stands clears the longest hold. -/
theorem State.wrMemory_holdClr (s : State) (k : Nat) :
    s.wrMemory k 0x40 (2 + b2n (s.memCtl k).pause) = s.modMem k fun m => { m with holdMax := 0 } := by
  have hpause (b : Bool) : (2 + b2n b).testBit 0 = b := by cases b <;> rfl
  have hclr (b : Bool) : (2 + b2n b).testBit 1 = true := by cases b <;> rfl
  simp only [State.wrMemory, hpause, hclr, beq_self_eq_true, if_true]

/-- PAUSE that is set stops nothing at once: the banks meet it at their chunk boundaries. -/
theorem State.setMshPause_true (s : State) (k : Nat) : s.setMshPause k true = s.modMem k fun m => { m with pause := true } := by
  rw [State.setMshPause, Bool.or_true, if_pos rfl]

section Rows
variable (h : Live s) (path : RegPath) {mash : Fin 8}
include h

theorem exec_mshPause {on : Bool} (hp : (s.memCtl (8 + mash.val)).pause ≠ on) :
    exec (.mshPause path mash on) s = settled (s.setMshPause (8 + mash.val) on) := by
  have hlt := b2n_lt on
  refine congrArg settled ?_
  rw [State.regVia_mshCtrl h path (by omega) (by omega), State.wrMemory_pause hp]

theorem exec_holdClr : exec (.holdClr path mash) s = settled (s.modMem (8 + mash.val) fun m => { m with holdMax := 0 }) := by
  have hlt := b2n_lt (s.memCtl (8 + mash.val)).pause
  refine congrArg settled ?_
  rw [State.regVia_mshCtrl h path (by omega) (by omega), State.wrMemory_holdClr]

end Rows

/-! ### START, CONTINUE and ABORT (R358) -/

theorem Bank.startOp_eq (b : Bank) : b.startOp = if b.state = 0 ∨ b.state = 3 ∨ b.state = 4 then
    { b with state := 1, chunk := 0, dead := 0, errors := 0, errSlots := [], dcount := 0, dsum := 0, cands := [], aborting := false } else b := by
  simp [Bank.startOp, or_assoc]

theorem Bank.continueOp_eq (b : Bank) : b.continueOp = if b.state = 2 then { b with state := 1 } else b := by
  simp [Bank.continueOp]

theorem Bank.abortOp_eq (b : Bank) : b.abortOp =
    if b.state = 1 then { b with aborting := true } else if b.state = 2 ∨ b.state = 3 then { b with state := 4 } else b := by
  simp [Bank.abortOp]

/-- A row that changes one bank leaves it as the change says, every other bank, and the rest. -/
theorem runs_modBank (s : State) (k n : Nat) {f : Bank → Bank} {v : Bank} (h : f (s.bank k n) = v) :
    Runs (settled (s.modBank k n f)) fun u =>
      u.bank k n = v ∧ (∀ j, j ≠ n → u.bank k j = s.bank k j) ∧ u = { s with mem := u.mem } := by
  have honly := s.modBank_only k n f
  exact runs_settled ⟨by rw [State.bank_modBank_same, h], honly.banks, honly.rest⟩

end Sys2Proof.Machine
end

section
/-! PROOFS. The statement of 10_memory_and_mash_stacks about bank operations and pauses. -/
namespace Sys2Proof.Machine

/-- Settles O39: each op is one change of its bank, and each row of MSH_CTRL one write of the register. -/
theorem bankOperationsAndPauses : Obligations.BankOperationsAndPauses := by
  intro s mash bank
  refine ⟨runs_modBank s _ _ (Bank.startOp_eq _), runs_modBank s _ _ (Bank.continueOp_eq _), runs_modBank s _ _ (Bank.abortOp_eq _),
    fun path h => ⟨fun hp => ?_, fun hp => ?_, ?_⟩⟩
  · exact ⟨_, exec_mshPause h path (by rw [hp]; decide), s.setMshPause_true _⟩
  · exact ⟨_, exec_mshPause h path (by rw [hp]; decide), rfl⟩
  · exact ⟨_, exec_holdClr h path, rfl⟩

end Sys2Proof.Machine
end

section
/-! SUPPORT. Scan commands: what the dispatcher takes, what becomes of a descriptor, and how a command completes (R364–R372). -/
namespace Sys2Proof.Machine

variable {s : State} {p : Part} {q : QueueDef} {e : QEntry}

/-! ### The dispatcher -/

theorem State.unitTake_of_oldest (h : (s.queue p.num q.id).oldest = some e) :
    s.unitTake p q = some (e, s.slotRead p q e.slot, s.modQueue p.num q.id (·.release e.slot)) := by
  rw [State.unitTake, h]

/-- The first queue whose stack has room is served (R365). -/
theorem State.dispatchScan_of_head {k : Nat} (hhead : (s.workQueues 4).head? = some (p, q)) (holdest : (s.queue p.num q.id).oldest = some e)
    (hstack : s.headStack p q = some k) (hroom : ((s.memCtl k).cmds.filter (·.finished.isNone)).length < scanCmdMax) (hstd : e.std = none) :
    s.dispatchScan = ((s.modQueue p.num q.id (·.release e.slot)).takeScan p q e (s.slotRead p q e.slot)).postAll p.num := by
  obtain ⟨rest, hqueues⟩ : ∃ rest, s.workQueues 4 = (p, q) :: rest := List.head?_eq_some_iff.1 hhead
  simp only [State.dispatchScan, hqueues, List.find?_cons, hstack, hroom, decide_true, State.unitTake_of_oldest holdest, hstd]

theorem State.dispatchScan_of_none (h : s.workQueues 4 = []) : s.dispatchScan = s := by
  rw [State.dispatchScan, h, List.find?_nil]

/-! ### A descriptor that is taken (R366, R367) -/

section Descriptor
variable (s p q e) (d : Bytes)

/-- A descriptor that cannot be served is counted and reported (R367). -/
def State.badScan : State :=
  (s.modMem (scanTarget d) fun m => { m with badCnt := m.badCnt + 1 }).reportDesc 4 p.num 4 (scanTarget d) (q.slotAddr e.slot) q.id e.tag

variable {s p q e d}

theorem State.takeScan_badCheck (h : crc32c (d.take 0x3C) ≠ fieldAt d 0x3C 4) : s.takeScan p q e d = s.badScan p q e d := by
  rw [State.takeScan, if_pos (bne_iff_ne.2 h)]
  rfl

/-- What is not served is answered BAD_DESCRIPTOR in its result block (R367). -/
theorem State.takeScan_notServed (hcheck : crc32c (d.take 0x3C) = fieldAt d 0x3C 4)
    (hserved : scanOk p d = false ∨ (s.memCtl (scanTarget d)).state = 2) (hregion : p.regionOk (fieldAt d 0x30 8) 32 = true)
    (halign : fieldAt d 0x30 8 % 64 = 0) :
    s.takeScan p q e d = (((s.badScan p q e d).dWrite p (fieldAt d 0x30 8 + 0x18) (zeros 8)).dWrite p (fieldAt d 0x30 8 + 8) [4, 0]).dWrite p
      (fieldAt d 0x30 8) (toLE 4 (fieldAt d 0x38 4) ++ zeros 4) := by
  have hnot : (!scanOk p d || (s.memCtl (scanTarget d)).state == 2) = true := by simpa using hserved
  simp only [State.takeScan, hcheck, bne_self_eq_false, Bool.false_eq_true, if_false, hnot, if_true, hregion, halign, beq_self_eq_true, Bool.and_self]
  rfl

/-- A descriptor that is served is held, and its ranges start (R365, R366). -/
theorem State.takeScan_served (hcheck : crc32c (d.take 0x3C) = fieldAt d 0x3C 4) (hok : scanOk p d = true)
    (hstate : (s.memCtl (scanTarget d)).state ≠ 2) :
    s.takeScan p q e d = (s.modMem (scanTarget d) fun m => { m with cmds := m.cmds ++ [({
        id := m.nextId
        part := p.num
        queue := q.id
        desc := d
        tag := e.tag
        layout := fieldAt d 1 1
        c := fieldAt d 2 2
        ranges := scanRanges d } : ScanCmd)] }).startRanges (scanTarget d) := by
  have hnot : (!scanOk p d || (s.memCtl (scanTarget d)).state == 2) = false := by rw [hok, beq_eq_false_iff_ne.2 hstate]; rfl
  simp only [State.takeScan, hcheck, bne_self_eq_false, Bool.false_eq_true, if_false, hnot]
  rfl

end Descriptor

/-! ### A command that completes (R368–R372) -/

/-- With the capture idle a completed command leaves no record and meets none (R608). -/
theorem State.caskMedia_idle (h : s.cask.state = 0) (part kind addr : Nat) (entries : List Nat) : s.caskMedia part kind addr entries = s := by
  have hnext : s.mediaNext part kind addr = none := by simp [State.mediaNext, State.replaying, h]
  simp only [State.caskMedia, hnext, State.caskRec_idle h, ite_self]

@[simp] theorem State.charge_cask (s : State) (tag : BitVec 9) (part i n : Nat) : (s.charge tag part i n).cask = s.cask := by
  obtain ⟨m, h⟩ := s.charge_eq tag part i n
  rw [h]

theorem scanResult_length (ready status : Nat) (m : List (Nat × Nat) × Nat × Nat × Nat × Nat) :
    (scanResult ready status m).length = 32 + 4 * m.1.length := by
  have hentries : ((m.1.map fun e => toLE 2 e.1 ++ toLE 2 e.2).flatten).length = 4 * m.1.length := by
    simp [List.length_flatten, Function.comp_def, mul_comm]
  simp only [scanResult, zeros, List.length_append, toLE_length, List.length_replicate, List.length_singleton, hentries]

/-- What a command's ranges found together (R369). -/
def ScanCmd.found (c : ScanCmd) : List (Nat × Nat) × Nat × Nat × Nat × Nat := mergeRanges c.c c.ranges

/-- The status of a command whose ranges are done: 8 where a code could not be read (R370). -/
def ScanCmd.status (c : ScanCmd) : Nat := if c.found.2.2.1 = 0 then 0 else 8

/-- The partition memory that a command moved: its result block, its lookup table and its dead map (R372). -/
def ScanCmd.units (c : ScanCmd) : Nat :=
  dUnits (fieldAt c.desc 0x30 8) (32 + 4 * c.found.1.length) + dUnits (fieldAt c.desc 0x20 8) (lutBytes c.layout) +
    (if fieldAt c.desc 0x28 8 = 0 then 0 else dUnits (fieldAt c.desc 0x28 8) (ceilDiv ((c.ranges.map fun r => r.first + r.count).foldl max 0) 8))

/-- A command that completes is counted, and its scan charged (R372, R380). -/
def State.scanCounted (s : State) (p : Part) (k : Nat) (c : ScanCmd) : State :=
  (s.modMem k fun m => { m with scanCnt := m.scanCnt + 1 }).charge c.tag p.num 3 1

theorem State.scanCounted_cask (s : State) (p : Part) (k : Nat) (c : ScanCmd) : (s.scanCounted p k c).cask = s.cask :=
  State.charge_cask _ c.tag p.num 3 1

/-- A command whose ranges are done is counted, leaves its controller, and is answered with what they found (R368–R372). -/
theorem State.scanComplete_of_done {k : Nat} {c : ScanCmd} (hcmd : (s.memCtl k).cmds.find? (·.id == c.id) = some c) (hpart : s.part? c.part = some p)
    (hrun : c.finished = none) (hstd : c.std = none) (hdone : c.ranges.all (·.result.isSome) = true) (hidle : s.cask.state = 0) :
    s.scanComplete k c.id =
      (((s.scanCounted p k c).modMem k fun m => { m with cmds := m.cmds.filter (·.id != c.id) }).charge c.tag p.num 2 c.units).writeResult p
        (fieldAt c.desc 0x30 8) (scanResult (fieldAt c.desc 0x38 4) c.status c.found) := by
  have hrunning : ((none : Option Nat) == some 6) = false := rfl
  have hstatus : (if (c.found.2.2.1 != 0) = true then 8 else 0) = c.status := by simp [ScanCmd.status, ite_not]
  have hidle' : (s.scanCounted p k c).cask.state = 0 := by rw [State.scanCounted_cask, hidle]
  have hdead (n : Nat) : (if (fieldAt c.desc 0x28 8 == 0) = true then 0 else n) = if fieldAt c.desc 0x28 8 = 0 then 0 else n := by
    simp only [beq_iff_eq]
  unfold State.scanComplete
  simp only [hcmd, hpart, hrun, hdone, hstd, hrunning, Option.isNone_none, Bool.and_true, Bool.not_true, Bool.and_false, Bool.false_eq_true, if_false]
  rw [← ScanCmd.found, ← State.scanCounted, hstatus, State.caskMedia_idle hidle', scanResult_length, hdead]
  rfl

end Sys2Proof.Machine
end

section
/-! PROOFS. The statement of 10_memory_and_mash_stacks about scan commands. -/
namespace Sys2Proof.Machine

/-- Settles O41: the dispatcher serves the head of its queues, and a descriptor and a command whose ranges are done each go one way. -/
theorem scansAreTakenRunAndAnswered : Obligations.ScansAreTakenRunAndAnswered := by
  refine ⟨fun s p q e k hhead holdest hstack hroom hstd => runs_settled (State.dispatchScan_of_head hhead holdest hstack hroom hstd),
    fun s hnone => runs_settled (State.dispatchScan_of_none hnone),
    fun s p q e d => ⟨State.takeScan_badCheck, State.takeScan_notServed, State.takeScan_served⟩,
    fun s mash c p hcmd hpart hrun hstd hdone hidle => runs_settled (State.scanComplete_of_done hcmd hpart hrun hstd hdone hidle)⟩

end Sys2Proof.Machine
end

section
/-! SUPPORT. What records of faults leave alone, and what the retry ladder, a stripe rebuild and a patrol read do with one page (R399–R405, R422). -/
namespace Sys2Proof.Machine

variable {s t u : State}

/-! ### Records of faults and of the capture (R587, R606–R608) -/

/-- Only the error log, the cask log, the clock that gives their stamps, and what leaves the node differ. -/
def OnlyLogs (s t : State) : Prop := t = { s with cask := t.cask, flt := t.flt, time := t.time, out := t.out }

theorem OnlyLogs.trans (h : OnlyLogs s t) (h' : OnlyLogs t u) : OnlyLogs s u := by
  unfold OnlyLogs at *
  rw [h', h]

theorem OnlyReports.onlyLogs (h : OnlyReports s t) : OnlyLogs s t := by
  unfold OnlyReports at h
  unfold OnlyLogs
  rw [h]

section OnlyLogs
variable (h : OnlyLogs s t)
include h

theorem OnlyLogs.fls : t.fls = s.fls := by rw [h]

theorem OnlyLogs.mod : t.mod = s.mod := by rw [h]

theorem OnlyLogs.carriers : t.carriers = s.carriers := by rw [h]

end OnlyLogs

variable (s)

theorem State.onlyLogs_logRecord (r : Report) : OnlyLogs s (s.logRecord r).2 := OnlyReports.onlyLogs (s.logRecord_eq r).1

theorem State.onlyLogs_caskClose : OnlyLogs s s.caskClose := by
  unfold State.caskClose
  split <;> rfl

theorem State.onlyLogs_caskPut (typ part source : Nat) (body : Bytes) : OnlyLogs s (s.caskPut typ part source body) := by
  unfold State.caskPut
  extract_lets r used fits
  have hfits : OnlyLogs s fits := by
    unfold fits
    split
    · exact s.onlyLogs_caskClose
    · rfl
  split
  · exact ((hfits.trans (by rfl)).trans (State.onlyLogs_caskClose _)).trans (State.onlyLogs_logRecord _ _)
  · exact hfits.trans rfl

theorem State.onlyLogs_caskEvent (part ev : Nat) (payload : Bytes) : OnlyLogs s (s.caskEvent part ev payload) := by
  unfold State.caskEvent State.caskRec
  split
  · exact s.onlyLogs_caskPut _ _ _ _
  · rfl

theorem State.onlyLogs_report (r : Report) : OnlyLogs s (s.report r) := by
  obtain h | ⟨b, h⟩ := s.report_eq r
  · exact h ▸ s.onlyLogs_logRecord r
  · exact h ▸ (s.onlyLogs_logRecord r).trans (State.onlyLogs_caskEvent _ _ _ _)

/-! ### A page read of a lauter command (R401–R405) -/

/-- A failed flash map page leaves the commands of the engines alone. -/
@[simp] theorem State.lauterCmd?_mapPageFailed (k id : Nat) : (s.mapPageFailed k).lauterCmd? id = s.lauterCmd? id := by
  unfold State.mapPageFailed State.lauterCmd?
  dsimp only
  rw [(State.onlyLogs_report _ _).fls]
  rfl

/-- A page whose read at a ladder step did not decode: the next step, and a rebuild beside it from the last fast step on (R404, R405). -/
def PageRead.nextStep (fast : Nat) (r : PageRead) : PageRead :=
  { r with step := r.step + 1, rebuilding := !r.rebuildFailed && (r.rebuilding || decide (fast ≤ r.step) || r.step == 8) }

variable {s} {id k : Nat} {c : LauterCmd} {r : PageRead}

section PageRead
variable (hcmd : s.lauterCmd? id = some c) (hread : c.reads.find? (·.key == k) = some r) (hgot : r.got = none)
include hcmd hread hgot

theorem State.pageReadDone_decoded (hstep : r.step ≤ 8) : s.pageReadDone id k true = s.readGot id k (.step r.step) := by
  simp [State.pageReadDone, hcmd, hread, hgot, Nat.not_lt.2 hstep]

theorem State.pageReadDone_lost (hstep : r.step = 8) (hfailed : r.rebuildFailed = true) : s.pageReadDone id k false = s.readGot id k .unrecoverable := by
  simp [State.pageReadDone, hcmd, hread, hgot, hstep, hfailed]

theorem State.pageReadDone_next (hstep : r.step < 8) : s.pageReadDone id k false = s.modRead id k (PageRead.nextStep s.fastSteps) := by
  have hladder : ¬ 8 < r.step := by omega
  have hlast : r.step ≠ 8 := by omega
  simp only [State.pageReadDone, hcmd, hread, hgot, hladder, Option.isSome_none, decide_false, Bool.or_self, Bool.false_and, Bool.false_eq_true, if_false,
    beq_eq_false_iff_ne.2 hlast]
  rfl

variable (hrebuild : r.rebuilding = true)
include hrebuild

theorem State.rebuildDone_ok : s.rebuildDone id k true = s.readGot id k .rebuild := by
  simp [State.rebuildDone, hcmd, hread, hgot, hrebuild]

theorem State.rebuildDone_lost (hstep : r.step = 9) : s.rebuildDone id k false = s.readGot id k .unrecoverable := by
  simp [State.rebuildDone, hcmd, hread, hgot, hrebuild, hstep]

theorem State.rebuildDone_failed (hstep : r.step ≠ 9) :
    s.rebuildDone id k false = s.modRead id k fun r => { r with rebuilding := false, rebuildFailed := true } := by
  simp [State.rebuildDone, hcmd, hread, hgot, hrebuild, hstep]

end PageRead

/-! ### Counted reads, and the patrol (R399, R422) -/

/-- The counters of the FLASH block after a media read that was delivered at a step: 9 by rebuild, 10 unrecoverable (R422). -/
def Fls.readCounted (f : Fls) (step : Nat) : Fls :=
  { f with
    readCnt := f.readCnt + 1
    retryCnt := if 2 ≤ step then f.retryCnt + 1 else f.retryCnt
    rebuiltCnt := if step = 9 then f.rebuiltCnt + 1 else f.rebuiltCnt
    unrecCnt := if step = 10 then f.unrecCnt + 1 else f.unrecCnt
    err := if step = 10 then bput f.err 0 true else f.err }

theorem State.countRead_fls (k : Nat) {step : Nat} (hstep : step ≠ 0) (tag : Nat) (degrades : Bool) :
    (s.countRead k step tag degrades).fls = s.fls.readCounted step := by
  unfold State.countRead Fls.readCounted
  simp only [beq_iff_eq, if_neg hstep, ge_iff_le]
  by_cases hlost : step = 10
  · subst hlost
    rw [if_pos rfl, (State.onlyLogs_report _ _).fls]
    rfl
  · simp only [if_neg hlost]
    by_cases hrebuilt : step = 9
    · subst hrebuilt
      rfl
    · simp only [if_neg hrebuilt, State.countErr, State.modCarrier]
      split <;> rfl

theorem State.patrol_eq {k step : Nat} (hdays : s.fls.patrolDays ≠ 0) (hback : s.background = true) (hmap : s.media.map.get 0 k ≠ 0)
    (hhome : s.posMissing (homeOf k) = false) (hstep : step ≠ 0) : s.patrol k step = (s.countRead k step).weakCheck k step := by
  have hquiet : (s.fls.patrolDays == 0 || !s.background || s.media.map.get 0 k == 0 || s.posMissing (homeOf k) || step == 0) = false := by
    simp only [beq_eq_false_iff_ne.2 hdays, hback, beq_eq_false_iff_ne.2 hmap, hhome, beq_eq_false_iff_ne.2 hstep, Bool.not_true, Bool.or_self]
  rw [State.patrol, if_neg (by rw [hquiet]; decide)]

end Sys2Proof.Machine
end

section
/-! PROOFS. The statement of 11_flash_and_storage about the ladder of a page, its rebuild, and the patrol. -/
namespace Sys2Proof.Machine

/-- A command that ends with the host's warnings runs into what it did before them. -/
theorem runsThen_settled {f : State → State} {u : State} {post : State → Prop} (h : post u) : RunsThen f (settled (f u)) post := ⟨u, rfl, h⟩

/-- Settles O43: each end of a read or of a rebuild is one branch of its own operation, and a count is one change of the FLASH block. -/
theorem pagesComeByTheLadder : Obligations.PagesComeByTheLadder := by
  refine ⟨?_, fun s k step hlo _ => ?_, ?_⟩
  · intro s id part ext page c r k hcmd hread hgot
    refine ⟨fun hstep => ?_, fun hstep hfailed => ?_, fun hstep => ?_, fun hstep => ?_, fun hreb => ?_, fun hreb hstep => ?_, fun hreb hstep => ?_⟩
    · exact runsThen_settled (State.pageReadDone_decoded hcmd hread hgot hstep)
    · exact runsThen_settled (State.pageReadDone_lost hcmd hread hgot hstep hfailed)
    · exact runsThen_settled (State.pageReadDone_next hcmd hread hgot hstep)
    · exact runsThen_settled (State.pageReadDone_decoded ((s.lauterCmd?_mapPageFailed k id).trans hcmd) hread hgot hstep)
    · exact runsThen_settled (State.rebuildDone_ok hcmd hread hgot hreb)
    · exact runsThen_settled (State.rebuildDone_lost hcmd hread hgot hreb hstep)
    · exact runsThen_settled (State.rebuildDone_failed hcmd hread hgot hreb hstep)
  · rw [State.countRead_fls k (by omega) _ _]
    exact ⟨rfl, rfl, rfl, rfl⟩
  · intro s part ext page step k hdays hback hmap hhome hstep
    exact runsThen_settled (State.patrol_eq hdays hback hmap hhome (Fin.val_ne_zero_iff.2 hstep))

end Sys2Proof.Machine
end

section
/-! SUPPORT. The commands of the storage namespaces, from their fetch to their completion (R392, R418, R419). -/
namespace Sys2Proof.Machine

variable {s t : State} {p : Part} {e : FlashExt} {nsid lba n : Nat}

/-! ### What every command checks -/

theorem State.nvmCheck_noNamespace (h : t.nsOf nsid = none) (lba n : Nat) : t.nvmCheck nsid lba n = nvBadNs := by
  rw [State.nvmCheck, h]

section Namespace
variable (hns : t.nsOf nsid = some (p, e))
include hns

theorem State.nvmCheck_beyond (h : e.lbas < lba + n) : t.nvmCheck nsid lba n = nvLbaRange := by
  simp only [State.nvmCheck, hns, gt_iff_lt, h, if_true]

theorem State.nvmCheck_ok (h : lba + n ≤ e.lbas) (hup : t.storageUp = true) : t.nvmCheck nsid lba n = nvOk := by
  simp only [State.nvmCheck, hns, gt_iff_lt, Nat.not_lt.2 h, if_false, hup, Bool.not_true, Bool.false_eq_true]

end Namespace

/-! ### Commands that were fetched -/

section Fetched
variable {sq : Nat} (hfetch : s.fetch sq = some t) (cid : BitVec 16)
include hfetch

theorem State.nvmFlush_fetched (nsid : BitVec 32) : s.nvmFlush sq cid nsid.toNat =
    t.postCqe sq cid 0 0 (if nsid = 0xFFFFFFFF ∨ (t.nsOf nsid.toNat).isSome = true then nvOk else nvBadNs) := by
  have hall : nsid.toNat = 0xFFFFFFFF ↔ nsid = 0xFFFFFFFF := BitVec.toNat_inj (y := 0xFFFFFFFF#32)
  simp only [State.nvmFlush, hfetch, Bool.or_eq_true, beq_iff_eq, hall]

section NoNamespace
variable (hns : t.nsOf nsid = none)
include hns

theorem State.nvmRead_noNamespace (lba n : Nat) (dptr : Option Nat) (bad : List Nat) :
    s.nvmRead sq cid nsid lba n dptr bad = t.postCqe sq cid 0 0 nvBadNs := by
  simp only [State.nvmRead, hfetch, hns, State.nvmCheck_noNamespace hns]

theorem State.nvmWrite_noNamespace (hbefore : s.nsOf nsid = none) (lba n : Nat) (data : Option Bytes) :
    s.nvmWrite sq cid nsid lba n data = t.postCqe sq cid 0 0 nvBadNs := by
  simp only [State.nvmWrite, hfetch, hbefore, hns, State.nvmCheck_noNamespace hns, Bool.false_eq_true, if_false]

theorem State.nvmZero_noNamespace (lba n : Nat) : s.nvmZero sq cid nsid lba n = t.postCqe sq cid 0 0 nvBadNs := by
  simp only [State.nvmZero, hfetch, hns, State.nvmCheck_noNamespace hns]

end NoNamespace

section Namespace
variable (hns : t.nsOf nsid = some (p, e))
include hns

theorem State.nvmRead_beyond (h : e.lbas < lba + n) (dptr : Option Nat) (bad : List Nat) :
    s.nvmRead sq cid nsid lba n dptr bad = t.postCqe sq cid 0 0 nvLbaRange := by
  have hstatus : (nvLbaRange != nvOk) = true := rfl
  simp only [State.nvmRead, hfetch, hns, State.nvmCheck_beyond hns h, hstatus, if_true]

theorem State.nvmDsm_one {len : BitVec 32} {start : BitVec 64} (h : start.toNat + len.toNat ≤ e.lbas) (hup : t.storageUp = true)
    (hwritable : t.fls.state ≠ .readOnly) : s.nvmDsm sq cid nsid true (some [(len, start)]) =
      (t.zeroSpans p e (e.blockSpans start.toNat len.toNat) true).postCqe sq cid 0 0 nvOk := by
  simp [State.nvmDsm, hfetch, hns, Nat.not_lt.2 h, hup, bne_iff_ne.2 hwritable]

/-! ### Ranges within a namespace of storage that is up -/

section Served
variable (hrange : lba + n ≤ e.lbas) (hup : t.storageUp = true)
include hrange hup

/-- A verify of pages that all decode counts its reads and completes. -/
theorem State.nvmRead_verify : s.nvmRead sq cid nsid lba n none [] =
    (((t.countSpans p e (e.blockSpans lba n) []).countHost false (n * e.lba)).smart).postCqe sq cid 0 0 nvOk := by
  simp [State.nvmRead, hfetch, hns, State.nvmCheck_ok hns hrange hup]

/-- A read of pages that all decode delivers their bytes as they stood, too. -/
theorem State.nvmRead_delivers (a : Nat) : s.nvmRead sq cid nsid lba n (some a) [] =
    ((((t.countSpans p e (e.blockSpans lba n) []).countHost false (n * e.lba)).smart).emit
      (.hostWrite a (t.readSpans p e (e.blockSpans lba n)))).postCqe sq cid 0 0 nvOk := by
  simp [State.nvmRead, hfetch, hns, State.nvmCheck_ok hns hrange hup]

theorem State.nvmZero_served (hwritable : t.fls.state ≠ .readOnly) : s.nvmZero sq cid nsid lba n =
    ((t.zeroSpans p e (e.blockSpans lba n) true).countHost true (n * e.lba)).postCqe sq cid 0 0 nvOk := by
  simp [State.nvmZero, hfetch, hns, State.nvmCheck_ok hns hrange hup, hwritable]

variable (hbefore : s.nsOf nsid = some (p, e)) (hroom : ∀ x ∈ e.blockSpans lba n, s.stagingFull (pageKey p.num e.id x.1) = false) (b : Bytes)
include hbefore hroom

theorem State.nvmWrite_readOnly (hstate : t.fls.state = .readOnly) :
    s.nvmWrite sq cid nsid lba n (some b) = t.postCqe sq cid 0 0 nvNsWriteProt := by
  have hfull := List.any_eq_false.2 fun x hx => Bool.eq_false_iff.1 (hroom x hx)
  simp [State.nvmWrite, hfetch, hns, hbefore, hfull, State.nvmCheck_ok hns hrange hup, hstate]

theorem State.nvmWrite_staged (hwritable : t.fls.state ≠ .readOnly) : s.nvmWrite sq cid nsid lba n (some b) =
    ((t.writeSpans p e (e.blockSpans lba n) b).countHost true (n * e.lba)).postCqe sq cid 0 0 nvOk := by
  have hfull := List.any_eq_false.2 fun x hx => Bool.eq_false_iff.1 (hroom x hx)
  simp [State.nvmWrite, hfetch, hns, hbefore, hfull, State.nvmCheck_ok hns hrange hup, hwritable]

end Served

end Namespace

end Fetched

/-- A write waits, unfetched, while a staging buffer it needs is full (R392). -/
theorem State.nvmWrite_waits {sq : Nat} (cid : BitVec 16) (data : Option Bytes) (hns : s.nsOf nsid = some (p, e))
    (hfull : ∃ x ∈ e.blockSpans lba n, s.stagingFull (pageKey p.num e.id x.1) = true) : s.nvmWrite sq cid nsid lba n data = s := by
  simp only [State.nvmWrite, hns, List.any_eq_true.2 hfull, if_true]

end Sys2Proof.Machine
end

section
/-! PROOFS. The statement of 11_flash_and_storage about NVMe commands on the storage namespaces. -/
namespace Sys2Proof.Machine

/-- A command of an I/O submission queue is one that hardware presents, and runs into what it does. -/
theorem runs_ioCommand {sq : BitVec 16} {u : State} {post : State → Prop} (hsq : sq ≠ 0) (h : post u) : Runs (presented (sq != 0) (settled u)) post := by
  rw [bne_iff_ne.2 hsq, presented_true]
  exact runs_settled h

/-- Settles O48: a command is fetched, checked, and then does what its own equation says. -/
theorem namespacesReadAndWrite : Obligations.NamespacesReadAndWrite := by
  intro s t sq cid nsid hsq hf
  refine ⟨runs_ioCommand hsq (State.nvmFlush_fetched hf cid nsid), fun slba dptr nlb data ht hs => ?_, ?_⟩
  · exact ⟨runs_ioCommand hsq (State.nvmRead_noNamespace hf cid ht _ _ _ _), runs_ioCommand hsq (State.nvmRead_noNamespace hf cid ht _ _ _ _),
      runs_ioCommand hsq (State.nvmWrite_noNamespace hf cid ht hs _ _ _), runs_ioCommand hsq (State.nvmZero_noNamespace hf cid ht _ _)⟩
  intro p e slba dptr nlb ht hs n l
  refine ⟨fun hbeyond => ?_, fun hrange hup => ⟨?_, ?_, fun b hroom => ⟨fun hrw => ?_, fun hro => ?_⟩, fun b hfull => ?_, fun hrw => ?_⟩,
    fun len start hrange hup hrw => ?_⟩
  · exact runs_ioCommand hsq (State.nvmRead_beyond hf cid ht hbeyond _ _)
  · exact runs_ioCommand hsq (State.nvmRead_delivers hf cid ht hrange hup _)
  · exact runs_ioCommand hsq (State.nvmRead_verify hf cid ht hrange hup)
  · exact runs_ioCommand hsq (State.nvmWrite_staged hf cid ht hrange hup hs hroom b hrw)
  · exact runs_ioCommand hsq (State.nvmWrite_readOnly hf cid ht hrange hup hs hroom b hro)
  · exact runs_ioCommand hsq (State.nvmWrite_waits cid (some b) hs hfull)
  · exact runs_ioCommand hsq (State.nvmZero_served hf cid ht hrange hup hrw)
  · exact runs_ioCommand hsq (State.nvmDsm_one hf cid ht hrange hup hrw)

end Sys2Proof.Machine
end

section
/-! PROOFS. The statement of 11_flash_and_storage about thermal limits, carrier outputs, lamps and the test access port. -/
namespace Sys2Proof.Machine

/-- A node that captures, with optical engine 0 switched off for temperature and a detected fibre on its channel 0, which is dark. -/
def capturingCold : State :=
  { State.reset with
    cask := { State.reset.cask with state := 2 }
    mod := { State.reset.mod with oeOff := 1 }
    fab := { State.reset.fab with fdet := 1, chans := [(0, { state := .noFibre, engine := 0 })] } }

/-- Once the engine is cool its channel trains, and that change of a channel's state is an EVENT of the capture (R607, R608, R660). -/
theorem capturingCold_engineCool_records : (capturingCold.engineCool 0 70).cask.cur.length = 1 := by decide +kernel

/-- Refutes O60: a cool engine whose channel trains again changes the cask log too while a capture runs (R608), where the statement lets the MODULE and
FABRIC blocks alone change. -/
theorem not_heatCarriersLampsAndTestPort : ¬ Obligations.HeatCarriersLampsAndTestPort := by
  intro h
  obtain ⟨-, -, -, -, -, -, -, hcool, -⟩ := h capturingCold
  obtain ⟨u, hruns, -, -, honly, -⟩ := hcool 0 70 (by decide) (by decide)
  have hsame : (capturingCold.engineCool 0 70).cask = u.cask := by
    have hnext : (capturingCold.engineCool 0 70).openGates = u.openGates := Host.Outcome.next.inj hruns
    rw [← State.openGates_cask, hnext, State.openGates_cask]
  have hcask : u.cask = capturingCold.cask := by rw [honly]
  have hrecords := capturingCold_engineCool_records
  rw [hsame, hcask] at hrecords
  exact absurd hrecords (by decide)

end Sys2Proof.Machine
end

section
/-! SUPPORT. Lauter commands: what the dispatcher takes, what becomes of a descriptor, and how a command is answered (R406–R414). -/
namespace Sys2Proof.Machine

variable {s : State} {p : Part} {q : QueueDef} {e : QEntry}

/-- The first queue is served where its head is of the op and its engine has room (R409). -/
theorem State.dispatchLauter_of_head {op en : Nat} (hhead : (s.workQueues 5).head? = some (p, q)) (holdest : (s.queue p.num q.id).oldest = some e)
    (hstd : e.std = none) (hop : s.headLauter p q = (some op, en))
    (hroom : (s.fls.cmds.filter fun c => c.carrier == en && c.finished.isNone).length < lauterMax) :
    s.dispatchLauter op = ((s.modQueue p.num q.id (·.release e.slot)).takeLauterCmd p q e (s.slotRead p q e.slot)).postAll p.num := by
  obtain ⟨rest, hqueues⟩ : ∃ rest, s.workQueues 5 = (p, q) :: rest := List.head?_eq_some_iff.1 hhead
  simp only [State.dispatchLauter, hqueues, List.find?_cons, hop, beq_self_eq_true, Bool.or_true, hroom, decide_true, Bool.and_self,
    State.unitTake_of_oldest holdest, hstd]

/-! ### A descriptor that is taken (R409, R410, R413) -/

/-- A bad descriptor is counted and reported with its engine (R410). -/
def State.badLauter (s : State) (p : Part) (q : QueueDef) (e : QEntry) (d : Bytes) : State :=
  ({ s with fls := { s.fls with ltrBad := s.fls.ltrBad + 1 } }).reportDesc 4 p.num 6 (fieldAt d 1 1 % 8) (q.slotAddr e.slot) q.id e.tag

/-- The command of a descriptor as its engine holds it. -/
def State.newLauter (s : State) (p : Part) (q : QueueDef) (e : QEntry) (d : Bytes) (refuse : Option Nat) (reads : List PageRead) : LauterCmd :=
  { id := s.fls.nextId, carrier := fieldAt d 1 1 % 8, part := p.num, queue := q.id, desc := d, tag := e.tag, refuse := refuse, reads := reads }

def State.holdLauter (s : State) (c : LauterCmd) : State := { s with fls := { s.fls with cmds := s.fls.cmds ++ [c] } }

section Descriptor
variable {d : Bytes}

theorem State.takeLauterCmd_badCheck (hcrc : crcOk d 0x3C = false) : s.takeLauterCmd p q e d = (s.badLauter p q e d).flsErr 8 := by
  simp only [State.takeLauterCmd, hcrc, Bool.not_false, if_true]
  rfl

variable (hcrc : crcOk d 0x3C = true)
include hcrc

theorem State.takeLauterCmd_notServed (hok : s.lauterOk p d = false) :
    s.takeLauterCmd p q e d = ((s.badLauter p q e d).holdLauter (s.newLauter p q e d (some 4) [])).pump (fieldAt d 1 1 % 8) := by
  simp only [State.takeLauterCmd, hcrc, hok, Bool.not_true, Bool.not_false, Bool.false_eq_true, if_false, if_true, Option.isNone_some, Bool.false_and,
    beq_self_eq_true, List.map_nil]
  rfl

variable (hok : s.lauterOk p d = true)
include hok

theorem State.takeLauterCmd_noStorage (hnone : s.noStorage (fieldAt d 0 1) = true) :
    s.takeLauterCmd p q e d = (s.holdLauter (s.newLauter p q e d (some 0x0A) [])).pump (fieldAt d 1 1 % 8) := by
  have hstatus : (some 0x0A == some 4) = false := rfl
  simp only [State.takeLauterCmd, hcrc, hok, hnone, Bool.not_true, Bool.false_eq_true, if_false, if_true, Option.isNone_some, Bool.false_and, hstatus,
    List.map_nil]
  rfl

/-- A rescore or a fetch that is served is held with a read for each distinct page (R403, R409). -/
theorem State.takeLauterCmd_reads (hup : s.noStorage (fieldAt d 0 1) = false) (hop : fieldAt d 0 1 ≤ 2) {ext size : Nat}
    (hplace : s.lauterPlace p d = some (ext, size)) :
    s.takeLauterCmd p q e d = (s.holdLauter (s.newLauter p q e d none
      ((distinct ((s.readEntries p d).filterMap fun x => x.map fun y => pageKey p.num ext y.1)).map s.newRead))).pump (fieldAt d 1 1 % 8) := by
  have hstatus : ((none : Option Nat) == some 4) = false := rfl
  simp only [State.takeLauterCmd, hcrc, hok, hup, hop, hplace, Bool.not_true, Bool.false_eq_true, if_false, if_true, Option.isNone_none, Bool.true_and,
    decide_true, hstatus, Option.map_some, Option.getD_some]
  rfl

end Descriptor

/-! ### Answers (R411, R413, R414) -/

/-- A command that is answered leaves its engine, and is counted (R414). -/
def State.lauterAnswered (s : State) (id : Nat) : State :=
  { s with fls := { s.fls with cmds := s.fls.cmds.filter (·.id != id), ltrCnt := s.fls.ltrCnt + 1 } }

/-- The ready word of a command's result block, which is written last (R411). -/
def lauterReady (d : Bytes) : Bytes := toLE 4 (fieldAt d 0x38 4) ++ zeros 4

section Answer
variable {c : LauterCmd} (hcmd : s.lauterCmd? c.id = some c)
include hcmd

theorem State.lauterComplete_notDone (h : c.done = false) : s.lauterComplete c.id = s := by
  unfold State.lauterComplete
  rw [hcmd]
  exact if_pos (by rw [h]; rfl)

variable (hpart : s.part? c.part = some p) (hrun : c.finished = none) (hstd : c.std = none)
include hpart hrun hstd

theorem State.lauterComplete_noStorage (hrefuse : c.refuse = some 0x0A) : s.lauterComplete c.id =
    (s.lauterAnswered c.id).writeResult p (fieldAt c.desc 0x30 8) (lauterReady c.desc ++ lauterHeader 0x0A 0 0 0 []) := by
  have hdone : c.done = true := by simp [LauterCmd.done, hrefuse]
  have hstatus : (0x0A == 4) = false := rfl
  simp only [State.lauterComplete, hcmd, hdone, hrun, hpart, hstd, hrefuse, hstatus, Bool.not_true, Option.isSome_none, Bool.or_self, Bool.false_eq_true,
    if_false]
  rfl

/-- A deallocate whose entries are applied is charged for its entries and its result block, and answered with its entry count. -/
theorem State.lauterComplete_deallocated (hrefuse : c.refuse = none) (hreads : c.reads = []) (hop : fieldAt c.desc 0 1 = 4)
    (happlied : fieldAt c.desc 4 2 ≤ c.applied) : s.lauterComplete c.id =
    ((((s.lauterAnswered c.id).charge c.tag p.num 2 (dUnits (fieldAt c.desc 0x18 8) (8 * fieldAt c.desc 4 2))).charge c.tag p.num 2
      (dUnits (fieldAt c.desc 0x30 8) 32)).writeResult p (fieldAt c.desc 0x30 8) (lauterReady c.desc ++ lauterHeader 0 (fieldAt c.desc 4 2) 0 0 [])) := by
  have hdone : c.done = true := by simp [LauterCmd.done, hrefuse, hreads, happlied]
  have hop3 : fieldAt c.desc 0 1 ≥ 3 := hop.ge.trans' (by decide)
  have hwrite : (fieldAt c.desc 0 1 == 3) = false := by rw [hop]; rfl
  have hentries (n : Nat) : entryBytes (fieldAt c.desc 0 1) n = 8 * n := by rw [entryBytes, hwrite, if_neg Bool.false_ne_true]
  unfold State.lauterComplete
  rw [hcmd]
  refine (if_neg (by rw [hdone, hrun]; decide)).trans ?_
  rw [hpart, hstd, hrefuse]
  refine (if_pos hop3).trans ?_
  simp only [hwrite, hentries, Bool.false_eq_true, if_false]
  rfl

end Answer

end Sys2Proof.Machine
end

section
/-! PROOFS. The statement of 11_flash_and_storage about lauter commands. -/
namespace Sys2Proof.Machine

/-- Settles O42: the dispatcher serves the head of its queues, and a descriptor and a command that is done each go one way. -/
theorem lauterCommandsAreTakenAndAnswered : Obligations.LauterCommandsAreTakenAndAnswered := by
  refine ⟨?_, ?_, ?_⟩
  · intro s op p q e en hhead holdest hstd hop hroom taken
    have htaken := runs_settled (post := taken) (State.dispatchLauter_of_head hhead holdest hstd hop hroom)
    refine ⟨?_, ?_, ?_, ?_⟩ <;> rintro rfl <;> exact htaken
  · intro s p q e d
    exact ⟨State.takeLauterCmd_badCheck, State.takeLauterCmd_notServed, State.takeLauterCmd_noStorage,
      fun ext size hcrc hok hup hop hplace => State.takeLauterCmd_reads hcrc hok hup hop hplace⟩
  · intro s c p hcmd hpart hrun hstd
    exact ⟨fun hrefuse => runsThen_settled (State.lauterComplete_noStorage hcmd hpart hrun hstd hrefuse),
      fun hrefuse hreads hop happlied => runsThen_settled (State.lauterComplete_deallocated hcmd hpart hrun hstd hrefuse hreads hop happlied),
      fun hdone => runsThen_settled (State.lauterComplete_notDone hcmd hdone)⟩

end Sys2Proof.Machine
end

section
/-! SUPPORT. The background work of the flash side, and the calibration of a channel (R385, R396–R398). -/
namespace Sys2Proof.Machine

variable {s : State} {b : Nat} {v : SBlock}

/-! ### Kilning, collection and wear levelling -/

/-- A folded steep block's pages start their history anew (R395, R396). -/
def State.kilned (s : State) (b : Nat) : State :=
  let t := s.foldBlock b fun k => if s.isHot k 0 then .hot else .cold
  { t with media := { t.media with heat := (s.validIn b).foldl (fun (h : SMap Nat) k => h.set 0 k 0) t.media.heat } }

theorem State.kiln_oldest (hback : s.background = true) (hsteep : s.kilnAt ≤ s.steepPct) (hcalm : s.gcUrgent = false)
    (hold : leastBlock (fun e => e.2.order) (s.media.blocks.filter fun e => e.2.oneBit && s.quiet e) = some (b, v)) : s.kiln = s.kilned b := by
  simp only [State.kiln, hback, Nat.not_lt.2 hsteep, hcalm, hold, Bool.not_true, decide_false, Bool.or_self, Bool.false_eq_true, if_false]
  rfl

theorem State.kiln_urgent (h : s.gcUrgent = true) : s.kiln = s := by
  simp only [State.kiln, h, Bool.or_true, if_true]

/-- Collection goes first where it is urgent, and else while no kilning is wanted (R396, R397). -/
theorem State.collect_victim (hback : s.background = true) (hfree : s.freePct < s.fls.gcStart.toNat)
    (hfirst : s.gcUrgent = true ∨ s.steepPct < s.kilnAt) (hvictim : s.gcVictim = some (b, v)) : s.collect = s.foldBlock b fun _ => .cold := by
  have hkiln : (!s.gcUrgent && decide (s.steepPct ≥ s.kilnAt)) = false := by simpa [or_iff_not_imp_left] using hfirst
  simp only [State.collect, hback, ge_iff_le, Nat.not_le.2 hfree, hkiln, hvictim, Bool.not_true, decide_false, Bool.or_self, Bool.false_eq_true, if_false]

theorem State.levelWear_even (h : ∀ c < 8, s.wearSpread c ≤ s.fls.spread.toNat) : s.levelWear = s := by
  have heven : ((List.range 8).any fun c => !s.posMissing c && decide (s.wearSpread c > s.fls.spread.toNat)) = false := by
    simpa using fun c hc _ => h c hc
  simp only [State.levelWear, heven, Bool.not_false, Bool.or_true, if_true]

/-- The valid pages of block `b` as they move into the free block `n`, what does not fit into the cold stream, and `b` as its erase starts (R398). -/
def State.levelled (s : State) (b n : Nat) : State :=
  let keys := s.validIn b
  let o := s.setBlock n { oneBit := false, stream := .cold, order := s.media.nextOrder }
  let m := State.moveInto { o with media := { o.media with nextOrder := s.media.nextOrder + 1 } } .cold (some n) (8 * keys.length + 8) keys
  let r := m.moveInto .cold none (8 * keys.length + 8) (keys.filter fun k => m.blockOf k == some b)
  State.startErase { r with media := { r.media with stripes := r.media.stripes.filter fun e => e.2.block != b } } b

theorem State.levelWear_uneven {n : Nat} (hback : s.background = true)
    (huneven : ∃ c < 8, s.posMissing c = false ∧ s.fls.spread.toNat < s.wearSpread c)
    (hcold : leastBlock (fun e => s.blockWear e.1)
      (s.media.blocks.filter fun e => !e.2.oneBit && e.2.closed && e.2.stream == .cold && s.quiet e) = some (b, v))
    (hfree : s.wornFree = some n) : s.levelWear = s.levelled b n := by
  have hany : ((List.range 8).any fun c => !s.posMissing c && decide (s.wearSpread c > s.fls.spread.toNat)) = true := by
    simpa using huneven
  simp only [State.levelWear, hback, hany, hcold, hfree, Bool.not_true, Bool.or_self, Bool.false_eq_true, if_false]
  rfl

/-! ### Calibration -/

/-- A calibration of a channel ends 12 µs after it began, and keeps its time and its temperature (R385). -/
def State.calibrated (s : State) (ch : Nat) : State :=
  s.modFlashCh ch fun k =>
    { k with calDue := false, calLate := false, lastCal := s.time.up, calTemp := s.mod.now.get 0 (27 + 2 * (ch / 4)), calUntil := s.time.up + 12000 }

section Serving
variable {ch : Nat} (hserves : s.channelServes ch = true)
include hserves

theorem State.calibrate_due : s.calibrate ch false = (s.advanceTo (s.flashCh ch).dueTime).calibrated ch := by
  simp only [State.calibrate, hserves, Bool.not_true, Bool.false_and, Bool.or_self, Bool.false_eq_true, if_false]
  rfl

theorem State.calibrate_forced (hwindow : s.grist.clock.calUs ≠ 0) :
    s.calibrate ch true = ((s.advanceTo (s.flashCh ch).dueTime).countErr 14).calibrated ch := by
  simp only [State.calibrate, hserves, beq_eq_false_iff_ne.2 hwindow, Bool.not_true, Bool.and_false, Bool.or_self, Bool.false_eq_true, if_false, if_true]
  rfl

theorem State.calLate_serves : s.calLate ch = ((s.advanceTo ((s.flashCh ch).dueTime + 10000000000)).modFlashCh ch fun k =>
    { k with calDue := true, calLate := true, dueAt := (s.flashCh ch).dueTime }).flsErr 7 := by
  simp only [State.calLate, hserves, Bool.not_true, Bool.false_eq_true, if_false]

end Serving

end Sys2Proof.Machine
end

section
/-! PROOFS. The statement of 11_flash_and_storage about background work and calibration. -/
namespace Sys2Proof.Machine

/-- Settles O45: each row does its work where its condition holds, and nothing where it does not. -/
theorem backgroundWorkAndCalibration : Obligations.BackgroundWorkAndCalibration := by
  intro s
  refine ⟨fun b v hback hsteep hcalm hold => ?_, fun _ hurgent => ?_, fun b v hback hfree hfirst hvictim => ?_, fun heven => ?_,
    fun b v n hback huneven hcold hfree => ?_, fun ch hserves => ⟨?_, fun hwindow => ?_, ?_⟩⟩
  · exact runs_settled (State.kiln_oldest hback hsteep hcalm hold)
  · exact runs_settled (State.kiln_urgent hurgent)
  · exact runs_settled (State.collect_victim hback hfree hfirst hvictim)
  · exact runs_settled (State.levelWear_even heven)
  · exact runs_settled (State.levelWear_uneven hback huneven hcold hfree)
  · exact runs_settled (State.calibrate_due hserves)
  · exact runs_settled (State.calibrate_forced hserves hwindow)
  · exact runs_settled (State.calLate_serves hserves)

end Sys2Proof.Machine
end

section
/-! SUPPORT. What the host's warnings leave alone, and what a carrier's rail, state, sensors and button change (R385, R425, R435, R661, R664). -/
namespace Sys2Proof.Machine

variable {s t u : State}

/-! ### Warnings to the host (R421, R523) -/

/-- Only the host port and what leaves the node differ. -/
def OnlyHost (s t : State) : Prop := t = { s with host := t.host, out := t.out }

theorem OnlyHost.trans (h : OnlyHost s t) (h' : OnlyHost t u) : OnlyHost s u := by
  unfold OnlyHost at *
  rw [h', h]

variable (s)

theorem State.onlyHost_fireIrq (v : Nat) : OnlyHost s (s.fireIrq v) := by
  unfold State.fireIrq
  split
  · rfl
  · split <;> rfl

theorem State.onlyHost_cqIrq (c : NvCq) : OnlyHost s (s.cqIrq c) := by
  unfold State.cqIrq
  split
  · rfl
  · dsimp only
    split
    · exact s.onlyHost_fireIrq _
    · split
      · exact OnlyHost.trans (by rfl) (State.onlyHost_fireIrq _ _)
      · rfl

theorem State.onlyHost_postCqe (sq : Nat) (cid : BitVec 16) (dw0 dw1 status : Nat) : OnlyHost s (s.postCqe sq cid dw0 dw1 status) := by
  unfold State.postCqe
  split
  · rfl
  · split
    · rfl
    · exact OnlyHost.trans (by rfl) (State.onlyHost_cqIrq _ _)

theorem State.onlyHost_shutCheck : OnlyHost s s.shutCheck := by
  unfold State.shutCheck
  split <;> rfl

theorem State.onlyHost_nvmeDone (sq : Nat) (cid : BitVec 16) (dw0 dw1 status : Nat) : OnlyHost s (s.nvmeDone sq cid dw0 dw1 status) :=
  (OnlyHost.trans (by rfl) (State.onlyHost_postCqe _ _ _ _ _ _)).trans (State.onlyHost_shutCheck _)

theorem State.onlyHost_asyncEvent (dw : BitVec 32) : OnlyHost s (s.asyncEvent dw) := by
  unfold State.asyncEvent
  split
  · exact OnlyHost.trans (by rfl) (State.onlyHost_nvmeDone _ _ _ _ _ _)
  · rfl

theorem State.onlyHost_smart : OnlyHost s s.smart := by
  unfold State.smart
  dsimp only
  split
  · rfl
  · exact OnlyHost.trans (by rfl) (State.onlyHost_asyncEvent _ _)

theorem State.onlyHost_smartTemp : OnlyHost s s.smartTemp := by
  unfold State.smartTemp
  dsimp only
  split
  · exact OnlyHost.trans (by rfl) (State.onlyHost_asyncEvent _ _)
  · rfl

/-! ### The rail and the state of a carrier (R425, R644) -/

variable {s} {c d : Nat}

theorem OnlyLogs.carrier (h : OnlyLogs s t) (d : Nat) : t.carrier d = s.carrier d := by
  rw [State.carrier, h.carriers, State.carrier]

@[simp] theorem State.carrier_setEn_same (s : State) (c : Nat) (on : Bool) :
    (s.setEn c on).carrier c = { s.carrier c with pwrEn := on, pgood := (s.carrier c).pgood && on } :=
  s.carrier_modCarrier_same c fun k => { k with pwrEn := on, pgood := k.pgood && on }

theorem State.carrier_setEn_ne (s : State) (on : Bool) (h : d ≠ c) : (s.setEn c on).carrier d = s.carrier d :=
  s.carrier_modCarrier_ne (fun k => { k with pwrEn := on, pgood := k.pgood && on }) h

@[simp] theorem State.mod_setEn (s : State) (c : Nat) (on : Bool) : (s.setEn c on).mod = { s.mod with kEn := bput s.mod.kEn c on } := rfl

@[simp] theorem State.carrier_setCar_same (s : State) (c : Nat) (st : CarState) : (s.setCar c st).carrier c = { s.carrier c with state := st } := by
  rw [State.setCar, State.carEvent, (State.onlyLogs_caskEvent _ _ _ _).carrier, State.carrier_modCarrier_same]
  rfl

theorem State.carrier_setCar_ne (s : State) (st : CarState) (h : d ≠ c) : (s.setCar c st).carrier d = s.carrier d := by
  rw [State.setCar, State.carEvent, (State.onlyLogs_caskEvent _ _ _ _).carrier, State.carrier_modCarrier_ne _ _ h]
  rfl

@[simp] theorem State.mod_setCar (s : State) (c : Nat) (st : CarState) :
    (s.setCar c st).mod = { s.mod with forcedBlue := bput s.mod.forcedBlue c false } := by
  rw [State.setCar, State.carEvent, (State.onlyLogs_caskEvent _ _ _ _).mod]
  rfl

/-- A slot's presence went away: its output may be switched on again, and nothing is seated (R425, R644). -/
def State.unseated (s : State) (c : Nat) : State :=
  { s with mod := { s.mod with kOff := bput s.mod.kOff c false, kOn := bput s.mod.kOn c true } }.modCarrier c fun k => { k with present := false }

/-- Without a loss to report, an unseated slot that is not serving goes off, forgets its carrier's identity and reads absent. -/
theorem State.prsntHigh_unserving (h : (s.carrier c).state = .safe ∨ (s.carrier c).state = .refused ∨ (s.carrier c).state = .failed) :
    s.prsntHigh c = (((s.unseated c).setEn c false).modCarrier c fun k => { k with ident := none }).setCar c .absent := by
  have hstate : ((s.unseated c).carrier c).state = (s.carrier c).state := by
    rw [State.unseated, State.carrier_modCarrier_same]
    rfl
  rw [← hstate] at h
  unfold State.prsntHigh
  dsimp only
  rw [← State.unseated]
  obtain h | h | h := h <;> rw [h]

/-! ### The two sensors of a carrier (R385, R435) -/

/-- The readings of the MODULE block and the carriers are as they were. -/
def SameSensors (s t : State) : Prop := t.mod = s.mod ∧ t.carriers = s.carriers

theorem SameSensors.trans (h : SameSensors s t) (h' : SameSensors t u) : SameSensors s u := ⟨h'.1.trans h.1, h'.2.trans h.2⟩

theorem OnlyLogs.sameSensors (h : OnlyLogs s t) : SameSensors s t := ⟨h.mod, h.carriers⟩

theorem OnlyHost.sameSensors (h : OnlyHost s t) : SameSensors s t := by
  unfold OnlyHost at h
  constructor <;> rw [h]

/-- A pause begins at a reading of `upper` or more, and ends below `lower` (R435). -/
def pauseHeld (upper lower reading : Int) (held : Bool) : Bool := if upper ≤ reading then true else if reading < lower then false else held

/-- The two readings of a carrier are kept, and its pauses follow the warmer one. -/
def State.carrierRead (s : State) (c : Nat) (a b : BitVec 8) : State :=
  ((s.setTemp (27 + 2 * c) a).setTemp (28 + 2 * c) b).modCarrier c fun k =>
    { k with pause75 := pauseHeld 75 70 (max a.toInt b.toInt) (s.carrier c).pause75, pause85 := pauseHeld 85 80 (max a.toInt b.toInt) (s.carrier c).pause85 }

/-- What else a reading of a carrier does, it does outside the MODULE block and the carriers: a record, calibrations that fall due, and warnings. -/
theorem State.carrierSensors_sameSensors (s : State) (c : Nat) (a b : BitVec 8) : SameSensors (s.carrierRead c a b) (s.carrierSensors c a b) := by
  have hreport (t : State) (began : Bool) (r : Report) : SameSensors t (if began then t.report r else t) := by
    split
    · exact (t.onlyLogs_report r).sameSensors
    · exact ⟨rfl, rfl⟩
  have hdue (t : State) (i : Nat) : SameSensors t (if (t.flashCh (4 * c + i)).trained && (max a.toInt b.toInt ≥ (t.flashCh (4 * c + i)).calTemp.toInt + 10 ||
      max a.toInt b.toInt ≤ (t.flashCh (4 * c + i)).calTemp.toInt - 10) then t.makeCalDue (4 * c + i) else t) := by
    split <;> exact ⟨rfl, rfl⟩
  have hdues (l : List Nat) (t : State) := And.intro (foldl_keeps State.mod (fun t i => (hdue t i).1) l t) (foldl_keeps State.carriers (fun t i => (hdue t i).2) l t)
  exact (((hreport (s.carrierRead c a b) _ _).trans (hdues (List.range 4) _)).trans (State.onlyHost_smart _).sameSensors).trans
    (State.onlyHost_smartTemp _).sameSensors

theorem State.carrierRead_now (s : State) (c : Nat) (a b : BitVec 8) :
    (s.carrierRead c a b).mod.now.get 0 (27 + 2 * c) = a ∧ (s.carrierRead c a b).mod.now.get 0 (28 + 2 * c) = b := by
  have hnow : (s.carrierRead c a b).mod.now = (s.mod.now.set 0 (27 + 2 * c) a).set 0 (28 + 2 * c) b := rfl
  rw [hnow, SMap.get_set_ne _ _ (by omega), SMap.get_set_same, SMap.get_set_same]
  exact ⟨rfl, rfl⟩

end Sys2Proof.Machine
end

section
/-! PROOFS. The statement of 11_flash_and_storage about carrier buttons, seats and sensors. -/
namespace Sys2Proof.Machine

variable {s : State}

/-- A press that has ended. -/
def State.released (s : State) (c : Nat) : State :=
  { s with mod := { s.mod with pressed := bput s.mod.pressed c false, pressAt := s.mod.pressAt.set 0 c 0 } }

theorem State.shortPress_eq (s : State) (c : Nat) : s.shortPress c = match (s.carrier c).state with
    | .online => (s.released c).requestRemoval c
    | .rebuilding => (s.released c).showRefusal c
    | .removal | .safe => (s.released c).cancelRemoval c
    | _ => s.released c := rfl

section Pressed
variable {carrier : Fin 8} (hlive : s.buttonsLive = true) (hpressed : s.mod.pressed.getLsbD carrier.val = true)
include hlive hpressed

theorem runs_shortPress (hsoon : s.time.up < s.mod.pressAt.get 0 carrier.val + 4000000000) {post : State → Prop} (h : post (s.shortPress carrier.val)) :
    RunsThen State.smart (exec (.shortPress carrier) s) post := by
  refine ⟨_, if_pos ?_, h⟩
  rw [hlive, hpressed, decide_eq_true hsoon]
  rfl

theorem runs_buttonHold {post : State → Prop} (h : post (s.buttonHold carrier.val)) : RunsThen State.smart (exec (.buttonHold carrier) s) post := by
  refine ⟨_, if_pos ?_, h⟩
  rw [hlive, hpressed]
  rfl

end Pressed

/-- Settles O47: a press acts by the state of its carrier, an unseated slot goes off, and a reading sets the pauses of its carrier. -/
theorem carrierButtonsAndSensors : Obligations.CarrierButtonsAndSensors := by
  intro s carrier c k released
  refine ⟨fun hlive => ⟨?_, fun hpressed hsoon => ⟨fun hst => ?_, fun hst => ?_, fun hst => ?_⟩, fun hpressed => ?_⟩, fun hst => ?_, fun a b => ⟨?_, ?_⟩⟩
  · exact ⟨_, if_pos hlive, rfl⟩
  · exact runs_shortPress hlive hpressed hsoon (by rw [State.shortPress_eq, hst]; rfl)
  · exact runs_shortPress hlive hpressed hsoon (by rw [State.shortPress_eq, hst]; rfl)
  · exact runs_shortPress hlive hpressed hsoon (by obtain hst | hst := hst <;> rw [State.shortPress_eq, hst] <;> rfl)
  · exact runs_buttonHold hlive hpressed rfl
  · refine runs_settled ?_
    rw [State.prsntHigh_unserving hst]
    have hbit (w : BitVec 8) (x : Bool) : (bput w c x).getLsbD c = x := by rw [getLsbD_bput _ _ _ _ carrier.isLt, if_pos rfl]
    refine ⟨by simp, ?_, by simp, by simp, ?_, ?_, fun d hd => ?_⟩
    · simp [State.unseated]
    · rw [State.mod_setCar]
      exact hbit _ _
    · rw [State.mod_setCar]
      exact hbit _ _
    · rw [State.carrier_setCar_ne _ _ hd, State.carrier_modCarrier_ne _ _ hd, State.carrier_setEn_ne _ _ hd, State.unseated,
        State.carrier_modCarrier_ne _ _ hd]
      rfl
  · obtain ⟨hmod, hcars⟩ := s.carrierSensors_sameSensors c a b
    obtain ⟨hnow_a, hnow_b⟩ := s.carrierRead_now c a b
    have hcar : (s.carrierSensors c a b).carrier c = (s.carrierRead c a b).carrier c := by rw [State.carrier, hcars, State.carrier]
    refine runs_settled ⟨hmod ▸ hnow_a, hmod ▸ hnow_b, ?_, ?_⟩
    · rw [hcar, State.carrierRead, State.carrier_modCarrier_same]
      rfl
    · rw [hcar, State.carrierRead, State.carrier_modCarrier_same]
      rfl
  · exact runs_settled rfl

end Sys2Proof.Machine
end

section
/-! SUPPORT. The channels of the fabric through the operations that links and frames share: what records leave of the clock, reads after writes of a
channel, and what frames and links leave of the composition (R443–R472). -/
namespace Sys2Proof.Machine

variable {s t u : State} {c : Nat}

/-! ### What records leave of the clock and of the counts (R20, R587, R608) -/

/-- A clock that only gave stamps: uptime has not gone back, and what the stamp unit does not move is as it was. -/
structure TimeBase.Stamped (a b : TimeBase) : Prop where
  up : a.up ≤ b.up
  node : b.node = a.node
  fault : b.fault = a.fault

theorem TimeBase.Stamped.refl (a : TimeBase) : a.Stamped a := ⟨le_rfl, rfl, rfl⟩

theorem TimeBase.Stamped.trans {a b d : TimeBase} (h : a.Stamped b) (h' : b.Stamped d) : a.Stamped d :=
  ⟨h.up.trans h'.up, h'.node.trans h.node, h'.fault.trans h.fault⟩

theorem State.stamped_takeStamp (s : State) : s.time.Stamped s.takeStamp.2.time := by
  unfold State.takeStamp
  dsimp only
  split
  · exact ⟨Nat.le_add_right _ _, rfl, rfl⟩
  · exact ⟨le_rfl, rfl, rfl⟩

theorem State.stamped_stampOrZero (s : State) : s.time.Stamped s.stampOrZero.2.time := by
  unfold State.stampOrZero
  split
  · exact s.stamped_takeStamp
  · exact ⟨le_rfl, rfl, rfl⟩

theorem State.stamped_logRecord (s : State) (r : Report) : s.time.Stamped (s.logRecord r).2.time := by
  have h := s.stamped_stampOrZero
  unfold State.logRecord
  extract_lets cls cnt merges
  split
  · exact .refl _
  · dsimp only
    split <;> exact h

theorem State.errCount_logRecord_ne (s : State) (r : Report) {cls : Nat} (hcls : cls ≠ r.cls) : (s.logRecord r).2.errCount cls = s.errCount cls := by
  have hcount : (s.flt.classCnt.modify 0 r.cls (· + 1)).get 0 cls = s.errCount cls := SMap.get_set_ne _ _ hcls
  have hstamp := s.stampOrZero_eq
  unfold State.logRecord
  dsimp only
  rw [hstamp]
  repeat' split
  all_goals exact hcount

/-- What a record of the capture changes: the logs, stamps taken, and of the counts of errors only that of the capture's own class (R609). -/
structure Captured (s t : State) : Prop where
  logs : OnlyLogs s t
  clock : s.time.Stamped t.time
  counts : ∀ cls ≠ 0x15, t.errCount cls = s.errCount cls

theorem Captured.trans (h : Captured s t) (h' : Captured t u) : Captured s u :=
  ⟨h.logs.trans h'.logs, h.clock.trans h'.clock, fun cls hcls => (h'.counts cls hcls).trans (h.counts cls hcls)⟩

/-- A change of the cask alone. -/
theorem captured_cask (s : State) (k : Cask) : Captured s { s with cask := k } := ⟨rfl, .refl _, fun _ _ => rfl⟩

theorem State.captured_caskClose (s : State) : Captured s s.caskClose := by
  unfold State.caskClose
  split <;> exact captured_cask _ _

theorem State.captured_caskPut (s : State) (typ part source : Nat) (body : Bytes) : Captured s (s.caskPut typ part source body) := by
  unfold State.caskPut
  extract_lets r used fits
  have hfits : Captured s fits := by
    unfold fits
    split
    · exact s.captured_caskClose
    · exact captured_cask _ _
  split
  · exact ((hfits.trans (captured_cask _ _)).trans (State.captured_caskClose _)).trans
      ⟨State.onlyLogs_logRecord _ _, State.stamped_logRecord _ _, fun cls hcls => State.errCount_logRecord_ne _ _ hcls⟩
  · exact hfits.trans (captured_cask _ _)

theorem State.captured_caskEvent (s : State) (part ev : Nat) (payload : Bytes) : Captured s (s.caskEvent part ev payload) := by
  unfold State.caskEvent State.caskRec
  split
  · exact s.captured_caskPut _ _ _ _
  · exact captured_cask _ _

/-- A report that names no partition is a record of the log alone. -/
theorem State.report_noPartition (s : State) {r : Report} (h : 32 ≤ r.part) : s.report r = (s.logRecord r).2 := by
  unfold State.report
  split
  next hrec =>
    rw [if_neg (by omega), hrec]
  next hrec => rw [hrec]

/-! ### Reads after writes of a channel -/

theorem OnlyLogs.comp (h : OnlyLogs s t) : t.comp = s.comp := by rw [h]

theorem OnlyLogs.chan (h : OnlyLogs s t) (c : Nat) : t.chan c = s.chan c := by
  rw [State.chan, State.chan, h]

/-- The write of a channel, without the EVENT of a change of its state. -/
def State.putChan (s : State) (c : Nat) (v : Chan) : State := { s with fab := { s.fab with chans := s.fab.chans.set Chan.reset c v } }

theorem State.captured_setChan (s : State) (c : Nat) (v : Chan) : Captured (s.putChan c v) (s.setChan c v) := by
  unfold State.setChan
  dsimp only
  split
  · exact captured_cask _ _
  · exact State.captured_caskEvent _ _ _ _

@[simp] theorem State.chan_setChan_same (s : State) (c : Nat) (v : Chan) : (s.setChan c v).chan c = v := by
  rw [(s.captured_setChan c v).logs.chan]
  exact SMap.get_set_same _ _ _

@[simp] theorem State.chan_modChan_same (s : State) (c : Nat) (f : Chan → Chan) : (s.modChan c f).chan c = f (s.chan c) := s.chan_setChan_same c _

@[simp] theorem State.comp_setChan (s : State) (c : Nat) (v : Chan) : (s.setChan c v).comp = s.comp := (s.captured_setChan c v).logs.comp

@[simp] theorem State.comp_modChan (s : State) (c : Nat) (f : Chan → Chan) : (s.modChan c f).comp = s.comp := s.comp_setChan c _

@[simp] theorem State.node_modChan (s : State) (c : Nat) (f : Chan → Chan) : (s.modChan c f).time.node = s.time.node :=
  (s.captured_setChan c _).clock.node

theorem State.up_modChan_le (s : State) (c : Nat) (f : Chan → Chan) : s.time.up ≤ (s.modChan c f).time.up := (s.captured_setChan c _).clock.up

theorem State.errCount_modChan (s : State) (c : Nat) (f : Chan → Chan) {cls : Nat} (hcls : cls ≠ 0x15) : (s.modChan c f).errCount cls = s.errCount cls :=
  (s.captured_setChan c _).counts cls hcls

theorem State.chan_report (s : State) (r : Report) (c : Nat) : (s.report r).chan c = s.chan c := (s.onlyLogs_report r).chan c

@[simp] theorem State.comp_report (s : State) (r : Report) : (s.report r).comp = s.comp := (s.onlyLogs_report r).comp

/-! ### Control frames (R446, R451, R456) -/

/-- A control frame depends on the node's identifier, the far end and the map. -/
theorem State.ctlFrame_congr (hnode : t.time.node = s.time.node) (hcomp : t.comp = s.comp) (hpeer : (t.chan c).peer = (s.chan c).peer) (typ : Nat)
    (payload : Bytes) : t.ctlFrame c typ payload = s.ctlFrame c typ payload := by
  unfold State.ctlFrame State.farNode State.epoch State.ownId
  rw [hnode, hcomp, hpeer]

@[simp] theorem State.chan_sendCtl (s : State) (c typ : Nat) (payload : Bytes) :
    (s.sendCtl c typ payload).chan c = { s.chan c with ctl := (s.chan c).ctl ++ [s.ctlFrame c typ payload] } := s.chan_modChan_same c _

@[simp] theorem State.comp_sendCtl (s : State) (c typ : Nat) (payload : Bytes) : (s.sendCtl c typ payload).comp = s.comp := s.comp_modChan c _

@[simp] theorem State.comp_sendInit (s : State) (c : Nat) : (s.sendInit c).comp = s.comp := s.comp_sendCtl c _ _

/-- The state of a channel, and all but its queue of control frames and the mark of unreported units, stay when it sends its credit. -/
theorem State.chan_sendCredit (s : State) (c : Nat) : (s.sendCredit c).chan c =
    { s.chan c with ctl := (s.chan c).ctl ++ [s.ctlFrame c 2 (((s.chan c).avail.map fun v => toLE 4 v.toNat).flatten)], unreported := false } := by
  simp [State.sendCredit]

/-! ### What keeps the composition unit -/

@[simp] theorem State.comp_enqueue (s : State) (c cls : Nat) (m : EgMsg) : (s.enqueue c cls m).comp = s.comp := by
  unfold State.enqueue
  dsimp only
  split
  · exact s.comp_setChan _ _
  · rfl

@[simp] theorem State.comp_leaveUp (s : State) (c : Nat) (next : ChState) : (s.leaveUp c next).comp = s.comp := by
  unfold State.leaveUp
  dsimp only
  rw [foldl_keeps State.comp]
  · exact s.comp_setChan _ _
  · intro t m
    repeat' split
    all_goals simp

@[simp] theorem State.comp_enterInit (s : State) (c : Nat) : (s.enterInit c).comp = s.comp := by
  unfold State.enterInit
  dsimp only
  rw [State.comp_sendInit, State.comp_modChan]
  split
  · exact s.comp_leaveUp c _
  · rfl

@[simp] theorem State.comp_reinit (s : State) (c : Nat) : (s.reinit c).comp = s.comp := by simp [State.reinit]

@[simp] theorem State.comp_rxDropped (s : State) (c : Nat) (bit : Option Nat) : (s.rxDropped c bit).comp = s.comp := by
  unfold State.rxDropped
  dsimp only
  split <;> simp

@[simp] theorem State.comp_freeUnits (s : State) (c cls u : Nat) : (s.freeUnits c cls u).comp = s.comp := s.comp_modChan c _

theorem State.comp_rxData (s : State) (c : Nat) (f : Bytes) (acct colour : Nat) (mac : BitVec 48) : (s.rxData c f acct colour mac).1.comp = s.comp := by
  unfold State.rxData
  dsimp only
  repeat' split
  all_goals simp

end Sys2Proof.Machine
end

section
/-! SUPPORT. Links: how a channel comes up and enters Init, and what a frame that a Galmel link takes does there (R443–R456). -/
namespace Sys2Proof.Machine

variable {s t : State} {c : Nat} {f : Bytes}

/-! ### A channel comes up, enters Init, or fails (R443, R444, R451) -/

theorem State.comeUp_up (s : State) (c : Nat) : ((s.comeUp c).chan c).state = .up ∧ ((s.comeUp c).chan c).lastRx = s.time.up ∧
    ((s.comeUp c).chan c).ackSeen = (s.chan c).ackSeen ∧
    ((s.comeUp c).chan c).avail = List.replicate 7 (BitVec.ofNat 32 (512 * (s.chan c).lanes)) ++ [0] := by
  unfold State.comeUp
  dsimp only
  split
  · rw [State.chan_modChan_same]
    exact ⟨rfl, rfl, rfl, rfl⟩
  · rw [State.chan_sendCredit, State.chan_modChan_same]
    exact ⟨rfl, rfl, rfl, rfl⟩

@[simp] theorem State.comp_comeUp (s : State) (c : Nat) : (s.comeUp c).comp = s.comp := by
  unfold State.comeUp
  dsimp only
  split <;> simp [State.sendCredit]

/-- A link that is not up enters Init with the next incarnation, and its INIT waits to go. -/
theorem State.enterInit_init (h : (s.chan c).state ≠ .up) : ((s.enterInit c).chan c).state = .init ∧
    ((s.enterInit c).chan c).incarnation = (s.chan c).incarnation + 1 ∧
    ((s.enterInit c).chan c).initSeen = false ∧ ((s.enterInit c).chan c).ackSeen = false ∧ ((s.enterInit c).chan c).ctl = (s.chan c).ctl ++
      [s.ctlFrame c 3 (linkPayload 1 (s.chan c).width.toNat ((s.chan c).incarnation + 1).toNat 0)] := by
  unfold State.enterInit State.sendInit
  dsimp only
  rw [if_neg (by simpa using h), State.chan_sendCtl, State.chan_modChan_same]
  refine ⟨rfl, rfl, rfl, rfl, ?_⟩
  dsimp only
  rw [State.ctlFrame_congr (s.node_modChan c _) (s.comp_modChan c _) (by rw [State.chan_modChan_same])]

theorem exec_linkTrained {ch : Fin 128} (h : (s.chan ch.val).state = .training) :
    exec (.linkTrained ch) s = settled (if (s.chan ch.val).eth then s.comeUp ch.val else s.enterInit ch.val) :=
  if_neg (by rw [h]; decide)

/-- A channel that is not up in time: it is failed, and the failure is reported. -/
theorem runs_trainingTimeout {ch : Fin 128} (h : (s.chan ch.val).state = .training ∨ (s.chan ch.val).state = .init) :
    Runs (exec (.trainingTimeout ch) s) fun u => (u.chan ch.val).state = .failed ∧
      max s.time.up ((s.chan ch.val).since + 2000000000) ≤ u.time.up ∧ u.errCount 0x0B = s.errCount 0x0B + 1 := by
  refine ⟨_, if_pos ?_, ?_, ?_, ?_⟩
  · obtain h | h := h <;> rw [h] <;> rfl
  · rw [State.chan_report, State.chan_modChan_same]
  · rw [State.report_noPartition _ (show 32 ≤ 0xFF by decide), ← State.advanceTo_up]
    exact (State.up_modChan_le _ _ _).trans (State.stamped_logRecord _ _).up
  · rw [State.report_noPartition _ (show 32 ≤ 0xFF by decide), (State.logRecord_eq _ _).2, State.errCount_modChan _ _ _ (show 0x0B ≠ 0x15 by decide)]
    rfl

/-! ### Frames that a link takes (R446–R450) -/

/-- A link has heard a frame (R452). -/
def State.heard (s : State) (c : Nat) : State := s.modChan c fun k => { k with lastRx := s.time.up }

@[simp] theorem State.chan_heard (s : State) (c : Nat) : (s.heard c).chan c = { s.chan c with lastRx := s.time.up } := s.chan_modChan_same c _

/-- What a link does with a frame that passed the checks of its header, by its type. -/
def State.rxTyped (s : State) (c : Nat) (f : Bytes) : State × Option Rx :=
  match fieldAt f 0 1 with
  | 1 => if (s.chan c).state == .up then s.rxData c f (s.acctLen c (fieldAt f 2 2)) (bitsOf (fieldAt f 1 1) 5 4) 0 else (s, none)
  | 2 => (if (s.chan c).state == .up then s.rxCredit c f else s, none)
  | 3 => (s.rxLink c f, none)
  | _ => (s.modChan c fun k => { k with lastPtp := slice f 32 (fieldAt f 2 2) }, none)

/-- A frame without a map epoch says nothing of one (R489). -/
theorem State.sawEpoch_zero (s : State) (src : Nat) : s.sawEpoch 0 src = s := by simp [State.sawEpoch]

theorem TakesFrame.rxGalmel_eq (h : TakesFrame s c f) : s.rxGalmel c f false = (s.heard c).rxTyped c f := by
  obtain ⟨_, _, heth, hstate, hlen, hcrc, hheader, hdest, hepoch⟩ := h
  have hlive : (s.chan c).state = .up ∨ (s.chan c).state = .init := hstate.imp_right And.left
  have hshort : ¬ f.length < 32 := by omega
  have hother : ¬ (fieldAt f 0 1 ≠ 3 ∧ fieldAt f 6 2 ≠ s.ownId.toNat) := by tauto
  unfold State.rxGalmel
  rw [if_neg (by simpa [heth, or_iff_not_imp_left] using hlive), if_neg (by simp), if_neg (by simp [hcrc, hshort]), if_neg (by simp [hheader]),
    if_neg (by simpa using hother), hepoch]
  dsimp only
  rw [State.sawEpoch_zero]
  rfl

theorem State.comp_rxLink (s : State) (c : Nat) (f : Bytes) : (s.rxLink c f).comp = s.comp := by
  unfold State.rxLink
  dsimp only
  repeat' split
  all_goals simp

theorem State.comp_rxTyped (s : State) (c : Nat) (f : Bytes) : (s.rxTyped c f).1.comp = s.comp := by
  unfold State.rxTyped
  split
  · split
    · exact s.comp_rxData _ _ _ _ _
    · rfl
  · dsimp only
    split
    · exact s.comp_modChan _ _
    · rfl
  · exact s.comp_rxLink c f
  · exact s.comp_modChan _ _

/-- What a channel received, a complete message handed on. -/
def State.handAny (r : State × Option Rx) : State :=
  match r.2 with
  | some m => r.1.handOn m
  | none => r.1

@[simp] theorem State.handAny_none (s : State) : State.handAny (s, none) = s := rfl

/-- Frames that leave the composition unit as it was, while the node fetches no map, confirm and fetch none (R489, R490). -/
theorem State.afterEpoch_same (hwanted : s.comp.wanted = none) (hcomp : t.comp = s.comp) : t.afterEpoch s = t := by
  unfold State.afterEpoch
  rw [if_neg (by simp [hcomp]), State.fetchNow, hcomp, hwanted]

theorem State.galmelIn_eq (hin : s.inputStopped = false) (hwanted : s.comp.wanted = none) {errored : Bool}
    (hcomp : (s.rxGalmel c f errored).1.comp = s.comp) : s.galmelIn c f errored = State.handAny (s.rxGalmel c f errored) := by
  unfold State.galmelIn
  rw [if_neg (by simp [hin])]
  dsimp only
  rw [State.afterEpoch_same hwanted hcomp]
  rfl

section Taken
variable (h : TakesFrame s c f)
include h

theorem TakesFrame.galmelIn_eq : s.galmelIn c f false = State.handAny ((s.heard c).rxTyped c f) := by
  have heq := h.rxGalmel_eq
  obtain ⟨hin, hwanted, -⟩ := h
  rw [State.galmelIn_eq hin hwanted, heq]
  rw [heq, State.comp_rxTyped, State.heard, State.comp_modChan]

theorem TakesFrame.galmelIn_link (htype : fieldAt f 0 1 = 3) : s.galmelIn c f false = (s.heard c).rxLink c f := by
  rw [h.galmelIn_eq, State.rxTyped, htype]
  rfl

theorem TakesFrame.galmelIn_time (htype : fieldAt f 0 1 = 4) :
    s.galmelIn c f false = (s.heard c).modChan c fun k => { k with lastPtp := slice f 32 (fieldAt f 2 2) } := by
  rw [h.galmelIn_eq, State.rxTyped, htype]
  rfl

theorem TakesFrame.state_up (htype : fieldAt f 0 1 ≠ 3) : (s.chan c).state = .up := by
  obtain ⟨_, _, _, hstate, -⟩ := h
  exact hstate.resolve_right fun hinit => htype hinit.2

theorem TakesFrame.galmelIn_credit (htype : fieldAt f 0 1 = 2) : s.galmelIn c f false = (s.heard c).rxCredit c f := by
  have hup := h.state_up (by omega)
  rw [h.galmelIn_eq]
  simp [State.rxTyped, htype, hup]

theorem TakesFrame.galmelIn_data (htype : fieldAt f 0 1 = 1) : s.galmelIn c f false = State.handAny
    ((s.heard c).rxData c f ((s.heard c).acctLen c (fieldAt f 2 2)) (bitsOf (fieldAt f 1 1) 5 4) 0) := by
  have hup := h.state_up (by omega)
  rw [h.galmelIn_eq]
  simp [State.rxTyped, htype, hup]

end Taken

/-! ### The kinds of frame (R446, R451) -/

/-- What the kind of a frame says of its type, and of the subtype of a LINK frame. -/
def KindSays (typ sub : Nat) : FrameKind → Prop
  | .credit => typ = 2
  | .init => typ = 3 ∧ sub = 1
  | .ack => typ = 3 ∧ sub = 2
  | .keepalive => typ = 3 ∧ sub = 3
  | .time => typ = 4
  | .other => True

theorem frameKind_says (f : Bytes) : KindSays (fieldAt f 0 1) (fieldAt (slice f 32 32) 0 1) (frameKind f) := by
  have hsub : fieldAt (slice f 32 32) 0 1 = fieldAt f 32 1 := by simp [fieldAt, slice, List.take_take]
  rw [hsub]
  unfold frameKind
  split <;> simp_all [KindSays]

theorem frameKind_data (htype : fieldAt f 0 1 = 1) : frameKind f = .other := by
  unfold frameKind
  rw [htype]
  rfl

theorem runs_galmel {k : FrameKind} (hk : frameKind f = k) {post : State → Prop} (h : post (s.galmelIn c f false)) :
    Runs (presented (frameKind f == k) (settled (s.galmelIn c f false))) post := by
  rw [hk, beq_self_eq_true]
  exact runs_settled h

/-! ### LINK frames (R451, R452) -/

/-- The fields of a LINK payload that R451 fixes. -/
def LinkFixed (f : Bytes) : Prop :=
  fieldAt (slice f 32 32) 1 1 = 1 ∧ fieldAt (slice f 32 32) 3 1 = 0 ∧ allZero (slice (slice f 32 32) 12 20) = true

section Link
variable (hfixed : LinkFixed f)
include hfixed

theorem State.rxLink_keepalive (hsub : fieldAt (slice f 32 32) 0 1 = 3) (hecho : fieldAt (slice f 32 32) 8 4 = 0) : s.rxLink c f = s := by
  obtain ⟨hversion, hreserved, hzero⟩ := hfixed
  simp [State.rxLink, hversion, hreserved, hzero, hsub, hecho]

section Heard
variable {k : Chan} {n : Nat} (hk : s.chan c = { k with lastRx := n }) (hstate : k.state = .init)
include hk hstate

/-- An INIT of the link's width: an INIT_ACK that echoes its incarnation waits to go, and the link has seen the peer's INIT. -/
theorem State.chan_rxLink_init (hsub : fieldAt (slice f 32 32) 0 1 = 1) (hecho : fieldAt (slice f 32 32) 8 4 = 0) (hack : k.ackSeen = false)
    (hwidth : fieldAt (slice f 32 32) 2 1 = k.width.toNat) {w : Chan} (hw : w = { s.chan c with peer := BitVec.ofNat 16 (fieldAt f 4 2) }) :
    (s.rxLink c f).chan c = { w with
      ctl := k.ctl ++ [(s.setChan c w).ctlFrame c 3 (linkPayload 2 k.width.toNat k.incarnation.toNat (fieldAt (slice f 32 32) 4 4))], initSeen := true } := by
  obtain ⟨hversion, hreserved, hzero⟩ := hfixed
  subst hw
  simp [State.rxLink, hversion, hreserved, hzero, hsub, hecho, hk, hstate, hack, hwidth]

/-- An INIT_ACK that echoes the incarnation in force, after the peer's INIT, brings the link up with full credit limits. -/
theorem State.chan_rxLink_ack (hsub : fieldAt (slice f 32 32) 0 1 = 2) (hinit : k.initSeen = true)
    (hecho : fieldAt (slice f 32 32) 8 4 = k.incarnation.toNat) : ((s.rxLink c f).chan c).state = .up ∧ ((s.rxLink c f).chan c).ackSeen = true ∧
      ((s.rxLink c f).chan c).avail = List.replicate 7 (BitVec.ofNat 32 (512 * k.lanes)) ++ [0] := by
  obtain ⟨hversion, hreserved, hzero⟩ := hfixed
  have heq : s.rxLink c f = (s.setChan c { s.chan c with ackSeen := true }).comeUp c := by
    simp [State.rxLink, hversion, hreserved, hzero, hsub, hecho, hk, hstate, hinit]
  have hlanes : ({ s.chan c with ackSeen := true } : Chan).lanes = k.lanes := by rw [hk]; rfl
  obtain ⟨hup, -, hseen, havail⟩ := (s.setChan c { s.chan c with ackSeen := true }).comeUp_up c
  rw [State.chan_setChan_same] at hseen havail
  rw [heq]
  exact ⟨hup, hseen, hlanes ▸ havail⟩

end Heard

end Link

end Sys2Proof.Machine
end

section
/-! PROOFS. The statement of 12_fabric about links. -/
namespace Sys2Proof.Machine

/-- Settles O49: each row of a link's life does its work in the state it is for, and a frame that the link takes acts by its kind. -/
theorem linksTrainInitialiseAndFail : Obligations.LinksTrainInitialiseAndFail := by
  intro s ch c k
  refine ⟨fun engine hon => ?_, fun engine => runs_settled rfl, fun hstate heth => ?_, fun hstate heth => ?_, fun hstate => runs_trainingTimeout hstate,
    fun hstate hdetect => ?_, fun hstate => ?_, fun hstate => ?_, fun hstate heth => ⟨?_, ?_, ?_⟩, fun f htakes => ?_⟩
  · exact ⟨_, if_neg (by rw [hon]; exact Bool.false_ne_true), rfl⟩
  · rw [exec_linkTrained hstate, if_pos heth]
    obtain ⟨hup, hheard, -⟩ := s.comeUp_up c
    exact runs_settled ⟨hup, hheard⟩
  · rw [exec_linkTrained hstate, if_neg (ne_true_of_eq_false heth)]
    exact runs_settled (State.enterInit_init (by rw [hstate]; decide))
  · exact ⟨_, if_pos (by rw [hstate, hdetect]; rfl), rfl⟩
  · exact ⟨_, if_pos (by rw [hstate]; rfl), rfl⟩
  · exact ⟨_, if_pos (by rw [hstate]; rfl), rfl⟩
  · exact ⟨_, if_pos (by rw [hstate, heth]; rfl), rfl⟩
  · exact ⟨_, if_pos (by rw [hstate, heth]; rfl), rfl⟩
  · refine ⟨_, if_pos (by rw [hstate, heth]; rfl), ?_⟩
    have hchan := s.chan_sendCredit c
    exact ⟨congrArg Chan.ctl hchan, congrArg Chan.unreported hchan⟩
  · intro t p fixed
    have hkind := frameKind_says f
    have hk : (s.heard c).chan c = { k with lastRx := s.time.up } := s.chan_heard c
    refine ⟨fun hkeep hfixed hecho => ?_, fun hcredit => ?_, fun htime => ?_, fun hinit hfixed hecho hstate hack hwidth => ?_,
      fun hack hfixed hstate hinit hecho => ?_⟩
    · rw [hkeep] at hkind
      refine runs_galmel hkeep ?_
      rw [htakes.galmelIn_link hkind.1, State.rxLink_keepalive hfixed hkind.2 hecho]
      rfl
    · rw [hcredit] at hkind
      refine runs_galmel hcredit ?_
      rw [htakes.galmelIn_credit hkind, State.rxCredit, State.chan_modChan_same, State.chan_heard]
    · rw [htime] at hkind
      refine runs_galmel htime ?_
      rw [htakes.galmelIn_time hkind, State.chan_modChan_same, State.chan_heard]
    · rw [hinit] at hkind
      refine runs_galmel hinit ?_
      rw [htakes.galmelIn_link hkind.1]
      exact State.chan_rxLink_init hfixed hk hstate hkind.2 hecho hack hwidth rfl
    · rw [hack] at hkind
      refine runs_galmel hack ?_
      rw [htakes.galmelIn_link hkind.1]
      exact State.chan_rxLink_ack hfixed hk hstate hkind.2 hinit hecho

end Sys2Proof.Machine
end

section
/-! SUPPORT. Egress of a channel: which frame goes at a frame boundary, and what weighted fair queueing selects (R470–R472). -/
namespace Sys2Proof.Machine

variable {s : State} {c : Nat}

/-! ### The queue that weighted fair queueing selects (R471) -/

/-- One queue looked at: an eligible one is the best so far where there is none, or where its finish tag is lower. -/
def State.wfqStep (s : State) (c : Nat) (best : Option Nat) (q : Nat) : Option Nat :=
  if s.eligible c q then
    let t := ((nth (s.chan c).queues q {}).headTag).getD 0
    match best with
    | none => some q
    | some b => if (t - ((nth (s.chan c).queues b {}).headTag).getD 0).toInt < 0 then some q else best
  else best

theorem State.wfqPick_eq (s : State) (c : Nat) : s.wfqPick c = ((List.range 8).drop 1).foldl (s.wfqStep c) none := rfl

/-- Where something is best after a step, it was the best before, or it is the queue looked at, and eligible. -/
theorem State.wfqStep_some {best : Option Nat} {q b : Nat} (h : s.wfqStep c best q = some b) : best = some b ∨ (q = b ∧ s.eligible c q = true) := by
  unfold State.wfqStep at h
  split at h
  next helig =>
    cases best with
    | none => exact .inr ⟨Option.some.inj h, helig⟩
    | some b' =>
      dsimp only at h
      split at h
      · exact .inr ⟨Option.some.inj h, helig⟩
      · exact .inl h
  next => exact .inl h

/-- Where nothing is best after a step, nothing was before, and the queue looked at is not eligible. -/
theorem State.wfqStep_none {best : Option Nat} {q : Nat} (h : s.wfqStep c best q = none) : best = none ∧ s.eligible c q = false := by
  unfold State.wfqStep at h
  split at h
  next =>
    cases best with
    | none => cases h
    | some b =>
      dsimp only at h
      split at h <;> cases h
  next helig => exact ⟨h, Bool.eq_false_of_not_eq_true helig⟩

theorem State.foldl_wfqStep_some {l : List Nat} {best : Option Nat} {b : Nat} (h : l.foldl (s.wfqStep c) best = some b) :
    best = some b ∨ (b ∈ l ∧ s.eligible c b = true) := by
  induction l generalizing best with
  | nil => exact .inl h
  | cons q l ih =>
    obtain hbest | ⟨hmem, helig⟩ := ih h
    · obtain hbest | ⟨rfl, helig⟩ := State.wfqStep_some hbest
      · exact .inl hbest
      · exact .inr ⟨List.mem_cons_self, helig⟩
    · exact .inr ⟨List.mem_cons_of_mem _ hmem, helig⟩

theorem State.foldl_wfqStep_none {l : List Nat} {best : Option Nat} (h : l.foldl (s.wfqStep c) best = none) :
    best = none ∧ ∀ q ∈ l, s.eligible c q = false := by
  induction l generalizing best with
  | nil => exact ⟨h, fun _ hq => absurd hq List.not_mem_nil⟩
  | cons q l ih =>
    obtain ⟨hbest, hrest⟩ := ih h
    obtain ⟨hbest, hq⟩ := State.wfqStep_none hbest
    exact ⟨hbest, List.forall_mem_cons.2 ⟨hq, hrest⟩⟩

theorem mem_wfqQueues {q : Nat} : q ∈ (List.range 8).drop 1 ↔ 1 ≤ q ∧ q < 8 := by
  simp [List.range_eq_range']

theorem State.wfqPick_some {q : Nat} (h : s.wfqPick c = some q) : 1 ≤ q ∧ q < 8 ∧ s.eligible c q = true := by
  obtain hnone | ⟨hmem, helig⟩ := State.foldl_wfqStep_some (s.wfqPick_eq c ▸ h)
  · cases hnone
  · obtain ⟨hone, height⟩ := mem_wfqQueues.1 hmem
    exact ⟨hone, height, helig⟩

theorem State.wfqPick_none (h : s.wfqPick c = none) {q : Nat} (hone : 1 ≤ q) (height : q < 8) : s.eligible c q = false :=
  (State.foldl_wfqStep_none (s.wfqPick_eq c ▸ h)).2 q (mem_wfqQueues.2 ⟨hone, height⟩)

/-! ### The next frame of a channel (R470) -/

/-- With no base left to record and no segment that waits, the cask sends nothing (R606). -/
theorem State.caskExport_idle (hbase : s.cask.base = []) (hring : s.cask.ring = []) : s.caskExport = s := by
  have hfill : s.baseFill 4 = s := by
    rw [State.baseFill, hbase]
  unfold State.caskExport
  dsimp only
  rw [hfill, hring]
  exact ite_self s

section Egress
variable (hbase : s.cask.base = []) (hring : s.cask.ring = [])
include hbase hring

theorem State.egress_ctl {a : Bytes} {l : List Bytes} (hstate : (s.chan c).state = .up ∨ (s.chan c).state = .init) (hctl : (s.chan c).ctl = a :: l) :
    s.egress c = (s.setChan c { s.chan c with ctl := l, lastTx := s.time.up }).emit (.frame c a) := by
  unfold State.egress
  rw [State.caskExport_idle hbase hring]
  dsimp only
  rw [if_neg (by obtain h | h := hstate <;> rw [h] <;> decide), hctl]

variable (hup : (s.chan c).state = .up) (hctl : (s.chan c).ctl = [])
include hup hctl

theorem State.egress_time {a : Bytes} {l : List Bytes} (htime : (s.chan c).timeq = a :: l) :
    s.egress c = (s.setChan c { s.chan c with timeq := l, lastTx := s.time.up }).emit (.frame c a) := by
  unfold State.egress
  rw [State.caskExport_idle hbase hring]
  dsimp only
  rw [if_neg (by rw [hup]; decide), hctl]
  dsimp only
  rw [if_neg (by rw [hup]; decide), htime]

/-- With no control frame and no TIME frame, an eligible queue 0 goes before what weighted fair queueing selects. -/
theorem State.egress_queues (htime : (s.chan c).timeq = []) : s.egress c =
    if (s.refreshTags c).eligible c 0 then (s.refreshTags c).sendHead c 0
    else (((s.refreshTags c).wfqPick c).map ((s.refreshTags c).sendHead c)).getD (s.refreshTags c) := by
  unfold State.egress
  rw [State.caskExport_idle hbase hring]
  dsimp only
  rw [if_neg (by rw [hup]; decide), hctl]
  dsimp only
  rw [if_neg (by rw [hup]; decide), htime]
  dsimp only
  split
  · rfl
  · cases (s.refreshTags c).wfqPick c with
    | none => rw [Option.map_none, Option.getD_none]
    | some q => rw [Option.map_some, Option.getD_some]

variable (htime : (s.chan c).timeq = [])
include htime

theorem State.egress_first (hzero : (s.refreshTags c).eligible c 0 = true) : s.egress c = (s.refreshTags c).sendHead c 0 := by
  rw [State.egress_queues hbase hring hup hctl htime, if_pos hzero]

theorem State.egress_fair (hzero : (s.refreshTags c).eligible c 0 = false) {q : Nat} (hpick : (s.refreshTags c).wfqPick c = some q) :
    s.egress c = (s.refreshTags c).sendHead c q := by
  rw [State.egress_queues hbase hring hup hctl htime, if_neg (ne_true_of_eq_false hzero), hpick, Option.map_some, Option.getD_some]

theorem State.egress_none (hzero : (s.refreshTags c).eligible c 0 = false) (hpick : (s.refreshTags c).wfqPick c = none) :
    s.egress c = s.refreshTags c := by
  rw [State.egress_queues hbase hring hup hctl htime, if_neg (ne_true_of_eq_false hzero), hpick, Option.map_none, Option.getD_none]

end Egress

end Sys2Proof.Machine
end

section
/-! PROOFS. The statement of 12_fabric about frames, messages and egress. -/
namespace Sys2Proof.Machine

variable {s : State} {c : Nat} {f : Bytes}

/-! ### Frames that a channel drops (R450, R462) -/

theorem State.chan_rxDropped (s : State) (c : Nat) (bit : Option Nat) : (s.rxDropped c bit).chan c =
    { s.chan c with rxDrop := (s.chan c).rxDrop + 1, err := match bit with | some b => bput (s.chan c).err b true | none => (s.chan c).err } := by
  unfold State.rxDropped
  dsimp only
  split
  · exact (State.chan_report _ _ _).trans (s.chan_modChan_same c _)
  · exact s.chan_modChan_same c _

theorem State.rxGalmel_errored (heth : (s.chan c).eth = false) (hstate : (s.chan c).state = .up ∨ (s.chan c).state = .init) :
    s.rxGalmel c f true = ((s.rxDropped c (some 0)).reinit c, none) := by
  unfold State.rxGalmel
  dsimp only
  rw [if_neg (by simpa [heth, or_iff_not_imp_left] using hstate), if_pos rfl]

section Ethernet
variable (heth : (s.chan c).eth = true) (hup : (s.chan c).state = .up)
include heth hup

theorem State.rxEthernet_badFcs (h : f.length < 64 ∨ fcs (f.take (f.length - 4)) ≠ fieldAt f (f.length - 4) 4) :
    s.rxEthernet c f = (s.rxDropped c (some 4), none) := by
  unfold State.rxEthernet
  dsimp only
  rw [if_neg (by simp [heth, hup]), if_pos (by simpa using h)]

theorem State.rxEthernet_elsewhere (hlen : 64 ≤ f.length) (hfcs : fcs (f.take (f.length - 4)) = fieldAt f (f.length - 4) 4)
    (hown : beNat (slice f 0 6) ≠ (s.fab.mac + BitVec.ofNat 48 c).toNat) (hptp : beNat (slice f 0 6) ≠ 0x011B19000000)
    (hpeer : beNat (slice f 0 6) ≠ 0x0180C200000E) : s.rxEthernet c f = (s.rxDropped c none, none) := by
  have hshort : ¬ f.length < 64 := by omega
  have hother : (beNat (slice f 0 6) == (s.fab.mac + BitVec.ofNat 48 c).toNat ||
      (beNat (slice f 0 6) == 0x011B19000000 || beNat (slice f 0 6) == 0x0180C200000E)) = false := by
    rw [beq_eq_false_iff_ne.2 hown, beq_eq_false_iff_ne.2 hptp, beq_eq_false_iff_ne.2 hpeer]
    rfl
  unfold State.rxEthernet
  dsimp only
  rw [if_neg (by simp [heth, hup]), if_neg (by simp [hshort, hfcs]), hother, if_pos (by simp)]

end Ethernet

theorem State.etherIn_eq (hin : s.inputStopped = false) (hwanted : s.comp.wanted = none) (hcomp : (s.rxEthernet c f).1.comp = s.comp) :
    s.etherIn c f = State.handAny (s.rxEthernet c f) := by
  unfold State.etherIn
  rw [if_neg (by simp [hin])]
  dsimp only
  rw [State.afterEpoch_same hwanted hcomp]
  rfl

/-- An Ethernet frame that is dropped. -/
theorem runs_etherDropped {ch : Fin 128} (hin : s.inputStopped = false) (hwanted : s.comp.wanted = none) {bit : Option Nat}
    (hdrop : s.rxEthernet ch.val f = (s.rxDropped ch.val bit, none)) : Runs (exec (.ethernetFrame ch f) s) fun u => u = s.rxDropped ch.val bit := by
  have hcomp : (s.rxEthernet ch.val f).1.comp = s.comp := by rw [hdrop, State.comp_rxDropped]
  refine runs_settled ?_
  rw [State.etherIn_eq hin hwanted hcomp, hdrop, State.handAny_none]

/-! ### Messages that stay incomplete (R462) -/

theorem runs_reassemblyTimeout {ch : Fin 128} {src : BitVec 16} {cls : BitVec 3} {mid : BitVec 16} {r : Reasm} (heth : (s.chan ch.val).eth = true)
    (hfind : (s.chan ch.val).reasm.find? (fun r => r.src == src && r.cls == cls && r.mid == mid) = some r) {post : State → Prop}
    (h : post ((((s.advanceTo (r.since + 1000000)).modChan ch.val fun k =>
      { k with reasm := k.reasm.filter fun r => !(r.src == src && r.cls == cls && r.mid == mid) }).freeUnits ch.val cls.toNat r.units).rxDropped ch.val (some 2))) :
    Runs (exec (.reassemblyTimeout ch src cls mid) s) post := by
  change Runs (execReassemblyTimeout ch src cls mid s) post
  unfold execReassemblyTimeout
  dsimp only
  rw [if_neg (by simp [heth]), hfind]
  exact runs_settled h

/-- Settles O50: frames that are dropped, segments that join their message, and the order in which a channel's frames go. -/
theorem framesMessagesAndEgress : Obligations.FramesMessagesAndEgress := by
  intro s ch f c k
  refine ⟨fun hin hwanted heth hstate => ?_, fun htakes _ htype => ?_, fun hin hwanted heth hup hbad => ?_,
    fun hin hwanted heth hup hlen hfcs hown hptp hpeer => ?_, s.chan_rxDropped c, fun src cls mid r heth hfind => ?_,
    fun hbase hring => ⟨fun a l hstate hctl => ?_, fun a l hup hctl htime => ?_, fun hup hctl htime => ?_⟩,
    fun queue => ⟨fun hrate hcredit => ?_, fun hgo => ?_⟩⟩
  · have hrx : s.rxGalmel c f true = ((s.rxDropped c (some 0)).reinit c, none) := State.rxGalmel_errored heth hstate
    refine runs_settled (u := s.galmelIn c f true) ?_
    rw [State.galmelIn_eq hin hwanted (by rw [hrx, State.comp_reinit, State.comp_rxDropped]), hrx, State.handAny_none]
  · refine runs_galmel (frameKind_data htype) ?_
    rw [htakes.galmelIn_data htype]
    rfl
  · exact runs_etherDropped hin hwanted (State.rxEthernet_badFcs heth hup hbad)
  · exact runs_etherDropped hin hwanted (State.rxEthernet_elsewhere heth hup hlen hfcs hown hptp hpeer)
  · exact runs_reassemblyTimeout heth hfind rfl
  · exact runs_settled (State.egress_ctl hbase hring hstate hctl)
  · exact runs_settled (State.egress_time hbase hring hup hctl htime)
  · refine ⟨fun hzero => ?_, fun q hzero hpick => ?_, fun hzero hpick => ?_⟩
    · exact runs_settled (State.egress_first hbase hring hup hctl htime hzero)
    · exact runs_settled ⟨State.egress_fair hbase hring hup hctl htime hzero hpick, State.wfqPick_some hpick⟩
    · refine runs_settled ⟨State.egress_none hbase hring hup hctl htime hzero hpick, fun q hq => ?_⟩
      obtain rfl | hone := Nat.eq_zero_or_pos q
      · exact hzero
      · exact State.wfqPick_none hpick hone hq
  · exact ⟨_, if_neg (by simpa using And.intro hrate hcredit), rfl⟩
  · exact ⟨_, if_pos (by simpa using hgo), rfl⟩

end Sys2Proof.Machine
end

section
/-! PROOFS. The statement of 12_fabric about rack time. -/
namespace Sys2Proof.Machine

variable {s : State} {c master : Nat} {offset freq : Int}

/-! ### A sync message (R466, R467) -/

/-- Sync intervals in a row within 20 ns, the one just measured among them. -/
def State.goodAfter (s : State) (offset : Int) : Nat := if -20 ≤ offset ∧ offset ≤ 20 then s.time.good + 1 else 0

/-- The clock follows a master on a channel: it slews against the offset that was measured. -/
def State.slewed (s : State) (c : Nat) (offset freq : Int) : State :=
  { s with time := { s.time with good := s.goodAfter offset, syncAt := s.time.up, offset := sat16 offset, port := BitVec.ofNat 7 c, via := true,
                                 slew := slewOf offset, freq := freq } }

/-- The report of an offset beyond 1 ms (R467). -/
def offsetReport (c : Nat) (offset : Int) : Report := { cls := 0x0D, kind := 7, unit := c, loc := (BitVec.ofInt 64 offset).toNat, detail := c }

/-- The clock slews, and an offset beyond 1 ms after the first stamp is a fault that is reported. -/
def State.measured (s : State) (c : Nat) (offset freq : Int) : State :=
  if s.time.issued = true ∧ (1000000 < offset ∨ offset < -1000000) then
    State.report { s.slewed c offset freq with time := { (s.slewed c offset freq).time with fault := true } } (offsetReport c offset)
  else s.slewed c offset freq

theorem State.synced_locked (hstate : s.time.state = .locked) : s.synced c master offset freq =
    if -100 ≤ offset ∧ offset ≤ 100 then s.measured c offset freq
    else { s.measured c offset freq with time := { (s.measured c offset freq).time with state := .holdover, good := 0 } } := by
  unfold State.synced State.measured State.slewed State.goodAfter
  simp only [hstate, Bool.and_eq_true, Bool.or_eq_true, decide_eq_true_eq, gt_iff_lt]
  rfl

theorem State.synced_unlocked (hstate : s.time.state ≠ .locked) : s.synced c master offset freq =
    if 16 ≤ s.goodAfter offset then (s.measured c offset freq).lockTo master else s.measured c offset freq := by
  unfold State.synced State.measured State.slewed State.goodAfter
  simp only [Bool.and_eq_true, Bool.or_eq_true, decide_eq_true_eq, gt_iff_lt, ge_iff_le]
  cases h : s.time.state with
  | locked => exact absurd h hstate
  | free => rfl
  | holdover => rfl

theorem State.measured_within (h : s.time.issued = false ∨ (-1000000 ≤ offset ∧ offset ≤ 1000000)) : s.measured c offset freq = s.slewed c offset freq :=
  if_neg fun ⟨hissued, hbeyond⟩ => by
    obtain h | h := h
    · rw [h] at hissued
      cases hissued
    · omega

theorem State.measured_beyond (hissued : s.time.issued = true) (h : offset < -1000000 ∨ 1000000 < offset) :
    (s.measured c offset freq).time.fault = true ∧ (s.measured c offset freq).errCount 0x0D = s.errCount 0x0D + 1 := by
  unfold State.measured
  rw [if_pos ⟨hissued, h.symm⟩, State.report_noPartition _ (show 32 ≤ 0xFF by decide)]
  exact ⟨(State.stamped_logRecord _ _).fault, (State.logRecord_eq _ (offsetReport c offset)).2⟩

/-- An offset beyond 1 ms neither locks nor keeps the lock: the fault and its report are what a sync message leaves. -/
theorem State.synced_beyond (hissued : s.time.issued = true) (h : offset < -1000000 ∨ 1000000 < offset) :
    (s.synced c master offset freq).time.fault = true ∧ (s.synced c master offset freq).errCount 0x0D = s.errCount 0x0D + 1 := by
  have hmeasured : (s.measured c offset freq).time.fault = true ∧ _ := State.measured_beyond hissued h
  by_cases hstate : s.time.state = .locked
  · rw [State.synced_locked hstate, if_neg (by omega)]
    exact hmeasured
  · have hgood : s.goodAfter offset = 0 := if_neg (by omega)
    rw [State.synced_unlocked hstate, if_neg (by omega)]
    exact hmeasured

theorem runs_ptpSync {ch : Fin 128} {m : BitVec 64} (hup : (s.chan ch.val).state = .up) {post : State → Prop}
    (h : post (s.synced ch.val m.toNat offset freq)) : Runs (exec (.ptpSync ch m offset freq) s) post :=
  ⟨_, if_pos (by rw [hup]; rfl), h⟩

theorem slewOf_bounds (o : Int) : -500 ≤ slewOf o ∧ slewOf o ≤ 500 ∧ (0 ≤ o → slewOf o ≤ 0) ∧ (o ≤ 0 → 0 ≤ slewOf o) := by
  have hnonneg (h : 0 ≤ o) : 0 ≤ o.tdiv 2 := Int.tdiv_nonneg h (by decide)
  have hneg (h : o ≤ 0) : 0 ≤ -o.tdiv 2 := Int.neg_tdiv o 2 ▸ Int.tdiv_nonneg (Int.neg_nonneg_of_nonpos h) (by decide)
  unfold slewOf
  omega

/-! ### Intervals without a message, and announce intervals (R464, R466) -/

theorem runs_syncTimeout (s : State) {t : State} (ht : t = s.advanceTo (s.time.syncAt + 187500000)) : Runs (exec .syncTimeout s) fun u =>
    u = { t with time := { t.time with state := if t.time.state = .locked then .holdover else t.time.state, via := false, port := 0x7F, good := 0, slew := 0 } } := by
  subst ht
  refine runs_settled ?_
  generalize s.advanceTo (s.time.syncAt + 187500000) = t
  cases t.time.state <;> rfl

/-- The clock's messages of a kind go out on every channel that is up. -/
def State.sentPtp (s : State) (kind : Nat) : State :=
  ((s.fab.chans.filter fun e => e.2.state == .up).map fun e => e.1).foldl (fun t c => t.emit (.ptp c kind)) s

theorem exec_syncInterval (kind : Fin 3) (s : State) : exec (.syncInterval kind) s =
    if kind.val != 1 || s.time.via then settled (s.sentPtp kind)
    else if s.fab.self then (if s.time.state == .locked then settled (s.sentPtp kind) else settled ((s.sentPtp kind).lockTo s.time.setTo.toNat))
    else if s.time.state == .locked then settled { s.sentPtp kind with time := { (s.sentPtp kind).time with state := .holdover } }
    else settled (s.sentPtp kind) := by
  have htime : (s.sentPtp kind).time = s.time := foldl_keeps State.time (f := fun t c => t.emit (.ptp c kind.val)) (fun _ _ => rfl) _ s
  have hfab : (s.sentPtp kind).fab = s.fab := foldl_keeps State.fab (f := fun t c => t.emit (.ptp c kind.val)) (fun _ _ => rfl) _ s
  rw [← htime, ← hfab]
  rfl

/-! ### The first lock (R467, R668) -/

theorem State.firstLock_rack {target f : Nat} (hfirst : s.time.lockedOnce = false) (hissued : s.time.issued = false) (hfloor : s.time.floor = some f)
    (htarget : target < 2 ^ 64) (hf : f + 1 < 2 ^ 64) :
    (s.firstLock target).rack = (if f = 0 then target else max target (f + 1)) ∧ (s.firstLock target).time.lockedOnce = true := by
  unfold State.firstLock
  rw [hfirst, hissued, hfloor]
  refine ⟨?_, rfl⟩
  by_cases hzero : f = 0
  · simpa [State.rack, hzero] using htarget
  · simpa [State.rack, hzero] using And.intro htarget hf

/-- Once a stamp has been issued, no lock steps rack time. -/
theorem State.firstLock_issued (hissued : s.time.issued = true) (target : Nat) : (s.firstLock target).rack = s.rack := by
  unfold State.firstLock
  split
  · rfl
  · simp [State.rack]

/-- Settles O51: a sync message acts by the state of the clock and the offset, and the first lock alone steps rack time. -/
theorem rackTimeLocksHoldsAndSlews : Obligations.RackTimeLocksHoldsAndSlews := by
  intro s
  refine ⟨fun ch master offset freq hup => ⟨fun hwithin => ⟨fun hstate hlo hhi => ?_, fun hstate hfar => ?_, fun hstate hfew => ?_, fun hstate hmany => ?_⟩,
    fun hissued hbeyond => ?_⟩, slewOf_bounds, runs_syncTimeout s rfl, fun kind => ⟨fun hother => ?_, fun hkind hvia hself hstate => ?_,
    fun hkind hvia hself hstate => ?_⟩, fun _ _ hfirst hissued hfloor htarget hf => State.firstLock_rack hfirst hissued hfloor htarget hf,
    fun _ hissued => State.firstLock_issued hissued _⟩
  · refine runs_ptpSync hup ?_
    rw [State.synced_locked hstate, if_pos ⟨hlo, hhi⟩, State.measured_within hwithin]
    rfl
  · refine runs_ptpSync hup ?_
    rw [State.synced_locked hstate, if_neg (by omega), State.measured_within hwithin]
    rfl
  · refine runs_ptpSync hup ?_
    rw [State.synced_unlocked hstate, if_neg (show ¬ 16 ≤ s.goodAfter offset from Nat.not_le_of_lt hfew), State.measured_within hwithin]
    rfl
  · refine runs_ptpSync hup ?_
    rw [State.synced_unlocked hstate, if_pos (show 16 ≤ s.goodAfter offset from hmany), State.measured_within hwithin]
    rfl
  · exact runs_ptpSync hup (State.synced_beyond hissued hbeyond)
  · rw [exec_syncInterval, if_pos (by simpa using hother)]
    exact runs_settled rfl
  · rw [exec_syncInterval, if_neg (by simp [hkind, hvia]), if_pos hself, if_neg (by simpa using hstate)]
    exact runs_settled rfl
  · rw [exec_syncInterval, if_neg (by simp [hkind, hvia]), if_neg (ne_true_of_eq_false hself), if_pos (by simpa using hstate)]
    exact runs_settled rfl

end Sys2Proof.Machine
end

section
/-! PROOFS. The statements about one step: every command that hardware could present settles, and what settles has its gates open (R558). -/
namespace Sys2Proof.Machine

/-! ### Every command that hardware could present settles -/

theorem presented_stops {ok : Bool} (h : ok = false) (r : Res) : presented ok r = .fault .illFormed := by rw [h, presented_false]

/-- The outcome is the end of a command: a state whose gates are opened. -/
def Settles (r : Res) : Prop := ∃ u, r = settled u

theorem settles_settled (u : State) : Settles (settled u) := ⟨u, rfl⟩

theorem Settles.presented {r : Res} (hr : Settles r) {ok : Bool} (h : ok = true) : Settles (presented ok r) := by
  rw [h, presented_true]
  exact hr

theorem Settles.ite {c : Prop} [Decidable c] {a b : Res} (ha : Settles a) (hb : Settles b) : Settles (if c then a else b) := by
  split <;> assumption

/-- Both outcomes of the lookup of an index settle. The lookup stays abstract, so that the kernel does not run it. -/
theorem settles_lookup (find : Part → Nat → Option Desc × State) (part : Fin 32) (index : Fin 16) (s : State) : Settles (
    match s.part? part.val with
    | none => settled s
    | some p =>
      let r := find p index.val
      match r.1 with
      | none => settled r.2
      | some x => settled (if s.dirDue p index.val x then s.dirMergeNow p index.val x else s)) := by
  cases s.part? part.val with
  | none => exact settles_settled _
  | some p =>
    dsimp only
    cases (find p index.val).1 with
    | none => exact settles_settled _
    | some x => exact settles_settled _

/-- A command that hardware could present ends in a state whose gates are opened: each arm of `exec` settles on each of its branches. -/
theorem exec_settles (i : Instr) (s : State) (h : i.wf = true) : Settles (exec i s) := by
  cases i with
  | adoptionExpiry | shortPress | buttonHold | fibreDetect | linkTrained | trainingTimeout | trainingRetry | lockLoss | initRepeat | keepaliveSend
  | linkRxTimeout | creditSend | ptpSync | confirmFetch | sequencerResetRelease | referenceLoss | rootPllLoss | mapCheckpoint | pressBegin
  | auxPllLoss | shaperEligible =>
    exact .ite (settles_settled _) (settles_settled _)
  | pldmFirmwareUpdate | referenceCheckEnd | resetHoldEnd =>
    exact .ite (settles_settled _) (.ite (settles_settled _) (settles_settled _))
  | syncInterval =>
    exact .ite (settles_settled _) (.ite (.ite (settles_settled _) (settles_settled _)) (.ite (settles_settled _) (settles_settled _)))
  | directoryMerge part index =>
    change Settles (execDirectoryMerge part index s)
    rw [execDirectoryMerge]
    exact settles_lookup s.useIndex part index s
  | stripeClose | carrierPresent | carrierPgoodTimeout | setFormation | reassemblyTimeout | mapFetchRepeat | claimRepeat | partitionResetEnd
  | carrierOvercurrent | aggregationTime | pllLock =>
    dsimp only [exec, execStripeClose, execCarrierPresent, execCarrierPgoodTimeout, execSetFormation, execReassemblyTimeout, execMapFetchRepeat,
      execClaimRepeat, execPartitionResetEnd, execCarrierOvercurrent, execAggregationTime, execPllLock]
    repeat' split
    all_goals exact settles_settled _
  | registerWrite | bitAliasWrite | registerAccessRead | registerAccessWrite | load | store | amo | lr | sc | fence | nvmeRead | nvmeWrite
  | nvmeFlush | nvmeWriteZeroes | datasetManagement | nvmeVerify | dataFrame | credit | linkInit | initAck | keepalive | timeFrame | ccEnClear
  | ccEnSet | ccShn | executeProgram | loadProgram | inputLowEnd | busFlushTrigger | memoryRead | memoryWrite | memoryRangeSetCreate
  | memoryRangeSetDelete | busCollapse | converterStart | thermalSample | oeCool | bypass | pcieLinkUp =>
    exact (settles_settled _).presented h
  | programActivationManagement | inputLow | inputReturn | busHigh | carrierPowerExcess =>
    refine Settles.presented ?_ h
    repeat' split
    all_goals exact settles_settled _
  | _ => exact settles_settled _

/-- A command that hardware could not present stops (assumption 8). -/
theorem exec_illFormed (i : Instr) (s : State) (h : i.wf = false) : exec i s = .fault .illFormed := by
  cases i with
  | registerWrite | bitAliasWrite | registerAccessRead | registerAccessWrite | load | store | amo | lr | sc | fence | nvmeRead | nvmeWrite
  | nvmeFlush | nvmeWriteZeroes | datasetManagement | nvmeVerify | dataFrame | credit | linkInit | initAck | keepalive | timeFrame | ccEnClear
  | ccEnSet | ccShn | executeProgram | loadProgram | memoryRead | memoryWrite | memoryRangeSetCreate | memoryRangeSetDelete | busCollapse
  | converterStart | thermalSample | oeCool | bypass | pcieLinkUp | programActivationManagement | inputLow | inputLowEnd | busFlushTrigger
  | inputReturn | busHigh | carrierPowerExcess => exact presented_stops h _
  | _ => exact nomatch h

/-! ### The gates at the end of a command -/

/-- The end of a command leaves no closed gate over what is in use (R558). -/
theorem gatesOpen_openGates (s : State) : GatesOpen s.openGates := by
  intro n hn v hv
  rw [State.openGates_inUse]
  unfold State.openGates at hn
  split at hn
  · next hempty => simp [List.isEmpty_iff.mp hempty] at hn
  · simpa [hv] using (List.mem_filter.mp hn).2

theorem Settles.gatesOpen {r : Res} (h : Settles r) {t : State} (ht : r = .next t) : GatesOpen t := by
  obtain ⟨u, rfl⟩ := h
  rw [settled_eq, Host.Outcome.next.injEq] at ht
  exact ht ▸ gatesOpen_openGates u

/-- A replay that does not run goes nowhere. -/
theorem State.replayOn_idle {s : State} (h : s.cask.state ≠ 4) : s.replayOn = s := by
  unfold State.replayOn
  cases s.cask.todo.length with
  | zero => rfl
  | succ fuel => exact if_pos (bne_iff_ne.mpr h)

theorem TimeBase.advance_up (t : TimeBase) (runs : Bool) (dt : Nat) : (t.advance runs dt).up = t.up + dt := by
  cases runs <;> rfl

theorem step_idle {s : State} (h : s.pending = []) : step s = settled (s.advance 1).replayOn := by rw [step, h]

theorem step_command {s : State} {c : Instr} {rest : List Instr} (h : s.pending = c :: rest) : step s = exec c { s with pending := rest } := by
  rw [step, h]

/-- Settles O1: the front of the queue decides which branch of a step runs. -/
theorem stepRunsFrontCommand : Obligations.StepRunsFrontCommand := fun _ _ _ => step_command

/-- Settles O2: without a replay the idle step is the advance of the time base. -/
theorem idleStepPassesOneNanosecond : Obligations.IdleStepPassesOneNanosecond := by
  intro s hpending hcask
  have hreplay : (s.advance 1).cask.state ≠ 4 := hcask
  rw [step_idle hpending, State.replayOn_idle hreplay]
  exact runs_settled ⟨rfl, TimeBase.advance_up _ _ _⟩

/-- Settles O3: what hardware could present settles, and what it could not is ill-formed. -/
theorem wellFormedCommandsRun : Obligations.WellFormedCommandsRun := by
  intro i s
  refine ⟨fun h => ?_, exec_illFormed i s⟩
  obtain ⟨u, hu⟩ := exec_settles i s h
  exact ⟨u.openGates, hu⟩

/-- Settles O5: a step that answers a next state settled, and the end of a command opens the gates over what is in use. -/
theorem stepKeepsGatesOpen : Obligations.StepKeepsGatesOpen := by
  intro s t _ ht
  cases hpending : s.pending with
  | nil => exact (settles_settled _).gatesOpen (step_idle hpending ▸ ht)
  | cons c rest =>
    rw [step_command hpending] at ht
    cases hwf : c.wf with
    | true => exact (exec_settles c _ hwf).gatesOpen ht
    | false =>
      rw [exec_illFormed c _ hwf] at ht
      cases ht

end Sys2Proof.Machine
end


section
/-! PROOFS. The statements of 15_clocks_and_reset about losses of the clocks, tap switches, software gates and module resets. -/
namespace Sys2Proof.Machine

variable {s : State}

/-! ### One word by a path -/

/-- While the registers answer, a row that is a register's write is that register's write, unrecorded (R11, R608). -/
theorem State.regVia_live (h : Live s) (path : RegPath) (off v : Nat) (r : Reads) : s.regVia path off v r = s.regWrite off (BitVec.ofNat 32 v) r := by
  rw [State.regVia, State.spaceWrite, State.viaReg_live h]

/-- A row that is the write of a register is that write in the register's block (R572). -/
theorem State.regVia_block (h : Live s) (path : RegPath) {off v : Nat} {b : Block} (hb : windowBlock off = some b) (hv : v < 2 ^ 32) (r : Reads) :
    s.regVia path off v r = s.blockWrite b (off % 65536 / 4 * 4) v r := by
  rw [State.regVia_live h, State.regWrite_block hb, BitVec.toNat_ofNat, Nat.mod_eq_of_lt hv]

/-! ### Module resets (R559, R560) -/

/-- The state that a module reset leaves: the domains held, the cause recorded and counted, what runs cleared, what is kept as it was. -/
structure ModuleHeld (s : State) (cause : BitVec 4) (u : State) : Prop where
  phase : u.clk.phase = .resetHold
  rootLock : u.clk.rootLock = s.clk.rootLock
  mgmtOnAux : u.clk.mgmtOnAux = (cause == 4)
  rst : u.rst = { cause := cause, modCnt := s.rst.modCnt + 1 }
  pwr : u.pwr = { vin := s.pwr.vin, state := if s.pwr.state == 1 then 1 else 0 }
  pwrKept : u.pwrKept = s.pwrKept
  pins : u.pins = s.pins
  grist : u.grist = {}
  cores : u.cores = []
  queues : u.queues = []
  dram : u.dram = []
  coreSram : u.coreSram = []
  tileSram : u.tileSram = []
  pending : u.pending = s.pending

/-- The losses of a reset touch only the composition block, the staging buffers, the media and the journal (R508, R633). -/
theorem State.resetLosses_eq (s : State) (gone : Bool) : ∃ c m st d,
    State.loseLends (if gone then s.loseReserve else s) (fun _ => true) = { s with comp := c, media := m, staged := st, dur := d } := by
  unfold State.loseLends
  split <;> cases gone <;> exact ⟨_, _, _, _, rfl⟩

theorem State.resetNow_held (s : State) (cause : BitVec 4) : ModuleHeld s cause (s.resetNow cause) := by
  obtain ⟨c, m, st, d, hlost⟩ := s.resetLosses_eq (s.reserveDown || s.media.reserveLost)
  unfold State.resetNow
  dsimp only
  rw [hlost]
  exact ⟨rfl, rfl, rfl, rfl, rfl, rfl, rfl, rfl, rfl, rfl, rfl, rfl, rfl, rfl⟩

/-- A module reset that nothing bars is performed at once (R560, R562). -/
theorem State.moduleReset_now (hup : s.clk.phase = .up) (hoff : s.pwr.off = false) (hflush : s.pwr.state ≠ 2) (cause : BitVec 4) :
    s.moduleReset cause = s.resetNow cause := by
  have hruns : (s.modResetRuns || s.pwr.off) = false := by simp [State.modResetRuns, hup, hoff]
  rw [State.moduleReset, if_neg (ne_true_of_eq_false hruns), if_neg (by simpa using hflush)]

theorem State.regsLive_of_up (hup : s.clk.phase = .up) (hoff : s.pwr.off = false) : s.regsLive = true := by
  simp [State.regsLive, hup, hoff]

theorem State.timeRuns_of_up (hup : s.clk.phase = .up) (hoff : s.pwr.off = false) : s.timeRuns = true := by
  simp [State.timeRuns, hup, hoff]

theorem Powered.not_flushing (h : Powered s) : s.pwr.state ≠ 2 := by
  obtain ⟨-, hlt⟩ := h
  rintro h2
  simp [h2] at hlt

/-- The key of RST_MODULE asks for the reset with cause 2. -/
theorem State.regVia_rstModule (h : Live s) (path : RegPath) : s.regVia path rstModuleAt 0x4D52 = s.moduleReset 2 := by
  rw [State.regVia_block (b := .reset) h path rfl (by decide)]
  rfl

/-- The hold ends with both PLLs locked: the start goes on at training, on default taps. -/
theorem State.leaveHold_locked (hroot : s.clk.rootLock = true) (haux : s.clk.auxLock = true) : s.leaveHold = s.domainsUp := by
  simp [State.leaveHold, hroot, haux]

theorem exec_resetHoldEnd (hhold : s.clk.phase = .resetHold) :
    exec .resetHoldEnd s = if s.pins.resetN then settled s.leaveHold else settled { s with rst := { s.rst with holdOver := true } } :=
  if_neg (by rw [hhold]; decide)

/-- RESET_N goes high after the hold's end: the start goes on (R653). -/
theorem exec_resetNRelease (hhold : s.clk.phase = .resetHold) (hover : s.rst.holdOver = true) (hroot : s.clk.rootLock = true)
    (haux : s.clk.auxLock = true) :
    exec .resetNRelease s = settled (State.domainsUp { s with pins := { s.pins with resetN := true }, jtag := s.jtag.released }) :=
  congrArg settled ((if_pos (by rw [hhold, hover]; rfl)).trans (State.leaveHold_locked hroot haux))

theorem exec_managementResetRequest (h : s.regsLive = true) : exec .managementResetRequest s = settled (s.moduleReset 3) :=
  congrArg settled (if_pos h)

/-- Settles O9: the three requests reach `resetNow`, and the hold's end reaches `leaveHold` once RESET_N is high. -/
theorem moduleResetsHoldAndRelease : Obligations.ModuleResetsHoldAndRelease := by
  intro s
  refine ⟨fun hup hpow hcask => ?_, fun hhold hroot haux => ⟨fun hhigh => ?_, fun hlow => ?_, fun hover => ?_⟩⟩
  · intro held
    have hreset (x : State) (cause : BitVec 4) (hx : x = { s with pins := x.pins }) : held cause (x.moduleReset cause) := by
      have hclk : x.clk = s.clk := by rw [hx]
      have hpwr : x.pwr = s.pwr := by rw [hx]
      rw [State.moduleReset_now (by rw [hclk, hup]) (by rw [hpwr, hpow.1]) (by rw [hpwr]; exact hpow.not_flushing)]
      obtain ⟨hphase, -, -, hrst, -, hkept, -, hgrist, hcores, hqueues, hdram, hcsram, htsram, hpending⟩ := x.resetNow_held cause
      have hsame : x.rst = s.rst ∧ x.pwrKept = s.pwrKept ∧ x.pending = s.pending := by rw [hx]; exact ⟨rfl, rfl, rfl⟩
      obtain ⟨hxrst, hxkept, hxpending⟩ := hsame
      exact ⟨hphase, by rw [hrst], by rw [hrst, hxrst], hkept.trans hxkept, hcores, hqueues, hgrist, hdram, hcsram, htsram, hpending.trans hxpending⟩
    have hlive : Live s := ⟨State.regsLive_of_up hup hpow.1, hcask⟩
    refine ⟨runs_settled (hreset _ 1 rfl), fun path => ?_, ?_⟩
    · exact runs_settled (State.regVia_rstModule hlive path ▸ hreset s 2 rfl)
    · rw [exec_managementResetRequest hlive.1]
      exact runs_settled (hreset s 3 rfl)
  · rw [exec_resetHoldEnd hhold, if_pos hhigh, State.leaveHold_locked hroot haux]
    exact runs_settled ⟨rfl, rfl⟩
  · rw [exec_resetHoldEnd hhold, if_neg (ne_true_of_eq_false hlow)]
    exact runs_settled rfl
  · rw [exec_resetNRelease hhold hover hroot haux]
    exact runs_settled ⟨rfl, rfl⟩

/-! ### Losses of the reference and of a PLL (R544, R554) -/

/-- A report of a fault of the clocks: the clocks, cores and resets stay, and the class is counted. -/
theorem State.report_clocks (s : State) {r : Report} (hpart : 32 ≤ r.part) :
    OnlyReports s (s.report r) ∧ (s.report r).errCount r.cls = s.errCount r.cls + 1 := by
  rw [State.report_noPartition s hpart]
  exact s.logRecord_eq r

/-- The domains that run from the root PLL without its lock: management and the stacks, on the auxiliary PLL (R554). -/
def State.onAux (s : State) : State :=
  let t := { s with clk := { s.clk with rootLock := false, mgmtOnAux := true } }
  (List.range 16).foldl (fun (s : State) (k : Nat) => s.useTap (99 + k) 8) (t.useTap 163 9)

/-- The fields of the clocks that the switch of a tap leaves. -/
theorem State.onAux_eq (s : State) : ∃ d, s.onAux = { s with clk := { s.clk with rootLock := false, mgmtOnAux := true, doms := d } } := by
  have hfold (l : List Nat) : ∀ t : State, ∃ d,
      l.foldl (fun (s : State) (k : Nat) => s.useTap (99 + k) 8) t = { t with clk := { t.clk with doms := d } } := by
    induction l with
    | nil => exact fun t => ⟨_, rfl⟩
    | cons k l ih => exact fun t => ih (t.useTap (99 + k) 8)
  exact hfold _ (State.useTap { s with clk := { s.clk with rootLock := false, mgmtOnAux := true } } 163 9)

theorem exec_rootPllLoss (h : s.timeRuns = true) : exec .rootPllLoss s =
    settled ((s.onAux.report { cls := 0x0C, kind := 9, unit := 163, loc := 163 }).moduleReset 4) :=
  if_neg (by rw [State.clockRuns, h]; decide)

theorem exec_referenceLoss (h : s.timeRuns = true) : exec .referenceLoss s =
    settled (State.report { s with clk := { s.clk with refLost := true, holdover := true } } { cls := 0x0C, cause := 3, kind := 10 }) :=
  if_neg (by rw [State.clockRuns, h]; decide)

theorem exec_auxPllLoss (h : s.timeRuns = true) : exec .auxPllLoss s = settled
    (State.report { s with clk := { s.clk with auxLock := false, auxUnlock := true } } { cls := 0x0C, cause := 4, kind := 9, unit := 164, loc := 164 }) :=
  if_neg (by rw [State.clockRuns, h]; decide)

/-- A flag of the clocks is set and reported: the rest is as it was. -/
theorem runs_clockReport (s : State) (k : Clk) {r : Report} (hpart : 32 ≤ r.part) (hcls : r.cls = 0x0C) :
    Runs (settled (State.report { s with clk := k } r)) fun u =>
      u.clk = k ∧ u.errCount 0x0C = s.errCount 0x0C + 1 ∧ u.cores = s.cores ∧ u.rst = s.rst := by
  obtain ⟨honly, hcount⟩ := State.report_clocks { s with clk := k } hpart
  rw [hcls] at hcount
  exact runs_settled ⟨by rw [honly], hcount, by rw [honly], by rw [honly]⟩

/-- Settles O7: the losses are reports that leave the rest, and that of the root PLL is followed by the reset that `resetNow` performs. -/
theorem referenceAndPllLosses : Obligations.ReferenceAndPllLosses := by
  intro s
  refine ⟨fun hruns => ?_, runs_settled rfl, fun hruns => ?_, fun hup hoff hflush => ?_⟩
  · rw [exec_referenceLoss hruns]
    exact runs_clockReport s _ (by decide) rfl
  · rw [exec_auxPllLoss hruns]
    exact runs_clockReport s _ (by decide) rfl
  · rw [exec_rootPllLoss (State.timeRuns_of_up hup hoff)]
    obtain ⟨d, haux⟩ := s.onAux_eq
    obtain ⟨honly, -⟩ := s.onAux.report_clocks (r := { cls := 0x0C, kind := 9, unit := 163, loc := 163 }) (by decide)
    generalize s.onAux.report { cls := 0x0C, kind := 9, unit := 163, loc := 163 } = t at honly
    have hclk : t.clk = { s.clk with rootLock := false, mgmtOnAux := true, doms := d } := by rw [honly, haux]
    have hpwr : t.pwr = s.pwr := by rw [honly, haux]
    have hrst : t.rst = s.rst := by rw [honly, haux]
    rw [State.moduleReset_now (by rw [hclk]; exact hup) (by rw [hpwr, hoff]) (by rwa [hpwr])]
    have hheld := t.resetNow_held 4
    refine runs_settled ⟨hheld.phase, by rw [hheld.rootLock, hclk], hheld.mgmtOnAux, by rw [hheld.rst], by rw [hheld.rst, hrst]⟩

/-! ### Tap switches (R545, R546, R552) -/

/-- The selection of a domain just set. -/
theorem State.dom_setDom_same (s : State) (d : Nat) (v : DomClk) : (s.setDom d v).clk.dom d = v := SMap.get_set_same _ _ _

/-- Another domain's selection is as before, though each domain has its own default. -/
theorem State.dom_setDom_ne (s : State) {d e : Nat} (v : DomClk) (h : e ≠ d) : (s.setDom d v).clk.dom e = s.clk.dom e := by
  unfold Clk.dom State.setDom SMap.set
  split
  · exact SMap.get_erase_ne _ h
  · exact SMap.get_insert_ne _ _ h

/-- A tap is written for the selected domain. -/
theorem exec_tapSwitch (h : Live s) (path : RegPath) (tap : BitVec 4) : exec (.tapSwitch path tap) s = settled (s.tapWrite tap) := by
  change settled (s.regVia path clkSrcSelAt tap.toNat) = _
  rw [State.regVia_block (b := .clock) h path rfl (by omega)]
  change settled (s.tapWrite (BitVec.ofNat 4 tap.toNat)) = _
  rw [BitVec.ofNat_toNat, BitVec.setWidth_eq]

section TapWrite
variable {tap : BitVec 4}

theorem State.tapWrite_pends (hoffered : tapOffered s.clk.selDom tap.toNat = true) (hpend : (s.clk.dom s.clk.selDom).pend = false) :
    s.tapWrite tap = s.setDom s.clk.selDom { s.clk.dom s.clk.selDom with tap := tap, pend := true } := by
  simp [State.tapWrite, hoffered, hpend]

theorem State.tapWrite_busy (hoffered : tapOffered s.clk.selDom tap.toNat = true) (hpend : (s.clk.dom s.clk.selDom).pend = true) :
    s.tapWrite tap = { s with clk := { s.clk with swBusy := true, swDom := BitVec.ofNat 8 s.clk.selDom } } := by
  simp [State.tapWrite, hoffered, hpend]

theorem State.tapWrite_noTap (hoffered : tapOffered s.clk.selDom tap.toNat = false) :
    s.tapWrite tap = { s with clk := { s.clk with swNoTap := true, swDom := BitVec.ofNat 8 s.clk.selDom } } := by
  simp [State.tapWrite, hoffered]

end TapWrite

section PendingSwitch
variable {d : Nat} (hpend : (s.clk.dom d).pend = true)
include hpend

theorem State.tapReady_completes (hready : s.clk.tapReady (s.clk.dom d).tap.toNat = true) :
    s.tapReady d = s.setDom d { s.clk.dom d with cur := (s.clk.dom d).tap, pend := false } := by
  simp [State.tapReady, hpend, hready]

theorem State.tapTimeout_abandons (hready : s.clk.tapReady (s.clk.dom d).tap.toNat = false) :
    s.tapTimeout d = { s.setDom d { s.clk.dom d with pend := false } with
      clk := { (s.setDom d { s.clk.dom d with pend := false }).clk with swTimeout := true, swDom := BitVec.ofNat 8 d } } := by
  simp [State.tapTimeout, hpend, hready]

end PendingSwitch

/-! ### Software gates (R556, R557) -/

theorem mem_insNat (l : List Nat) (n : Nat) : n ∈ insNat l n := by
  induction l with
  | nil => simp [insNat]
  | cons x xs ih =>
    unfold insNat
    split
    · exact List.mem_cons_self
    · split
      · next hx => exact hx ▸ List.mem_cons_self
      · exact List.mem_cons_of_mem _ ih

/-- A gate is written over the selected node. -/
theorem exec_gateWrite (h : Live s) (path : RegPath) (on : Bool) : exec (.gateWrite path on) s = settled (s.gateWrite on) := by
  change settled (s.regVia path clkGateAt (b2n on)) = _
  rw [State.regVia_block (b := .clock) h path rfl ((b2n_lt on).trans (by decide))]
  change settled (s.gateWrite ((b2n on).testBit 0)) = _
  rw [testBit_b2n_zero]

section GateWrite
variable {v : TreeNode} (hv : treeNode s.clk.gateSel.toNat = some v)
include hv

theorem State.gateWrite_closes (hidle : s.inUse v = false) :
    s.gateWrite true = { s with clk := { s.clk with gates := insNat s.clk.gates s.clk.gateSel.toNat } } := by
  simp [State.gateWrite, hv, hidle]

theorem State.gateWrite_refused (huse : s.inUse v = true) :
    s.gateWrite true = { s with clk := { s.clk with gateRefused := true, gateNode := s.clk.gateSel } } := by
  simp [State.gateWrite, hv, huse]

theorem State.gateWrite_opens :
    s.gateWrite false = { s with clk := { s.clk with gates := s.clk.gates.filter (· != s.clk.gateSel.toNat) } } := by
  simp [State.gateWrite, hv]

end GateWrite

/-- Settles O8: each clause is one outcome of the write of a tap or of a gate, or of the end of a pending switch. -/
theorem tapSwitchesAndSoftwareGates : Obligations.TapSwitchesAndSoftwareGates := by
  intro s path h
  refine ⟨fun tap => ?_, fun dom hpend => ⟨fun hready => ?_, fun hready => ?_⟩, fun v hv => ?_⟩
  · rw [exec_tapSwitch h]
    refine ⟨fun hoffered hpend => ?_, fun hoffered hpend => ?_, fun hoffered => ?_⟩
    · rw [State.tapWrite_pends hoffered hpend]
      exact runs_settled ⟨State.dom_setDom_same _ _ _, fun e => State.dom_setDom_ne _ _, rfl⟩
    · exact runs_settled (State.tapWrite_busy hoffered hpend)
    · exact runs_settled (State.tapWrite_noTap hoffered)
  · exact runs_settled ⟨by rw [State.tapReady_completes hpend hready, State.dom_setDom_same], by rw [State.tapReady_completes hpend hready]; rfl⟩
  · rw [show exec (.tapTimeout dom) s = settled (s.tapTimeout dom.val) from rfl, State.tapTimeout_abandons hpend hready]
    exact runs_settled ⟨State.dom_setDom_same _ _ _, rfl, rfl⟩
  · simp only [exec_gateWrite h]
    refine ⟨fun hidle => ?_, fun huse => runs_settled (State.gateWrite_refused hv huse), ?_⟩
    · rw [State.gateWrite_closes hv hidle]
      exact runs_settled ⟨mem_insNat _ _, rfl⟩
    · rw [State.gateWrite_opens hv]
      exact runs_settled ⟨by simp, rfl⟩

end Sys2Proof.Machine
end

section
/-! PROOFS. The statements of 16_registers about writes to unmapped windows and about the rows that are register writes. -/
namespace Sys2Proof.Machine

variable {s : State}

/-- REGISTER_WRITE of one whole word, in any state: one access to the space (R567). -/
theorem exec_registerWrite_whole (s : State) (path : RegPath) {off : BitVec 26} (ha : off.toNat % 4 = 0) (v : Word) (r : Reads) :
    exec (.registerWrite path off [(v, true)] r) s = settled (s.spaceWrite path .bar0 off.toNat v r) := by
  change presented (wordsOk path off.toNat 0x4000000 [(v, true)]) (settled (s.spaceWrite path .bar0 off.toNat v r)) = _
  rw [wordsOk_one ha (bar0_word_fits ha) (.inr rfl), presented_true]

/-! ### Unmapped windows (R573, R574) -/

/-- While the registers do not answer, a write is discarded (R579). -/
theorem State.spaceWrite_dead (h : s.regsLive = false) (path : RegPath) (sp : RegSpace) (off : Nat) (v : Word) (r : Reads) :
    s.spaceWrite path sp off v r = s :=
  if_neg (ne_true_of_eq_false h)

/-- Settles O12: a window without a block is an unmapped access, and a node whose registers do not answer discards the write. -/
theorem unmappedWritesAreFlagged : Obligations.UnmappedWritesAreFlagged := by
  intro s path off v reads ha _ hnone hcask
  refine ⟨fun hlive => runs_registerWrite ⟨hlive, hcask⟩ path ha ?_, fun hdead => ?_⟩
  · rw [State.regWrite, hnone]
    rfl
  · rw [exec_registerWrite_whole s path ha, State.spaceWrite_dead hdead]
    exact runs_settled rfl

/-! ### Rows that are register writes (R566) -/

/-- A row that writes `v` to a register by a path is the write of that whole word. -/
theorem settled_regVia (s : State) (path : RegPath) {off : BitVec 26} {at_ n : Nat} {v : Word} {r : Reads} (ha : off.toNat % 4 = 0) (hat : off.toNat = at_)
    (hv : BitVec.ofNat 32 n = v) : settled (s.regVia path at_ n r) = exec (.registerWrite path off [(v, true)] r) s := by
  rw [exec_registerWrite_whole s path ha, hat, ← hv, State.regVia]

/-- A register at a computed offset: its row is that write. -/
theorem settled_regVia_at (s : State) (path : RegPath) {at_ m n : Nat} {v : Word} {r : Reads} (hlt : m < 2 ^ 26) (ha : m % 4 = 0) (hat : m = at_)
    (hv : BitVec.ofNat 32 n = v) : settled (s.regVia path at_ n r) = exec (.registerWrite path (BitVec.ofNat 26 m) [(v, true)] r) s := by
  have hm : (BitVec.ofNat 26 m).toNat = m := by rw [BitVec.toNat_ofNat, Nat.mod_eq_of_lt hlt]
  exact settled_regVia s path (by rwa [hm]) (hm.trans hat) hv

/-- Settles O14: each row is its register's offset and the word it carries. -/
theorem registerRowsAreTheirWrites : Obligations.RegisterRowsAreTheirWrites := by
  intro s path persist on ms reads tap buf carrier unit stack mash tile queue tail
  have hword {w : Nat} (b : BitVec w) : BitVec.ofNat 32 b.toNat = b.setWidth 32 := BitVec.ofNat_toNat 32 b
  have row {off : BitVec 26} {at_ n : Nat} {v : Word} {r : Reads} (ha : off.toNat % 4 = 0) (hat : off.toNat = at_) (hv : BitVec.ofNat 32 n = v) :=
    settled_regVia s path (r := r) ha hat hv
  refine ⟨row rfl rfl rfl, row rfl rfl rfl, row rfl rfl rfl, row rfl rfl rfl, row rfl rfl (hword tap), row rfl rfl rfl, row rfl rfl rfl, row rfl rfl rfl,
    row rfl rfl rfl, row rfl rfl rfl, row rfl rfl rfl, row rfl rfl rfl, row rfl rfl rfl, row rfl rfl rfl, row rfl rfl rfl, row rfl rfl rfl, row rfl rfl rfl,
    row rfl rfl rfl, row rfl rfl rfl, row rfl rfl rfl, row rfl rfl rfl, row rfl rfl rfl, row rfl rfl rfl, row rfl rfl rfl, row rfl rfl rfl, row rfl rfl rfl,
    row rfl rfl rfl, row rfl rfl rfl, row rfl rfl rfl, ?_, ?_, ?_, ?_, ?_, ?_⟩
  · exact settled_regVia_at s path (by omega) (by omega) (by unfold memAt; omega) rfl
  · exact settled_regVia_at s path (by omega) (by omega) (by unfold memAt; omega) rfl
  · exact settled_regVia_at s path (by omega) (by omega) rfl rfl
  · exact settled_regVia_at s path (by omega) (by omega) rfl rfl
  · exact settled_regVia_at s path (by omega) (by omega) rfl (hword tail)
  · exact settled_regVia_at s path (by omega) (by omega) rfl (hword tail)

end Sys2Proof.Machine
end

section
/-! PROOFS. The statement of 13_composition_and_tenancy about maps: offers, fetches, confirmation, and the limits of held requests. -/
namespace Sys2Proof.Machine

variable {s : State}

/-! ### A message that leaves does not touch the composition block (R460, R509) -/

@[simp] theorem State.comp_stampOrZero (s : State) : s.stampOrZero.2.comp = s.comp := by rw [State.stampOrZero_eq]

@[simp] theorem State.comp_sendMsg (s : State) (i : SendInfo) (data : Bytes) : (s.sendMsg i data).comp = s.comp := by
  unfold State.sendMsg
  extract_lets ups back key mid c
  split
  · rfl
  · exact (State.comp_enqueue _ _ _ _).trans s.comp_stampOrZero

@[simp] theorem State.comp_sendNode (s : State) (dest kind : Nat) (body : Bytes) (tag : Nat) : (s.sendNode dest kind body tag).comp = s.comp := by
  rw [State.sendNode]
  exact (State.comp_sendMsg _ _ _).trans s.comp_stampOrZero

theorem State.epoch_congr {t : State} (h : t.comp = s.comp) : t.epoch = s.epoch := by rw [State.epoch, State.epoch, h]

/-! ### Maps that the host or another node offers (R486, R487) -/

section CompGo
variable (h : Live s) (path : RegPath)
include h

/-- COMP_GO hands the buffer to the composition unit, and held requests go on. -/
theorem exec_compGo (buf : Option Bytes) : exec (.compGo path buf) s = settled (s.compGo buf).kick := by
  change settled (s.regVia path compCtrlAt 1 { buf := buf }) = _
  rw [State.regVia_block (b := .compose) h path rfl (by decide)]
  rfl

end CompGo

theorem State.compGo_busy (h : s.comp.busy = true) (buf : Option Bytes) : s.compGo buf = { s with comp := { s.comp with refused := true } } := if_pos h

/-- A buffer that the host could not read is error 1, whatever length and address ask for. -/
theorem State.compGo_unread (h : s.comp.busy = false) : s.compGo none = { s with comp := { s.comp with err := 1 } } := by
  unfold State.compGo
  rw [if_neg (ne_true_of_eq_false h)]
  dsimp only
  split <;> rfl

/-- A buffer of the length and alignment that R486 asks for is the map offered. -/
theorem State.compGo_offers {b : Bytes} (h : s.comp.busy = false) (hlen : b.length = s.comp.hostLen.toNat) (hpos : 0 < b.length) (hmax : b.length ≤ 62528)
    (hmod : b.length % 8 = 0) (haddr : s.comp.hostAddr.toNat % 8 = 0) : s.compGo (some b) = s.offerMap (some b) := by
  have hbad : (b.length == 0 || b.length > 62528 || b.length % 8 != 0 || s.comp.hostAddr.toNat % 8 != 0) = false := by
    simp [hmod, haddr, hmax, List.ne_nil_of_length_pos hpos]
  unfold State.compGo
  rw [if_neg (ne_true_of_eq_false h), ← hlen]
  simp only [hbad, Bool.false_eq_true, if_false, beq_self_eq_true, if_true]

theorem State.offerMap_held {b : Bytes} (h : s.comp.map.isSome = true ∧ b = s.comp.raw) : s.offerMap (some b) = s.confirmMap := by
  obtain ⟨hsome, hraw⟩ := h
  simp [State.offerMap, hsome, hraw]

section OfferMap
variable {b : Bytes} (hnew : ¬ (s.comp.map.isSome = true ∧ b = s.comp.raw))
include hnew

/-- Bytes other than the held map's are read and checked. -/
theorem State.offerMap_new : s.offerMap (some b) = match parseMap b with
    | none => s.rejectMap 2 false
    | some m => match s.mapErr m b with
      | 0 => s.adopt m b true
      | c => s.rejectMap c (c == 3 && m.epoch == s.epoch) :=
  if_neg (by simpa using hnew)

theorem State.offerMap_unreadable (hparse : parseMap b = none) : s.offerMap (some b) = { s with comp := { s.comp with err := 2 } } := by
  rw [State.offerMap_new hnew, hparse]
  rfl

variable {m : CompMap} (hparse : parseMap b = some m)
include hparse

theorem State.offerMap_good (hok : s.mapErr m b = 0) : s.offerMap (some b) = s.adopt m b true := by
  rw [State.offerMap_new hnew, hparse]
  dsimp only
  split
  · rfl
  · next hbad => exact absurd hok hbad

/-- A map that fails a check is rejected with its code. -/
theorem State.offerMap_rejected (hbad : s.mapErr m b ≠ 0) :
    s.offerMap (some b) = s.rejectMap (s.mapErr m b) (s.mapErr m b == 3 && m.epoch == s.epoch) := by
  rw [State.offerMap_new hnew, hparse]
  dsimp only
  split
  · next hzero => exact absurd hzero hbad
  · rfl

end OfferMap

/-! ### Fetches (R489, R490) -/

/-- A message of an older epoch tells the node nothing. -/
theorem State.sawEpoch_older {e : Nat} (h : e < s.epoch) (src : Nat) : s.sawEpoch e src = s := by
  rw [State.sawEpoch, if_neg (by omega), if_neg (by simp; omega)]

theorem State.fetchNow_unwanted (h : s.comp.wanted = none) : s.fetchNow = s := by rw [State.fetchNow, h]

/-- A wanted map whose fetch is due is asked of the node that named it. -/
theorem State.fetchNow_due {e n : Nat} (hwanted : s.comp.wanted = some (e, n)) (hn : n ≠ 0xFFFF) (hdue : s.comp.fetchAt = 0) :
    s.fetchNow = State.sendNode { s with comp := { s.comp with fetchAt := s.time.up + 1 } } n 0x20 (toLE 4 e ++ zeros 4) := by
  rw [State.fetchNow, hwanted]
  exact if_pos (by simp [hdue, hn])

theorem exec_mapFetchRepeat {e n : Nat} (hwanted : s.comp.wanted = some (e, n)) (hn : n ≠ 0xFFFF) : exec .mapFetchRepeat s =
    settled (State.fetchNow { s.advanceTo (s.comp.fetchAt - 1 + 1000000) with comp := { s.comp with fetchAt := 0 } }) := by
  change execMapFetchRepeat s = _
  rw [execMapFetchRepeat, hwanted]
  exact if_neg (by simpa using hn)

/-- Fetches to several nodes all name the epoch that the node holds. -/
theorem foldl_fetch_epoch (l : List Nat) : ∀ t : State, t.epoch = s.epoch →
    l.foldl (fun (a : State) n => a.sendNode n 0x20 (toLE 4 a.epoch ++ zeros 4)) t = l.foldl (fun (a : State) n => a.sendNode n 0x20 (toLE 4 s.epoch ++ zeros 4)) t := by
  induction l with
  | nil => simp
  | cons n l ih =>
    intro t ht
    simp only [List.foldl_cons, ht]
    exact ih _ ((State.epoch_congr (State.comp_sendNode _ _ _ _ _)).trans ht)

theorem TimeBase.advance_node (t : TimeBase) (runs : Bool) (dt : Nat) : (t.advance runs dt).node = t.node := by cases runs <;> rfl

/-- Which nodes a link reaches is said by the map and the node's identifiers. -/
theorem State.reachable_congr {t : State} (hmap : t.comp.map = s.comp.map) (hnode : t.comp.node = s.comp.node) (hown : t.ownId = s.ownId) :
    t.reachable = s.reachable := by
  simp only [State.reachable, State.linksTo, State.me, hmap, hnode, hown]

/-- The state in which the next confirmation fetches go. -/
def State.confirming (s : State) : State :=
  let t := s.advanceTo (s.comp.confirmAt + 10000000)
  { t with comp := { t.comp with confirmAt := t.time.up } }

theorem State.reachable_confirming (s : State) : s.confirming.reachable = s.reachable :=
  State.reachable_congr rfl rfl (TimeBase.advance_node _ _ _)

theorem exec_confirmFetch (hmap : s.comp.map.isSome = true) (hconf : s.mapConfirmed = false) : exec .confirmFetch s =
    settled (s.reachable.foldl (fun (a : State) n => a.sendNode n 0x20 (toLE 4 s.epoch ++ zeros 4)) s.confirming) := by
  have hdue : ¬ (s.comp.map.isNone || s.mapConfirmed) = true := by rw [hconf, ← Option.not_isSome, hmap]; decide
  rw [← foldl_fetch_epoch (s := s) s.reachable s.confirming rfl, ← s.reachable_confirming]
  exact if_neg hdue

/-! ### Limits of held requests (R492, R500) -/

theorem State.holdTimeout_refuses {n : Nat} {h : HeldReq} (hheld : s.req.held[n]? = some h) (hdiscard : h.discard = false) (limit : Nat) :
    s.holdTimeout n h.claim limit =
      let t := s.advanceTo (h.since + limit)
      State.refuse { t with req := { t.req with held := t.req.held.eraseIdx n } } h.src h.data stBusy := by
  rw [State.holdTimeout, hheld]
  simp [hdiscard]

/-- Settles O52: an offer goes by the outcome of its checks, and each fetch and limit is the event at its due time. -/
theorem mapsAreOfferedFetchedAndConfirmed : Obligations.MapsAreOfferedFetchedAndConfirmed := by
  intro s
  refine ⟨fun path b h hbusy hlen hpos hmax hmod haddr => ?_, fun path h hbusy b => ?_, fun path h hbusy => ?_, fun src b => runs_settled rfl,
    fun b => ⟨State.offerMap_held, State.offerMap_unreadable, fun m hnew hparse => ⟨State.offerMap_good hnew hparse, fun herr hepoch => ?_,
      fun hbad hother => ?_⟩⟩, fun src e hmap hold hwanted => ?_, fun e n hwanted hn => ?_, fun hmap hconf => ?_, fun n h hheld hdiscard => ?_⟩
  · rw [exec_compGo h, State.compGo_offers hbusy hlen hpos hmax hmod haddr]
    exact runsThen_settled rfl
  · rw [exec_compGo h, State.compGo_busy hbusy]
    exact runsThen_settled rfl
  · rw [exec_compGo h, State.compGo_unread hbusy]
    exact runsThen_settled rfl
  · rw [State.offerMap_rejected hnew hparse (by rw [herr]; decide), herr, hepoch]
    simp [State.rejectMap]
  · rw [State.offerMap_rejected hnew hparse hbad, beq_eq_false_iff_ne.mpr hother]
    rfl
  · refine runs_settled ?_
    rw [State.sawEpoch_older hold, State.mapFetched, if_pos hmap, State.fetchNow_unwanted (by rwa [State.comp_sendNode])]
  · rw [exec_mapFetchRepeat hwanted hn]
    exact runs_settled (State.fetchNow_due hwanted hn rfl)
  · rw [exec_confirmFetch hmap hconf]
    exact runs_settled rfl
  · exact ⟨fun hclaim => runs_settled (hclaim ▸ State.holdTimeout_refuses hheld hdiscard 2000000),
      fun hclaim => runs_settled (hclaim ▸ State.holdTimeout_refuses hheld hdiscard 5000000)⟩

end Sys2Proof.Machine
end

section
/-! SUPPORT. Fields of messages put together from parts, and a node-to-node message that a command names by its body (R509). -/
namespace Sys2Proof.Machine

variable {s : State}

/-! ### Fields of parts of a message -/

theorem fieldAt_append_left {x y : Bytes} {o n : Nat} (h : o + n ≤ x.length) : fieldAt (x ++ y) o n = fieldAt x o n := by
  rw [fieldAt, fieldAt, List.drop_append_of_le_length (by omega), List.take_append_of_le_length (by rw [List.length_drop]; omega)]

theorem fieldAt_append_right (x y : Bytes) (o n : Nat) : fieldAt (x ++ y) (x.length + o) n = fieldAt y o n := by
  rw [fieldAt, fieldAt, List.drop_append, List.drop_of_length_le (by omega), List.nil_append, Nat.add_sub_cancel_left]

/-- A stamp that stands between other parts. -/
theorem stampAt_append (x y z : Bytes) (h : 12 ≤ y.length) : stampAt (x ++ y ++ z) x.length = stampAt y 0 := by
  have hfield {o n : Nat} (hon : o + n ≤ 12) : fieldAt (x ++ y ++ z) (x.length + o) n = fieldAt y o n := by
    rw [List.append_assoc, fieldAt_append_right, fieldAt_append_left (by omega)]
  have h0 : fieldAt (x ++ y ++ z) x.length 8 = fieldAt y 0 8 := hfield (o := 0) (by decide)
  rw [stampAt, stampAt, h0, hfield (by decide), hfield (by decide)]

/-! ### Messages that a command names by their body (R509) -/

/-- The header of such a message has 64 bytes. -/
theorem rowMsg_drop (kind : Nat) (body : Bytes) : (rowMsg kind body).drop 0x40 = pad8 body := by
  have hlen : (toLE 1 kind ++ [1, 0xFF, 0] ++ toLE 4 (64 + alignUp body.length 8) ++ zeros 28 ++ toLE 2 0xFFFF ++ zeros 26).length = 0x40 := by
    simp [zeros]
  exact List.drop_left' hlen

theorem rqKind_rowMsg {kind : Nat} (hk : kind < 256) (body : Bytes) : rqKind (rowMsg kind body) = kind := by
  simp only [rowMsg, List.append_assoc]
  exact fieldAt_append_toLE [] _ hk

theorem State.caskMessage_idle (h : s.cask.state = 0) (part ch : Nat) (d : Bytes) : s.caskMessage part ch d = s := State.caskRec_idle h _ _ _ _

/-- Without capture or replay a message goes to its unit. -/
theorem State.nodeIn_idle (h : s.cask.state = 0) (ch src : Nat) (d : Bytes) : s.nodeIn ch src d = s.nodeMsg src d := by
  unfold State.nodeIn
  split
  · rfl
  · rw [State.replaying_idle h, State.caskMessage_idle h]
    rfl

/-- What the composition unit and the lend unit do with the body of a message that a command names. -/
def State.takeBody (s : State) (kind src : Nat) (b : Bytes) : State :=
  match kind with
  | 0x24 => s.mirrorUpdate src b
  | 0x25 => s.mirrorAcked (fieldAt b 0 2) (stampAt b 8)
  | 0x26 => s.mirrorSync b
  | 0x28 => s.lendArrived src false b
  | 0x29 => s.lendArrived src true b
  | 0x2A => s.lendReplied b
  | _ => s

/-- Without capture or replay such a command hands its padded body to the unit. -/
theorem State.rowIn_idle (h : s.cask.state = 0) (src : BitVec 16) {kind : Nat} (hk : kind ∈ [0x24, 0x25, 0x26, 0x28, 0x29, 0x2A]) (body : Bytes) :
    s.rowIn src kind body = s.takeBody kind src.toNat (pad8 body) := by
  have hlt : kind < 256 := by revert hk; simp; omega
  rw [State.rowIn, State.nodeIn_idle h, State.nodeMsg, rqKind_rowMsg hlt, rowMsg_drop]
  simp only [List.mem_cons, List.not_mem_nil, or_false] at hk
  obtain rfl | rfl | rfl | rfl | rfl | rfl := hk <;> rfl

end Sys2Proof.Machine
end

section
/-! PROOFS. The statement of 13_composition_and_tenancy about claims, mirrors and meters. -/
namespace Sys2Proof.Machine

variable {s : State}

/-! ### Claims (R499, R501) -/

/-- What a change of a shard's record does depends on the record alone. -/
theorem State.modShard_congr {i : Nat} {f g : Shard → Shard} (h : f (s.shard i) = g (s.shard i)) : s.modShard i f = s.modShard i g := by
  rw [State.modShard, State.modShard, SMap.modify, SMap.modify]
  exact congrArg (fun k => { s with comp := { s.comp with shards := s.comp.shards.set Shard.reset i k } }) h

section Claim
variable {i : Nat} {x : MapShard} (src epoch : Nat)

theorem State.claimed_unknown (hx : s.mapShard i = none) :
    s.claimed src i epoch = s.sendNode src 0x23 (claimReplyBody i 2 s.epoch Stamp.zero) := by rw [State.claimed, hx]

variable (hx : s.mapShard i = some x)
include hx

/-- A shard that the node claims and does not own is kept. -/
theorem State.claimed_kept (hconf : s.mapConfirmed = true) (hme : s.holder x = s.me) (hrole : (s.shard i).role ≠ .owner) :
    s.claimed src i epoch = s.sendNode src 0x23 (claimReplyBody i 1 s.epoch (s.shard i).ostamp) := by
  rw [State.claimed, hx]
  simp [hconf, hme, hrole]

section Given
variable (hme : s.holder x ≠ s.me) (hrole : (s.shard i).role = .owner ∨ (s.shard i).role = .yielding)
include hme hrole

/-- A shard that another node holds is yielded once every update is answered. -/
theorem State.claimed_yielded (hdone : s.updatesOf x = []) : s.claimed src i epoch =
    ((s.sendNode src 0x23 (claimReplyBody i 0 s.epoch (s.shard i).lastAck)).modShard i fun k =>
      { k with role := .yielding, yieldTo := some (s.shard i).lastAck }).settleYield x := by
  have hshard (t : State) (ht : t.comp = s.comp) : t.modShard i (fun k => { k with role := .yielding, yieldTo := some (s.shard i).lastAck }) =
      t.modShard i fun k => { k with role := .yielding, yieldTo := some k.lastAck } := by
    refine State.modShard_congr ?_
    rw [State.shard, State.shard, ht]
  rw [State.claimed, hx, hshard _ (by simp)]
  simp [hme, hrole, hdone]

theorem State.claimed_waits (hopen : s.updatesOf x ≠ []) : s.claimed src i epoch = s := by
  rw [State.claimed, hx]
  simp [hme, hrole, hopen]

end Given

variable (hrole : (s.shard i).role = .claiming) (hprev : x.previous = src)
include hrole hprev

theorem State.claimReplied_yield (st : Stamp) :
    s.claimReplied src i 0 epoch st = (s.modShard i fun k => { k with yieldTo := some st }).tryOwn x := by
  rw [State.claimReplied, hx]
  simp [hrole, hprev]

theorem State.claimReplied_none (st : Stamp) :
    s.claimReplied src i 2 epoch st = (s.modShard i fun k => { k with yieldTo := some Stamp.ones }).tryOwn x := by
  rw [State.claimReplied, hx]
  simp [hrole, hprev]

end Claim

theorem exec_claimRepeat {m : CompMap} (hmap : s.comp.map = some m) (hconf : s.mapConfirmed = true)
    (hclaims : (m.shards.any fun x => (s.shard x.id).role == .claiming) = true) : exec .claimRepeat s =
    let t := s.advanceTo (s.comp.claimAt + 1000000)
    settled (m.shards.foldl State.repeatClaim { t with comp := { t.comp with claimAt := t.time.up } }) := by
  change execClaimRepeat s = _
  rw [execClaimRepeat, hmap]
  exact if_neg (by rw [hconf, hclaims]; decide)

/-! ### Mirrors (R495–R498) -/

/-- The item that a MIRROR_UPDATE's body stands for. -/
def mirrorItemOf (b : Bytes) (up : Nat) : MirrorItem :=
  { ack := stampAt b 8, request := (b.drop 0x20).take (rqLen (b.drop 0x20)), journal := slice (b.drop 0x20) (rqLen (b.drop 0x20)) (fieldAt b 0x18 4),
    upd := 0, sentAt := up }

/-- An update of a shard that the node mirrors, without the merge flag. -/
theorem State.mirrorUpdate_mirrored {b : Bytes} {x : MapShard} (hx : s.mapShard (fieldAt b 0 2) = some x) (hflags : fieldAt b 2 2 = 0)
    (hmirrored : x.mirrored = true) (hme : x.mirror = s.me) (src : Nat) :
    let n := fieldAt b 0 2
    let it := mirrorItemOf b s.time.up
    let t := s.modShard n fun k => { k with toApply := insertItem it k.toApply, lastAck := if k.lastAck.before it.ack then it.ack else k.lastAck }
    s.mirrorUpdate src b =
      if (s.shard n).lastAck.before it.ack then
        if mirrorMax < (t.shard n).toApply.length then t.modShard n fun k => { k with withheld := k.withheld ++ [it.ack] } else t.mirrorAckSend src n it.ack
      else if it.ack ∈ (s.shard n).withheld then s
      else s.mirrorAckSend src n it.ack := by
  intro n it t
  have hok : (x.mirrored && x.mirror == s.me) = true := by simp [hmirrored, hme]
  have hmerge : (0 : Nat).testBit 0 = false := by decide
  rw [State.mirrorUpdate, hx, hflags, hmerge]
  dsimp only
  rw [if_neg Bool.false_ne_true, hok, if_neg (by decide)]
  cases hbefore : (s.shard n).lastAck.before it.ack with
  | true =>
    rw [show (s.shard n).lastAck.before (stampAt b 8) = true from hbefore]
    simp [t, it, n, mirrorItemOf]
  | false =>
    rw [show (s.shard n).lastAck.before (stampAt b 8) = false from hbefore]
    simp [it, n, mirrorItemOf]

/-- While it is resyncing a mirror applies nothing. -/
theorem State.mirrorApply_resyncing {i : Nat} {x : MapShard} (hx : s.mapShard i = some x) (hrole : (s.shard i).role = .resyncing) : s.mirrorApply i = s := by
  rw [State.mirrorApply, hx]
  dsimp only
  split
  · rfl
  · exact if_pos (by rw [hrole]; rfl)

theorem State.mirrorApply_applies {i : Nat} {x : MapShard} {p : Part} (hx : s.mapShard i = some x) (hrole : (s.shard i).role ≠ .resyncing)
    (hp : s.svcPart (if x.owner = s.me then x.service else x.mirrorService) = some p) :
    s.mirrorApply i = (((s.applyItems x p (2 * (s.shard i).toApply.length + 1)).releaseAcks x).tryOwn x).kick := by
  have hsvc : s.svcPart (if x.owner == s.me then x.service else x.mirrorService) = some p := by simpa using hp
  rw [State.mirrorApply, hx]
  dsimp only
  rw [hsvc]
  exact if_neg (by simpa using hrole)

/-- The message of a MIRROR_ACK names the shard and the stamp. -/
theorem exec_mirrorAck (h : s.cask.state = 0) (src : BitVec 16) (shard : Fin 1024) (stamp : BitVec 96) :
    exec (.mirrorAck src shard stamp) s = settled (s.mirrorAcked shard.val (stampAt (toLE 12 stamp.toNat) 0)) := by
  change settled (s.rowIn src 0x25 _) = _
  rw [State.rowIn_idle h src (by decide), pad8]
  have hshard : fieldAt (toLE 2 shard.val ++ zeros 6 ++ toLE 12 stamp.toNat ++ zeros 4 ++ zeros 0) 0 2 = shard.val := by
    simpa using fieldAt_append_toLE [] (zeros 6 ++ (toLE 12 stamp.toNat ++ (zeros 4 ++ zeros 0))) (n := 2) (v := shard.val) (by omega)
  have hstamp : stampAt (toLE 2 shard.val ++ zeros 6 ++ toLE 12 stamp.toNat ++ zeros 4 ++ zeros 0) 8 = stampAt (toLE 12 stamp.toNat) 0 := by
    rw [List.append_assoc _ (zeros 4)]
    exact stampAt_append (toLE 2 shard.val ++ zeros 6) (toLE 12 stamp.toNat) (zeros 4 ++ zeros 0) (by simp)
  exact congrArg settled (congrArg₂ s.mirrorAcked hshard hstamp)

/-- A confirmed update of the owner is acknowledged. -/
theorem State.mirrorAcked_confirms {i : Nat} {a : Stamp} {it : MirrorItem} {up : Update} (hit : (s.shard i).unacked.find? (·.ack == a) = some it)
    (hup : s.update? it.upd = some up) : s.mirrorAcked i a =
    (((s.modShard i fun k => { k with unacked := k.unacked.filter (·.ack != a), held := k.held && decide (1 < k.unacked.length) }).ackUpdate up).retryUpdates).kick := by
  rw [State.mirrorAcked, hit]
  dsimp only
  rw [show State.update? (s.modShard i _) it.upd = some up from hup]

theorem State.mirrorLate_holds {i : Nat} {it : MirrorItem} {rest : List MirrorItem} (h : (s.shard i).unacked = it :: rest) :
    s.mirrorLate i = (s.advanceTo (it.sentAt + 1000000)).modShard i fun k => { k with held := true } := by rw [State.mirrorLate, h]

/-! ### Meters (R514) -/

theorem exec_meterSnap (h : Live s) (path : RegPath) : exec (.meterSnap path) s = settled s.meterSnap := by
  change settled (s.regVia path meterSnapAt 1) = _
  rw [State.regVia_block (b := .meter) h path rfl (by decide)]
  rfl

/-- Settles O53: each clause is one outcome of a claim, of a reply, or of a mirror's message. -/
theorem claimsMirrorsAndMeters : Obligations.ClaimsMirrorsAndMeters := by
  intro s src shard hcask i k reply
  refine ⟨?_, fun m hmap hconf hclaims => ?_, ?_, fun body => ?_, fun x hx hrole => ?_,
    fun x p hx hrole hp => runs_settled (State.mirrorApply_applies hx hrole hp), ?_, fun it rest hlist => ?_, fun path h => ?_⟩
  · intro e n
    have hn : n.toNat = i := by rw [BitVec.toNat_ofNat, Nat.mod_eq_of_lt (by omega)]
    have hclaim : exec (.claim src n e) s = settled (s.claimed src.toNat i e.toNat).kick := by rw [← hn]; rfl
    have hreply (result : BitVec 8) (stamp : BitVec 96) : exec (.claimReply src n result e stamp) s =
        settled (s.claimReplied src.toNat i result.toNat e.toNat (stampAt (toLE 12 stamp.toNat) 0)) := by rw [← hn]; rfl
    rw [hclaim]
    simp only [hreply]
    refine ⟨fun hx => runsThen_settled (State.claimed_unknown _ _ hx), fun x hx =>
      ⟨fun hconf hme hrole => runsThen_settled (State.claimed_kept _ _ hx hconf hme hrole),
      fun hme hrole hdone => runsThen_settled (State.claimed_yielded _ _ hx hme hrole hdone),
      fun hme hrole hopen => runsThen_settled (State.claimed_waits _ _ hx hme hrole hopen), fun stamp hrole hprev => ⟨?_, ?_⟩⟩⟩
    · exact runs_settled (State.claimReplied_yield _ _ hx hrole hprev _)
    · exact runs_settled (State.claimReplied_none _ _ hx hrole hprev _)
  · rw [exec_claimRepeat hmap hconf hclaims]
    exact runs_settled rfl
  · intro body x b hx hflags hmirrored hme
    refine runs_settled ?_
    rw [State.rowIn_idle hcask src (by decide)]
    exact State.mirrorUpdate_mirrored hx hflags hmirrored hme _
  · exact runs_settled (State.rowIn_idle hcask src (by decide) body)
  · exact runs_settled (State.mirrorApply_resyncing hx hrole)
  · intro stamp it up a hit hup
    rw [exec_mirrorAck hcask, State.mirrorAcked_confirms hit hup]
    exact ⟨_, rfl, rfl⟩
  · exact runs_settled (State.mirrorLate_holds hlist)
  · rw [exec_meterSnap h]
    exact runs_settled rfl

end Sys2Proof.Machine
end

section
/-! PROOFS. The statement of 13_composition_and_tenancy about lends: the borrower's command, the lender's answer, and the reply. -/
namespace Sys2Proof.Machine

variable {s : State}

/-! ### The borrower's command (R505, R507) -/

/-- The lend entry that a borrower's command names. -/
def State.borrowed (s : State) (part : Nat) (d : Bytes) : Option MapLend :=
  s.comp.map.bind fun m => m.lends.find? fun l => l.id == fieldAt d 2 2 && l.borrower == s.me && l.borrowerPart == part

section Command
variable {part : Nat} {p : Part} {q : QueueDef} {e : QEntry}

section Taken
variable (hp : s.part? part = some p) (hq : p.queueDef? lendQueue = some q) (hkind : q.kind = 3) (he : (s.queue p.num q.id).oldest = some e)
include hp hq hkind he

/-- A command that cannot be read is answered BAD_DESCRIPTOR. -/
theorem State.lendCommand_bad (hok : lendOk p (s.slotRead p q e.slot) = false) :
    s.lendCommand part = (s.modQueue p.num q.id (·.release e.slot)).lendDone p (s.slotRead p q e.slot) 4 := by
  rw [State.lendCommand, hp]
  simp [hq, hkind, State.unitTake_of_oldest he, hok]

variable (hok : lendOk p (s.slotRead p q e.slot) = true)
include hok

/-- A command with no entry is answered NOT_LENT. -/
theorem State.lendCommand_unlent (hent : (s.modQueue p.num q.id (·.release e.slot)).borrowed part (s.slotRead p q e.slot) = none) :
    s.lendCommand part = (s.modQueue p.num q.id (·.release e.slot)).lendDone p (s.slotRead p q e.slot) 0xC := by
  unfold State.borrowed at hent
  rw [State.lendCommand, hp]
  simp [hq, hkind, State.unitTake_of_oldest he, hok, hent]

/-- A read that its entry covers goes to the lender with a fresh tag. -/
theorem State.lendCommand_reads {l : MapLend} (hent : (s.modQueue p.num q.id (·.release e.slot)).borrowed part (s.slotRead p q e.slot) = some l)
    (hshape : lendShapeOk l.flash (fieldAt (s.slotRead p q e.slot) 4 4) (fieldAt (s.slotRead p q e.slot) 8 8) = true)
    (hread : fieldAt (s.slotRead p q e.slot) 0 1 = 1) :
    let d := s.slotRead p q e.slot
    let t := s.modQueue p.num q.id (·.release e.slot)
    s.lendCommand part =
      State.sendNode { t with comp := { t.comp with nextTag := t.comp.nextTag + 1, lends := t.comp.lends ++ [⟨t.comp.nextTag, part, d, t.time.up⟩] } } l.lender 0x28
        (toLE 2 l.id ++ zeros 2 ++ toLE 4 (fieldAt d 4 4) ++ toLE 8 (fieldAt d 8 8) ++ toLE 8 t.comp.nextTag ++ []) := by
  intro d t
  unfold State.borrowed at hent
  rw [State.lendCommand, hp]
  simp [hq, hkind, State.unitTake_of_oldest he, hok, hent, hshape, hread, d, t]

end Taken
end Command

/-! ### The lender's answer (R506–R508) -/

/-- The lend entry that a message to the lender names. -/
def State.lent (s : State) (src : Nat) (b : Bytes) : Option MapLend :=
  s.comp.map.bind fun m => m.lends.find? fun l => l.id == fieldAt b 0 2 && l.lender == s.me && l.borrower == src

/-- The answer that the lender sends back. -/
def State.lendAnswer (s : State) (src : Nat) (b : Bytes) (st : Nat) (data : Bytes) : State :=
  s.sendNode src 0x2A (toLE 2 (fieldAt b 0 2) ++ toLE 1 st ++ zeros 5 ++ toLE 8 (fieldAt b 0x10 8) ++ data)

section Lender
variable {src : Nat} {b : Bytes}

theorem State.lendArrived_of_serve {wr : Bool} {st : Nat} {data : Bytes} {t : State} (h : s.lendServe src wr b = some (st, data, t)) :
    s.lendArrived src wr b = t.lendAnswer src b st data := by
  rw [State.lendArrived, h]
  rfl

theorem State.lendServe_unlent (wr : Bool) (h : s.lent src b = none) : s.lendServe src wr b = some (0xC, [], s) := by
  unfold State.lent at h
  rw [State.lendServe]
  simp [h]

section Memory
variable {l : MapLend} {p : Part} {e : MemExt} (hent : s.lent src b = some l) (hflash : l.flash = false)
  (hshape : lendShapeOk false (fieldAt b 4 4) (fieldAt b 8 8) = true) (hp : s.part? l.lenderPart = some p) (he : p.general[l.extent]? = some e)
  (hspan : fieldAt b 8 8 + fieldAt b 4 4 ≤ e.len * GiB)
include hent hflash hshape hp he hspan

/-- Memory of a failed stack is LOST. -/
theorem State.lendServe_failedStack (wr : Bool) (h : (s.memCtl e.stack).state = 2) : s.lendServe src wr b = some (0xB, [], s) := by
  unfold State.lent at hent
  rw [State.lendServe]
  simp [hent, hflash, hshape, hp, he, Nat.not_lt.mpr hspan, h]

/-- Memory that is there is read or written where the extent puts it. -/
theorem State.lendServe_memory (wr : Bool) (h : (s.memCtl e.stack).state ≠ 2) (hkept : s.comp.lost.find? (·.1 == l.id) = none) :
    let a : Loc := .dram e.stack (e.base * GiB + fieldAt b 8 8)
    s.lendServe src wr b =
      if wr then some (0, [], s.locWrite a (slice b 0x18 (fieldAt b 4 4))) else some (0, s.locRead a (fieldAt b 4 4), s) := by
  unfold State.lent at hent
  rw [State.lendServe]
  simp [hent, hflash, hshape, hp, he, Nat.not_lt.mpr hspan, hkept]
  exact fun hfailed => absurd hfailed h

end Memory
end Lender

/-! ### The reply, or none (R506, R507) -/

section Reply
variable {c : LendCmd} {p : Part}

/-- Without the command that a reply or a timeout ends. -/
def State.dropLend (s : State) (tag : Nat) : State := { s with comp := { s.comp with lends := s.comp.lends.filter (·.tag != tag) } }

section Answered
variable {b : Bytes} (hc : s.comp.lends.find? (·.tag == fieldAt b 8 8) = some c) (hp : s.part? c.part = some p)
include hc hp

theorem State.lendReplied_data (hread : fieldAt c.desc 0 1 = 1) (hok : fieldAt b 2 1 = 0) : s.lendReplied b =
    ((s.dropLend c.tag).dWrite p (fieldAt c.desc 0x10 8) (slice b 0x10 (fieldAt c.desc 4 4))).lendDone p c.desc 0 := by
  unfold State.part? at hp
  rw [State.lendReplied, hc]
  simp only [State.part?, hp, hread, hok]
  rfl

theorem State.lendReplied_failed (hfail : fieldAt b 2 1 ≠ 0) : s.lendReplied b = (s.dropLend c.tag).lendDone p c.desc (fieldAt b 2 1) := by
  have hno : (fieldAt c.desc 0 1 == 1 && fieldAt b 2 1 == 0) = false := by simp [hfail]
  unfold State.part? at hp
  rw [State.lendReplied, hc]
  simp only [State.part?, hp, hno]
  rfl

end Answered

theorem State.lendLate_fails (hc : s.comp.lends.find? (·.tag == c.tag) = some c) (hp : s.part? c.part = some p) :
    s.lendLate c.tag = ((s.advanceTo (c.sentAt + 2000000)).dropLend c.tag).lendDone p c.desc 6 := by
  unfold State.part? at hp
  rw [State.lendLate, hc]
  simp only [State.part?, State.advanceTo, State.advance, hp]
  rfl

end Reply

/-- Settles O54, outcome by outcome of the command, of the lender's answer and of the reply. -/
theorem lendsAreAskedServedAndEnded : Obligations.LendsAreAskedServedAndEnded := by
  intro s src hcask
  have hsend (body : Bytes) : exec (.lendRead src body) s = settled (s.lendArrived src.toNat false (pad8 body)) :=
    congrArg settled (State.rowIn_idle hcask src (by decide) body)
  have hwrite (body : Bytes) : exec (.lendWrite src body) s = settled (s.lendArrived src.toNat true (pad8 body)) :=
    congrArg settled (State.rowIn_idle hcask src (by decide) body)
  have hreply (body : Bytes) : exec (.lendReply src body) s = settled (s.lendReplied (pad8 body)) :=
    congrArg settled (State.rowIn_idle hcask src (by decide) body)
  refine ⟨?_, ?_, ?_, fun c p hc hp => runs_settled (State.lendLate_fails hc hp)⟩
  · intro part p q e hp hq hkind he d t ent
    exact ⟨fun hok => runs_settled (State.lendCommand_bad hp hq hkind he hok),
      fun hok hent => runs_settled (State.lendCommand_unlent hp hq hkind he hok hent),
      fun l hok hent hshape hread => runs_settled (State.lendCommand_reads hp hq hkind he hok hent hshape hread)⟩
  · intro body b ent answer
    rw [hsend, hwrite]
    refine ⟨fun hent => ⟨runs_settled (State.lendArrived_of_serve (State.lendServe_unlent _ hent)),
      runs_settled (State.lendArrived_of_serve (State.lendServe_unlent _ hent))⟩, ?_⟩
    intro l p e hent hflash hshape hp he hspan
    have hserve := State.lendServe_memory hent hflash hshape hp he hspan
    exact ⟨fun hfailed => runs_settled (State.lendArrived_of_serve (State.lendServe_failedStack hent hflash hshape hp he hspan _ hfailed)),
      fun hup hkept => ⟨runs_settled (State.lendArrived_of_serve (hserve false hup hkept)), runs_settled (State.lendArrived_of_serve (hserve true hup hkept))⟩⟩
  · intro body c p b hc hp t
    rw [hreply]
    exact ⟨fun hread hok => runs_settled (State.lendReplied_data hc hp hread hok), fun hfail => runs_settled (State.lendReplied_failed hc hp hfail)⟩

end Sys2Proof.Machine
end

section
/-! PROOFS. The statement of 14_host_port about the link, the controller's enable and shutdown, and the doorbells. -/
namespace Sys2Proof.Machine

variable {s : State}

/-! ### The link and the controller's clear (R516, R517, R524) -/

/-- The host port with the controller, configuration space and the MSI-X table cleared, before the link goes down. -/
def State.portCleared (s : State) : State := ((s.clearNvme false).clearConfig).clearMsix

theorem State.portCleared_frame : s.portCleared.pins = s.pins ∧ s.portCleared.nvmMem = s.nvmMem ∧ s.portCleared.grist = s.grist ∧ s.portCleared.cores = s.cores :=
  ⟨rfl, rfl, rfl, rfl⟩

theorem State.portCleared_host : s.portCleared.host = { s.host with nvme := {}, msixEnabled := false, d3 := false, msix := [], pba := [] } := rfl

theorem State.hostReset_host : s.hostReset = { s.portCleared with host := s.hostReset.host } := by
  rw [State.hostReset]
  split <;> rfl

/-- The link goes down, and one that was up is counted. -/
theorem State.hostReset_port : s.hostReset.host = { s.portCleared.host with
    speed := 0
    width := 0
    flit := false
    err := if s.host.speed = 0 then s.host.err else bput s.host.err 4 true
    linkDn := if s.host.speed = 0 then s.host.linkDn else s.host.linkDn + 1 } := by
  by_cases hdown : s.host.speed = 0
  · rw [State.hostReset, if_neg (by simpa using hdown), if_pos hdown, if_pos hdown]
    rfl
  · rw [State.hostReset, if_pos (by simpa using hdown), if_neg hdown, if_neg hdown]
    rfl

/-- A reset of the host port clears the controller and the MSI-X table, and counts a link that was up as down. -/
theorem State.hostReset_clears : s.hostReset.host.speed = 0 ∧ s.hostReset.host.nvme = {} ∧ s.hostReset.host.msix = [] ∧ s.hostReset.host.pba = [] ∧
    s.hostReset.host.msixEnabled = false ∧ s.hostReset.host.linkDn = (if s.host.speed = 0 then s.host.linkDn else s.host.linkDn + 1) := by
  rw [State.hostReset_port, State.portCleared_host]
  exact ⟨rfl, rfl, rfl, rfl, rfl, rfl⟩

theorem State.hostReset_frame : s.hostReset.pins = s.pins ∧ s.hostReset.nvmMem = s.nvmMem ∧ s.hostReset.grist = s.grist ∧ s.hostReset.cores = s.cores := by
  rw [State.hostReset_host]
  exact State.portCleared_frame

theorem exec_perst (kind : Fin 3) : exec (.perst kind) s =
    settled (if kind = 0 then { s.hostReset with pins := { s.hostReset.pins with perstN := false } } else s.hostReset) := by
  by_cases hkind : kind = 0
  · subst hkind
    rfl
  · rw [if_neg hkind]
    exact congrArg settled (if_neg (by rw [beq_iff_eq]; exact fun h => hkind (Fin.ext h)))

/-! ### CC (R522, R524, R525) -/

/-- A write of CC keeps the fields that CC has. -/
theorem State.regVia_cc (h : Live s) (path : RegPath) (cc : BitVec 32) : s.regVia path 0x14 cc.toNat = s.ccWrite (cc &&& BitVec.ofNat 32 ccMask) := by
  have hmask : BitVec.ofNat 32 (cc.toNat &&& ccMask) = cc &&& BitVec.ofNat 32 ccMask := by rw [BitVec.ofNat_and, BitVec.ofNat_toNat, BitVec.setWidth_eq]
  rw [State.regVia_block (b := .nvme) h path rfl cc.isLt, ← hmask]
  rfl

/-- EN is a field of CC. -/
theorem ccMask_keeps_en (cc : BitVec 32) : (cc &&& BitVec.ofNat 32 ccMask).getLsbD 0 = cc.getLsbD 0 := by
  rw [BitVec.getLsbD_and, show (BitVec.ofNat 32 ccMask).getLsbD 0 = true from rfl, Bool.and_true]

theorem State.ccWrite_clears {w : BitVec 32} (hold : s.host.nvme.cc.getLsbD 0 = true) (hnew : w.getLsbD 0 = false) :
    s.ccWrite w = (s.modNvme fun n => { n with cc := w }).clearNvme true := by
  rw [State.ccWrite, hold, hnew]
  rfl

section Enabled
variable {w : BitVec 32} (hen : w.getLsbD 0 = true)
include hen

/-- EN set with an image running makes the controller ready, with its admin queues. -/
theorem State.ccWrite_enables (hrdy : s.host.nvme.rdy = false) (hrun : s.grist.state = .running) (hshn : bitsOf w.toNat 15 14 = 0) :
    s.ccWrite w = s.modNvme fun n =>
      { n with
        cc := w
        rdy := true
        sqs := [{ id := 0, cq := 0, size := bitsOf n.aqa.toNat 11 0 + 1, base := n.asq.toNat }]
        cqs := [{ id := 0, size := bitsOf n.aqa.toNat 27 16 + 1, base := n.acq.toNat, ien := true, vector := 0 }] } := by
  simp [State.ccWrite, State.nvmeReady, State.modNvme, hen, hrdy, hrun, hshn]

/-- A shutdown request is complete at once when no command is outstanding. -/
theorem State.ccWrite_shuts (hrdy : s.host.nvme.rdy = true) (hold : bitsOf s.host.nvme.cc.toNat 15 14 = 0) (hshn : bitsOf w.toNat 15 14 ≠ 0) :
    s.ccWrite w = s.modNvme fun n => { n with cc := w, shst := if n.cmds = [] then 2 else 1, shutAt := s.time.up } := by
  by_cases hcmds : s.host.nvme.cmds = []
  · simp [State.ccWrite, State.nvmeReady, State.shutCheck, State.modNvme, hen, hrdy, hold, hshn, hcmds]
  · simp [State.ccWrite, State.nvmeReady, State.shutCheck, State.modNvme, hen, hrdy, hold, hshn, hcmds]

end Enabled

theorem State.shutTimeout_completes (h : s.host.nvme.shst = 1) : s.shutTimeout =
    ((s.advanceTo (s.host.nvme.shutAt + 100000000)).discardNvme none).modNvme fun n => { n with shst := 2, cmds := [], aers := [] } := by
  rw [State.shutTimeout, if_neg (by simpa using h)]

/-! ### Doorbells (R521, R524) -/

section Doorbell
variable (h : Live s) (path : RegPath) (queue : Fin 512) (v : BitVec 16)
include h

theorem exec_sqTailDoorbell : exec (.sqTailDoorbell path queue v) s = settled (s.sqDoorbell queue v.toNat) := by
  have hblock : windowBlock (0x1000 + 8 * queue.val) = some .nvme := if_pos (by omega)
  change settled (s.regVia path (0x1000 + 8 * queue.val) v.toNat) = _
  rw [State.regVia_block h path hblock (by omega), show (0x1000 + 8 * queue.val) % 65536 / 4 * 4 = 0x1000 + 8 * queue.val by omega,
    State.blockWrite, if_neg (by omega), State.doorbell, show (0x1000 + 8 * queue.val) % 4096 = 8 * queue.val by omega, if_pos (by omega),
    Nat.mul_div_cancel_left _ (by decide)]

theorem exec_cqHeadDoorbell : exec (.cqHeadDoorbell path queue v) s = settled (s.cqDoorbell queue v.toNat) := by
  have hblock : windowBlock (0x1004 + 8 * queue.val) = some .nvme := if_pos (by omega)
  change settled (s.regVia path (0x1004 + 8 * queue.val) v.toNat) = _
  rw [State.regVia_block h path hblock (by omega), show (0x1004 + 8 * queue.val) % 65536 / 4 * 4 = 0x1004 + 8 * queue.val by omega,
    State.blockWrite, if_neg (by omega), State.doorbell, show (0x1004 + 8 * queue.val) % 4096 = 8 * queue.val + 4 by omega, if_neg (by omega),
    show (8 * queue.val + 4) / 8 = queue.val by omega]

end Doorbell

section Queue
variable {y : Nat} (v : BitVec 16)

theorem halfword_mod : v.toNat % 65536 = v.toNat := Nat.mod_eq_of_lt v.isLt

/-- A tail inside its queue is taken. -/
theorem State.sqDoorbell_inside {q : NvSq} (hq : s.sq? y = some q) (hin : v.toNat < q.size) : s.sqDoorbell y v.toNat = s.setSq { q with tail := v.toNat } := by
  simp [State.sqDoorbell, hq, halfword_mod, hin]

/-- A tail beyond its queue has no effect. -/
theorem State.sqDoorbell_beyond {q : NvSq} (hq : s.sq? y = some q) (hout : q.size ≤ v.toNat) : s.sqDoorbell y v.toNat = s := by
  simp [State.sqDoorbell, hq, halfword_mod, Nat.not_lt.mpr hout]

theorem State.cqDoorbell_inside {q : NvCq} (hq : s.cq? y = some q) (hin : v.toNat < q.size) : s.cqDoorbell y v.toNat = s.setCq { q with head := v.toNat } := by
  simp [State.cqDoorbell, hq, halfword_mod, hin]

end Queue

/-- The aggregation time raises what a completion queue has coalesced. -/
theorem exec_aggregationTime {queue : BitVec 16} {c : NvCq} (hc : s.cq? queue.toNat = some c) (hpos : 0 < c.coalesced) (hirq : s.irqStopped = false) :
    exec (.aggregationTime queue) s = settled ((s.setCq { c with coalesced := 0 }).fireIrq c.vector) := by
  change execAggregationTime queue s = _
  simp [execAggregationTime, hc, hpos, hirq]

/-- Settles O55, clause by clause: the link, the controller's clears, CC, the shutdown's limit, the doorbells and the host's failures. -/
theorem hostLinkControllerAndDoorbells : Obligations.HostLinkControllerAndDoorbells := by
  intro s
  refine ⟨fun speed width flit msix hlink => ?_, fun kind => ?_, runs_settled ⟨rfl, rfl, rfl, rfl, rfl, rfl⟩, runs_settled ⟨rfl, rfl⟩, ?_, fun hshut => ?_, ?_,
    fun sq cid => ⟨runs_settled ⟨rfl, rfl⟩, runs_settled ⟨rfl, rfl⟩, fun t ht => ?_⟩, fun queue c hc hpos hirq => ?_⟩
  · change Runs (presented _ _) _
    rw [hlink]
    exact runs_settled rfl
  · obtain ⟨hspeed, hnvme, hmsix, hpba, hen, hdown⟩ := State.hostReset_clears (s := s)
    obtain ⟨hpins, hmem, hgrist, hcores⟩ := State.hostReset_frame (s := s)
    rw [exec_perst]
    refine runs_settled ?_
    by_cases hkind : kind = 0
    · rw [if_pos hkind, if_pos hkind]
      exact ⟨hspeed, hnvme, hmsix, hpba, hen, hdown, rfl, hmem, hgrist, hcores⟩
    · rw [if_neg hkind, if_neg hkind]
      exact ⟨hspeed, hnvme, hmsix, hpba, hen, hdown, by rw [hpins], hmem, hgrist, hcores⟩
  · intro path cc h w n
    refine ⟨fun hcc hold => ?_, fun hcc hrdy hrun hshn => ?_, fun hshnIn hcc hrdy hold hshn => ?_⟩
    · change Runs (presented _ (settled (s.regVia path 0x14 cc.toNat))) _
      rw [hcc, State.regVia_cc h, State.ccWrite_clears hold (by rw [ccMask_keeps_en, hcc])]
      exact runs_settled rfl
    · change Runs (presented _ (settled (s.regVia path 0x14 cc.toNat))) _
      rw [hcc, State.regVia_cc h, State.ccWrite_enables (by rw [ccMask_keeps_en, hcc]) hrdy hrun hshn]
      exact runs_settled ⟨rfl, rfl⟩
    · change Runs (presented _ (settled (s.regVia path 0x14 cc.toNat))) _
      rw [bne_iff_ne.mpr hshnIn, State.regVia_cc h, State.ccWrite_shuts (by rw [ccMask_keeps_en, hcc]) hrdy hold hshn]
      exact runs_settled ⟨rfl, rfl⟩
  · change Runs (settled s.shutTimeout) _
    rw [State.shutTimeout_completes hshut]
    exact runs_settled ⟨rfl, rfl⟩
  · intro path queue v h
    rw [exec_sqTailDoorbell h, exec_cqHeadDoorbell h]
    exact ⟨fun q hq hin => runs_settled (State.sqDoorbell_inside v hq hin), fun q hq hout => runs_settled (State.sqDoorbell_beyond v hq hout),
      fun q hq hin => runs_settled (State.cqDoorbell_inside v hq hin)⟩
  · change Runs (settled (s.hostFailure 1 sq.toNat cid)) _
    refine runs_settled ?_
    rw [State.hostFailure, ht]
  · rw [exec_aggregationTime hc hpos hirq]
    exact runs_settled rfl

end Sys2Proof.Machine
end

section
/-! PROOFS. The statement of 14_host_port about admin commands, the memory namespace and Execute Program. -/
namespace Sys2Proof.Machine

variable {s t x : State} {cid : BitVec 16} {dw st : Nat}

/-- A command of a queue is completed. -/
def State.nvmeEnds (s : State) (sq : Nat) (cid : BitVec 16) (dw st : Nat) : State := (s.postCqe sq cid dw 0 st).shutCheck

/-! ### Admin commands (R523) -/

/-- The command whose turn it is, is completed with what its function answers. -/
theorem State.admin_of_fetch {f : State → State × Nat × Nat} (ht : s.fetch 0 = some t) (hf : f t = (x, dw, st)) :
    s.admin cid f = x.nvmeEnds 0 cid dw st := by
  rw [State.admin, ht]
  dsimp only
  rw [hf]
  rfl

theorem runs_admin {f : State → State × Nat × Nat} (ht : s.fetch 0 = some t) (hf : f t = (x, dw, st)) :
    Runs (settled (s.admin cid f)) fun u => u = x.nvmeEnds 0 cid dw st := runs_settled (State.admin_of_fetch ht hf)

theorem State.createSq_makes {qid size cq base : Nat} (hlo : 1 ≤ qid) (hhi : qid ≤ 128) (hnew : s.sq? qid = none) (hsize : size ≠ 0) (hcq : cq ≠ 0)
    (hcqs : (s.cq? cq).isSome = true) : s.createSq qid size cq base true =
    (s.modNvme fun n => { n with sqs := n.sqs ++ [{ id := qid, cq := cq, size := size + 1, base := base }] }, 0, nvOk) := by
  have hthere : (s.cq? cq).isNone = false := by rw [Option.isNone_eq_false_iff, hcqs]
  simp [State.createSq, ioQueues, hnew, hsize, hcq, hthere, Nat.ne_of_gt hlo, Nat.not_lt.mpr hhi]

theorem State.createCq_makes {qid size base iv : Nat} (ien : Bool) (hlo : 1 ≤ qid) (hhi : qid ≤ 128) (hnew : s.cq? qid = none) (hsize : size ≠ 0)
    (hiv : iv ≤ 128) :
    s.createCq qid size base iv ien true =
    (s.modNvme fun n => { n with cqs := n.cqs ++ [{ id := qid, size := size + 1, base := base, ien := ien, vector := iv }] }, 0, nvOk) := by
  simp [State.createCq, ioQueues, hnew, hsize, Nat.ne_of_gt hlo, Nat.not_lt.mpr hhi, Nat.not_lt.mpr hiv]

theorem State.deleteSq_deletes {qid : Nat} (hqid : qid ≠ 0) (hthere : (s.sq? qid).isSome = true) : s.deleteSq qid =
    ((s.discardNvme (some qid)).modNvme fun n => { n with sqs := n.sqs.filter (·.id != qid), cmds := n.cmds.filter (·.sq != qid) }, 0, nvOk) := by
  have hnone : (s.sq? qid).isNone = false := by rw [Option.isNone_eq_false_iff, hthere]
  rw [State.deleteSq, hnone, Bool.or_false, if_neg (by simpa using hqid)]

/-- A completion queue that a submission queue names is not deleted. -/
theorem State.deleteCq_there {qid : Nat} (hqid : qid ≠ 0) (hthere : (s.cq? qid).isSome = true) : s.deleteCq qid =
    if s.host.nvme.sqs.any (·.cq == qid) then (s, 0, nvQDelete) else (s.modNvme fun n => { n with cqs := n.cqs.filter (·.id != qid) }, 0, nvOk) := by
  have hnone : (s.cq? qid).isNone = false := by rw [Option.isNone_eq_false_iff, hthere]
  rw [State.deleteCq, hnone, Bool.or_false, if_neg (by simpa using hqid)]

section Events
variable (ht : s.fetch 0 = some t) (hnone : t.host.nvme.events = [])
include ht hnone

theorem State.aer_waits (hroom : t.host.nvme.aers.length < 8) : s.aer cid = t.modNvme fun n => { n with aers := n.aers ++ [cid] } := by
  rw [State.aer, ht]
  simp [hnone, Nat.not_le.mpr hroom]

theorem State.aer_over (hfull : 8 ≤ t.host.nvme.aers.length) : s.aer cid = t.postCqe 0 cid 0 0 nvAerLimit := by
  rw [State.aer, ht]
  simp [hnone, hfull]

end Events

/-! ### The memory namespace (R528, R529) -/

theorem State.ioDone_of_fetch {sq : Nat} {f : State → State × Nat} (ht : s.fetch sq = some t) (hf : f t = (x, st)) :
    s.ioDone sq cid f = x.nvmeEnds sq cid 0 st := by
  rw [State.ioDone, ht]
  dsimp only
  rw [hf]
  rfl

/-- An I/O command that hardware can present is completed with what its function answers. -/
theorem runs_ioDone {sq : BitVec 16} {f : State → State × Nat} (hsq : sq ≠ 0) (ht : s.fetch sq.toNat = some t) (hf : f t = (x, st)) :
    Runs (presented (sq != 0) (settled (s.ioDone sq.toNat cid f))) fun u => u = x.nvmeEnds sq.toNat cid 0 st := by
  rw [bne_iff_ne.mpr hsq]
  exact runs_settled (State.ioDone_of_fetch ht hf)

section Span
variable {o n : Nat}

theorem State.memRead_inside (h : memSpanOk o n = true) (dptr : Nat) : s.memRead memoryNs o n dptr = (s.emit (.hostWrite dptr (s.nvmMem.read o n)), nvOk) := by
  simp [State.memRead, h]

theorem State.memRead_outside (h : memSpanOk o n = false) (dptr : Nat) : s.memRead memoryNs o n dptr = (s, nvBadField) := by simp [State.memRead, h]

theorem State.memWrite_inside (h : memSpanOk o n = true) (b : Bytes) :
    s.memWrite memoryNs o n (some b) = ({ s with nvmMem := s.nvmMem.write o (b.take n) }, nvOk) := by simp [State.memWrite, h]

end Span

/-- A range set of one range inside the namespace is made under a free number. -/
theorem State.rangeCreate_makes {rsid : Nat} {a n : BitVec 64} (hlo : 1 ≤ rsid) (hhi : rsid ≤ 256) (hnew : ∀ r ∈ s.host.nvme.ranges, r.1 ≠ rsid)
    (ha : a.toNat % 8 = 0) (hn : n.toNat % 8 = 0) (hend : a.toNat + n.toNat ≤ nvmBytes) : s.rangeCreate memoryNs rsid (some [(a, n)]) =
    (s.modNvme fun v => { v with ranges := v.ranges ++ [(rsid, [(a.toNat, n.toNat)])] }, nvOk) := by
  have hfree : s.host.nvme.ranges.any (·.1 == rsid) = false := by
    rw [List.any_eq_false]
    exact fun r hr => by rw [beq_iff_eq]; exact hnew r hr
  simp [State.rangeCreate, hfree, ha, hn, Nat.not_lt.mpr hend, Nat.ne_of_gt hlo, Nat.not_lt.mpr hhi]

theorem State.rangeDelete_deletes {rsid : Nat} (h : s.host.nvme.ranges.any (·.1 == rsid) = true) : s.rangeDelete memoryNs rsid =
    (s.modNvme fun v => { v with ranges := v.ranges.filter (·.1 != rsid) }, nvOk) := by
  rw [State.rangeDelete, h]
  rfl

/-! ### Programs (R527, R531, R532) -/

/-- Activation is reported and asked for a program that is there; it cannot be undone. -/
theorem exec_programActivation {sq : BitVec 16} {program : BitVec 16} (hsq : sq ≠ 0) (ht : s.fetch sq.toNat = some t)
    (hprog : (t.programSvc program.toNat).isSome = true) (op : Fin 3) :
    exec (.programActivationManagement sq cid (BitVec.ofNat 32 computeNs) program op) s =
      settled (t.nvmeEnds sq.toNat cid (if op = 0 then 1 else 0) (if op = 2 then nvBadField else nvOk)) := by
  have hthere : (t.programSvc program.toNat).isNone = false := by rw [Option.isNone_eq_false_iff, hprog]
  change presented (sq != 0) _ = _
  rw [bne_iff_ne.mpr hsq, ht]
  dsimp only
  rw [hthere]
  match op with
  | 0 => rfl
  | 1 => rfl
  | 2 => rfl

section Execute
variable {sq : Nat} {nsid pind rsid : Nat} {param : Option Bytes} (ht : s.fetch sq = some t)
include ht

/-- The first check that fails gives the status. -/
theorem State.executeProgram_fails (hcheck : s.execCheck nsid pind rsid param = .inl st) (hst : st ≠ nvDataError) :
    s.executeProgram sq cid nsid pind rsid param = (t.hostErr 3).nvmeEnds sq cid 0 st := by
  rw [State.executeProgram, hcheck, ht]
  dsimp only
  rw [if_neg (by simpa using hst)]
  rfl

/-- Parameters that pass every check pass the request to admission. -/
theorem State.executeProgram_passes {ra rl aa cap : Nat} (hcheck : s.execCheck nsid pind rsid param = .inr (ra, rl, aa, cap)) (hstamp : s.canStamp = true) :
    s.executeProgram sq cid nsid pind rsid param =
      (((t.substitute (s.nvmMem.read ra rl)).2.modNvme fun n => { n with cmds := n.cmds ++ [{ sq := sq, cid := cid, answerAt := aa, capacity := cap }] }).takeRequest
        (.nvme (BitVec.ofNat 16 sq) cid) (t.substitute (s.nvmMem.read ra rl)).1).kick := by
  rw [State.executeProgram, hcheck]
  dsimp only
  rw [hstamp, Bool.not_true, Bool.and_false, if_neg Bool.false_ne_true, ht]

end Execute

/-- A half word that is not 0 is not the number 0. -/
theorem halfword_ne_zero {v : BitVec 16} (h : v ≠ 0) : v.toNat ≠ 0 := fun h0 => h (BitVec.eq_of_toNat_eq h0)

/-- Settles O56: each clause is a queue's function answered for the command fetched. -/
theorem queuesMemoryAndPrograms : Obligations.QueuesMemoryAndPrograms := by
  intro s t cid
  refine ⟨?_, ?_⟩
  · intro ht done
    refine ⟨fun queue size cq base hlo hhi hnew hsize hcq hcqs => ?_, fun queue size vector base ien hlo hhi hnew hsize hiv => ?_, fun size cq base pc => ?_,
      fun queue hqueue hthere => ?_, fun queue hqueue hthere => ?_, fun cns csi nsid dptr b hb => ?_, fun lid off dptr len b hlid hb => ?_, fun w => ⟨?_, ?_⟩,
      fun hnone hroom => runs_settled (State.aer_waits ht hnone hroom), fun hnone hfull => runs_settled (State.aer_over ht hnone hfull), fun _ _ => ?_⟩
    · exact runs_admin ht (State.createSq_makes hlo hhi hnew (halfword_ne_zero hsize) (halfword_ne_zero hcq) hcqs)
    · exact runs_admin ht (State.createCq_makes ien hlo hhi hnew (halfword_ne_zero hsize) hiv)
    · exact runs_admin ht rfl
    · exact runs_admin ht (State.deleteSq_deletes (halfword_ne_zero hqueue) hthere)
    · refine runs_settled ?_
      cases hany : t.host.nvme.sqs.any (·.cq == queue.toNat) with
      | true => exact State.admin_of_fetch ht ((State.deleteCq_there (halfword_ne_zero hqueue) hthere).trans (if_pos hany))
      | false => exact State.admin_of_fetch ht ((State.deleteCq_there (halfword_ne_zero hqueue) hthere).trans (if_neg (by rw [hany]; decide)))
    · refine runs_admin ht ?_
      rw [hb]
    · refine runs_admin ht ?_
      rw [hb]
      dsimp only
      rw [if_neg (by simpa using hlid)]
    · exact runs_settled (congrArg State.smartTemp (State.admin_of_fetch ht rfl))
    · exact runs_admin ht rfl
    · exact runs_admin ht rfl
  · intro sq hsq ht done
    refine ⟨fun off dptr len hspan => ⟨?_, fun b => ?_⟩, fun off dptr len hspan => ?_, fun rsid a n hlo hhi hnew ha hn hend => ?_, fun rsid hany => ?_, ?_,
      fun program hprog => ?_, fun nsid program rsid param => ⟨fun st hcheck hst => ?_, fun ra rl aa cap hcheck hstamp => ?_⟩⟩
    · exact runs_ioDone hsq ht (State.memRead_inside hspan _)
    · exact runs_ioDone hsq ht (State.memWrite_inside hspan b)
    · exact runs_ioDone hsq ht (State.memRead_outside hspan _)
    · exact runs_ioDone hsq ht (State.rangeCreate_makes hlo hhi hnew ha hn hend)
    · exact runs_ioDone hsq ht (State.rangeDelete_deletes hany)
    · exact runs_ioDone hsq ht rfl
    · simp only [exec_programActivation hsq ht hprog]
      exact ⟨runs_settled rfl, runs_settled rfl, runs_settled rfl⟩
    · change Runs (presented _ _) _
      rw [bne_iff_ne.mpr hsq]
      exact runs_settled (State.executeProgram_fails ht hcheck hst)
    · change RunsThen _ (presented _ (settled (s.executeProgram ..))) _
      rw [bne_iff_ne.mpr hsq, State.executeProgram_passes ht hcheck hstamp, BitVec.ofNat_toNat, BitVec.setWidth_eq]
      exact ⟨_, rfl, rfl⟩

end Sys2Proof.Machine
end

section
/-! PROOFS. The statement of 17_faults_test_and_replay about self-tests and watchdogs. -/
namespace Sys2Proof.Machine

variable {s : State}

/-! ### What a test's request asks for (R596, R598) -/

/-- The FAULT block keeps the kind and the unit that FLT_TEST named last. -/
def State.testAsked (s : State) (kind : BitVec 3) (unit : BitVec 10) : State := { s with flt := { s.flt with testKind := kind, testUnit := unit } }

theorem State.fltTest_word {kind : Nat} (hk : kind < 8) (unit : BitVec 10) :
    s.fltTest (BitVec.ofNat 32 (fltTestWord kind unit)) = (s.testAsked (BitVec.ofNat 3 kind) unit).requestTest kind unit.toNat := by
  have hunit := unit.isLt
  have hlt : fltTestWord kind unit < 2 ^ 32 := by unfold fltTestWord; omega
  have hkind : bitsOf (fltTestWord kind unit) 2 0 = kind := by simp only [bitsOf, fltTestWord, Nat.shiftRight_zero]; omega
  have hnum : bitsOf (fltTestWord kind unit) 17 8 = unit.toNat := by simp only [bitsOf, fltTestWord, Nat.shiftRight_eq_div_pow]; omega
  have hgo : (BitVec.ofNat 32 (fltTestWord kind unit)).getLsbD 31 = true := by
    simp only [BitVec.getLsbD_ofNat, Nat.testBit_eq_decide_div_mod_eq, fltTestWord]
    simp
    omega
  rw [State.fltTest, BitVec.toNat_ofNat, Nat.mod_eq_of_lt hlt, hkind, hnum, hgo, BitVec.ofNat_toNat, BitVec.setWidth_eq]
  rfl

theorem State.blockWrite_fltTest (v : Nat) (r : Reads) : s.blockWrite .fault (fltTestAt % 65536 / 4 * 4) v r = s.fltTest (BitVec.ofNat 32 v) := rfl

/-- A request by FLT_TEST keeps the unit and asks for its test. -/
theorem State.regVia_fltTest (h : Live s) (path : RegPath) {kind : Nat} (hk : kind < 8) (unit : BitVec 10) :
    s.regVia path fltTestAt (fltTestWord kind unit) = (s.testAsked (BitVec.ofNat 3 kind) unit).requestTest kind unit.toNat := by
  have hunit := unit.isLt
  rw [State.regVia_block (b := .fault) h path rfl (by unfold fltTestWord; omega), State.blockWrite_fltTest, State.fltTest_word hk]

section Accept
variable {k : UnitKind} {unit : Nat}

theorem State.acceptTest_refused (h : k.count ≤ unit ∨ s.unitEnabled k unit = false ∨ (s.underTest k.code unit = false ∧ 64 ≤ s.flt.queue.length)) :
    s.acceptTest k unit = s.testRefused k.code unit := by
  unfold State.acceptTest
  by_cases hout : k.count ≤ unit ∨ s.unitEnabled k unit = false
  · exact if_pos (by simpa using hout)
  · obtain ⟨hwaits, hfull⟩ : s.underTest k.code unit = false ∧ 64 ≤ s.flt.queue.length := by tauto
    rw [if_neg (by simpa using hout), hwaits, if_neg Bool.false_ne_true, if_pos hfull]

section There
variable (hunit : unit < k.count) (hen : s.unitEnabled k unit = true)
include hunit hen

theorem State.acceptTest_merged (h : s.underTest k.code unit = true) : s.acceptTest k unit = s := by
  rw [State.acceptTest, hen, h, if_neg (by simpa using hunit), if_pos rfl]

/-- An accepted test is queued and holds its unit. -/
theorem State.acceptTest_queued (h : s.underTest k.code unit = false) (hroom : s.flt.queue.length < 64) : s.acceptTest k unit =
    ({ s with flt := { s.flt with queue := s.flt.queue ++ [(⟨BitVec.ofNat 3 k.code, BitVec.ofNat 10 unit⟩ : TestReq)] } } : State).holdForTest k unit
      (s.arrayHeld (unit / 4) (unit % 4)) := by
  rw [State.acceptTest, hen, h, if_neg (by simpa using hunit), if_neg Bool.false_ne_true, if_neg (by omega)]

end There
end Accept

/-- Kind 4 makes a stack's training due, unless the stack has failed (R355). -/
theorem State.requestTest_retrain {unit : Nat} (h : unit < 16) :
    s.requestTest 4 unit = s.modMem unit fun m => if m.state = 2 then m else { m with trainPend := .allOnes 32 } := by
  have hgo : (4 == 4 && decide (unit < 16)) = true := by rw [decide_eq_true h]; rfl
  rw [State.requestTest]
  refine (if_pos hgo).trans (congrArg (s.modMem unit) (funext fun m => ?_))
  by_cases hfailed : m.state = 2
  · rw [if_pos hfailed, if_pos (beq_iff_eq.mpr hfailed)]
  · rw [if_neg hfailed, if_neg fun hbeq => hfailed (beq_iff_eq.mp hbeq)]

/-- Kind 5 makes a flash channel's calibration due (R385). -/
theorem State.requestTest_calibrates {unit : Nat} (h : unit < 32) (hcal : (s.flashCh unit).calDue = false) :
    s.requestTest 5 unit = s.modFlashCh unit fun k => { k with calDue := true, dueAt := s.time.up } := by
  have hgo : (5 == 5 && decide (unit < 32)) = true := by rw [decide_eq_true h]; rfl
  rw [State.requestTest]
  exact (if_pos hgo).trans (congrArg (fun k => { s with fls := { s.fls with chans := s.fls.chans.set FlashCh.reset unit k } })
    (if_neg (ne_true_of_eq_false hcal)))

theorem State.requestTest_noStack {unit : Nat} (h : 16 ≤ unit) : s.requestTest 4 unit = s.testRefused 4 unit := by
  have hno : (4 == 4 && decide (unit < 16)) = false := by rw [decide_eq_false (by omega)]; rfl
  rw [State.requestTest]
  exact if_neg (ne_true_of_eq_false hno)

theorem State.requestTest_noChannel {unit : Nat} (h : 32 ≤ unit) : s.requestTest 5 unit = s.testRefused 5 unit := by
  have hno : (5 == 5 && decide (unit < 32)) = false := by rw [decide_eq_false (by omega)]; rfl
  rw [State.requestTest]
  exact if_neg (ne_true_of_eq_false hno)

/-! ### The start and the rotation (R597, R600) -/

section Start
variable {q : TestReq} {rest : List TestReq} {k : UnitKind} (hq : s.flt.queue = q :: rest) (hk : testUnitKind q.kind.toNat = some k)
include hq hk

theorem State.testStart_waits (h : s.testReady k q.unit.toNat = false) : s.testStart = s := by
  rw [State.testStart, hq]
  simp [hk, h]

/-- The head of the queue starts; a fenced core comes into test. -/
theorem State.testStart_starts (h : s.testReady k q.unit.toNat = true) (hroom : s.flt.running.length < 8) (hfree : ∀ o ∈ s.flt.running, o.tile ≠ q.tile) :
    let t : State := { s with flt := { s.flt with queue := rest, running := s.flt.running ++ [q] } }
    s.testStart = if k = .core ∧ (s.core q.unit.toNat).st = .fenced then t.setCore q.unit.toNat { s.core q.unit.toNat with st := .testing } else t := by
  intro t
  have hnone : s.flt.running.any (fun o => o.tile == q.tile) = false := by
    rw [List.any_eq_false]
    exact fun o ho => by rw [beq_iff_eq]; exact hfree o ho
  have hgo : (!s.testReady k q.unit.toNat || decide (s.flt.running.length ≥ 8) || s.flt.running.any fun o => o.tile == q.tile) = false := by
    rw [h, hnone, decide_eq_false (by omega)]
    rfl
  rw [State.testStart, hq]
  simp only [hk, hgo]
  rw [if_neg Bool.false_ne_true]
  cases k with
  | core =>
    by_cases hst : (s.core q.unit.toNat).st = .fenced
    · exact (if_pos (beq_iff_eq.mpr hst)).trans (if_pos (And.intro rfl hst)).symm
    · exact (if_neg fun hbeq => hst (beq_iff_eq.mp hbeq)).trans (if_neg fun hboth => hst hboth.2).symm
  | array => exact (if_neg fun hboth => UnitKind.noConfusion hboth.1).symm
  | gather => exact (if_neg fun hboth => UnitKind.noConfusion hboth.1).symm

end Start

theorem State.testRotation_next {n : Nat} (hperiod : s.flt.period ≠ 0) (hlive : s.regsLive = true) (hpow : Powered s) (hn : s.nextRot s.flt.rotPos.toNat = some n) :
    let moved : State := { s with flt := { s.flt with rotPos := BitVec.ofNat 11 ((n + 1) % 1344) } }
    s.testRotation = if s.rotSkips (rotUnit n).1 (rotUnit n).2 then moved else moved.acceptTest (rotUnit n).1 (rotUnit n).2 := by
  intro moved
  have hgo : (s.flt.period == 0 || !s.regsLive || decide (s.pwr.state.toNat ≥ 2)) = false := by
    rw [beq_false_of_ne hperiod, hlive, decide_eq_false (by have := hpow.2; omega)]
    rfl
  rw [State.testRotation, hgo, if_neg Bool.false_ne_true, hn]
  rfl

theorem State.testRotation_off (h : s.flt.period = 0) : s.testRotation = s := by
  rw [State.testRotation, h]
  rfl

/-! ### The end of a test (R593, R597) -/

/-- What the FAULT block keeps of tests: those that run, and the last result. -/
def Flt.tests (f : Flt) : List TestReq × BitVec 3 × BitVec 10 × BitVec 2 := (f.running, f.lastKind, f.lastUnit, f.lastResult)

theorem Flt.tests_eq {f g : Flt} : f.tests = g.tests ↔
    f.running = g.running ∧ f.lastKind = g.lastKind ∧ f.lastUnit = g.lastUnit ∧ f.lastResult = g.lastResult := by
  simp only [Flt.tests, Prod.mk.injEq]

theorem State.tests_logRecord (s : State) (r : Report) : (s.logRecord r).2.flt.tests = s.flt.tests := by
  have hstamp := s.stampOrZero_eq
  unfold State.logRecord
  dsimp only
  rw [hstamp]
  repeat' split
  all_goals rfl

/-- What the record of a fence leaves as it was: the fence bits, the capture, what is kept of tests, and the count of the failed ones. -/
structure TestsKept (s t : State) : Prop where
  tiles : t.tiles = s.tiles
  matrix : t.matrix = s.matrix
  cask : t.cask = s.cask
  tests : t.flt.tests = s.flt.tests
  count : t.errCount 0x11 = s.errCount 0x11

theorem TestsKept.trans {t u : State} (h : TestsKept s t) (h' : TestsKept t u) : TestsKept s u :=
  ⟨h'.tiles.trans h.tiles, h'.matrix.trans h.matrix, h'.cask.trans h.cask, h'.tests.trans h.tests, h'.count.trans h.count⟩

section Kept
variable (h : s.cask.state = 0)
include h

/-- Without capture a report is the record of the log alone. -/
theorem State.report_uncaptured (r : Report) : s.report r = (s.logRecord r).2 := by
  have hcask : (s.logRecord r).2.cask.state = 0 := by rwa [(s.logRecord_eq r).1]
  obtain heq | ⟨b, heq⟩ := s.report_eq r
  · exact heq
  · rw [heq, State.caskEvent, State.caskRec_idle hcask]

theorem State.tests_report (r : Report) : (s.report r).flt.tests = s.flt.tests := by rw [State.report_uncaptured h, State.tests_logRecord]

theorem State.caskEvent_idle (part ev : Nat) (payload : Bytes) : s.caskEvent part ev payload = s := State.caskRec_idle h _ _ _ _

theorem State.testsKept_fenceRecord (kind unit : Nat) (fenced mgmt data : Bool) (part : Nat) : TestsKept s (s.fenceRecord kind unit fenced mgmt data part) := by
  have hunits := State.fenceRecord_units (s := s) kind unit fenced mgmt data part
  unfold State.fenceRecord
  refine ⟨hunits.1, hunits.2.2.1, ?_, State.tests_report h _, ?_⟩
  · change (s.report _).cask = s.cask
    rw [State.report_uncaptured h, (s.logRecord_eq _).1]
  · change (s.report _).errCount 0x11 = _
    rw [State.report_uncaptured h, State.errCount_logRecord_ne _ _ (show 0x11 ≠ 0x12 by decide)]

theorem State.testsKept_fenced (kind unit : Nat) (fenced mgmt data : Bool) (part part' ev : Nat) (payload : Bytes) :
    TestsKept s ((s.fenceRecord kind unit fenced mgmt data part).caskEvent part' ev payload) := by
  have hkept := State.testsKept_fenceRecord h kind unit fenced mgmt data part
  rwa [State.caskEvent_idle (by rw [hkept.cask, h])]

end Kept

/-- What a change of a unit's data bit does to it, and what it keeps. -/
structure DataSet (s : State) (k : UnitKind) (unit : Nat) (b : Bool) (u : State) : Prop where
  bit : u.dataBit k unit = b
  cask : u.cask = s.cask
  tests : u.flt.tests = s.flt.tests
  count : u.errCount 0x11 = s.errCount 0x11

theorem DataSet.kept {k : UnitKind} {unit : Nat} {b : Bool} {t u : State} (h : DataSet s k unit b t) (h' : TestsKept t u) : DataSet s k unit b u := by
  refine ⟨?_, h'.cask.trans h.cask, h'.tests.trans h.tests, h'.count.trans h.count⟩
  have hbit := h.bit
  cases k with
  | core => simpa only [State.dataBit, State.tile, h'.tiles] using hbit
  | array => simpa only [State.dataBit, State.mtx, h'.matrix] using hbit
  | gather => simpa only [State.dataBit, State.tile, h'.tiles] using hbit

/-- The record of the fence that follows keeps it so. -/
theorem DataSet.fenced {k : UnitKind} {unit : Nat} {b : Bool} {t : State} (h : DataSet s k unit b t) (hcask : s.cask.state = 0)
    (kind number : Nat) (fenced mgmt data : Bool) (part part' ev : Nat) (payload : Bytes) :
    DataSet s k unit b ((t.fenceRecord kind number fenced mgmt data part).caskEvent part' ev payload) :=
  h.kept (State.testsKept_fenced (by rw [h.cask, hcask]) ..)

/-- Setting a unit's data bit moves neither what is kept of tests nor their count. -/
theorem State.dataSet_setData (h : s.cask.state = 0) (k : UnitKind) (unit : Nat) (b : Bool) : DataSet s k unit b (s.setData k unit b) := by
  cases k with
  | core =>
    have hset : DataSet s .core unit b (s.modTile (tileOf unit) fun t => { t with data := bput t.data (coreNo unit) b }) := by
      refine ⟨?_, rfl, rfl, rfl⟩
      simp [State.dataBit, State.tile, State.modTile, SMap.modify, getLsbD_bput _ _ _ _ (show coreNo unit < 9 from Nat.mod_lt _ (by decide))]
    unfold State.setData State.coreBits
    dsimp only
    split
    · exact hset.fenced h ..
    · exact hset
  | array =>
    have hset : DataSet s .array unit b (s.modMtx (unit / 4) fun m => { m with data := bput m.data (unit % 4) b }) := by
      refine ⟨?_, rfl, rfl, rfl⟩
      simp [State.dataBit, State.mtx, State.modMtx, SMap.modify, getLsbD_bput _ _ _ _ (show unit % 4 < 4 from Nat.mod_lt _ (by decide))]
    unfold State.setData State.arrayBits
    dsimp only
    split
    · exact hset.fenced h ..
    · exact hset
  | gather =>
    have hset : DataSet s .gather unit b (s.modTile unit fun t => { t with gdata := b }) := by
      refine ⟨?_, rfl, rfl, rfl⟩
      simp [State.dataBit, State.tile, State.modTile, SMap.modify]
    change DataSet s .gather unit b (s.setGatherFence unit _)
    unfold State.setGatherFence
    extract_lets was before t now after v
    have hv : DataSet s .gather unit b v := by
      unfold v
      split
      · exact hset.kept ⟨rfl, rfl, rfl, rfl, rfl⟩
      · exact hset
    split
    · exact hv.fenced h ..
    · exact hv

/-- The tests that run without one that ends, and its result. -/
def State.testScored (s : State) (q : TestReq) (pass : Bool) : State :=
  { s with flt := { s.flt with running := s.flt.running.filter (· != q), lastKind := q.kind, lastUnit := q.unit, lastResult := if pass then 0 else 1 } }

/-- The report of a failed test. -/
def testReport (k : UnitKind) (unit pattern part : Nat) : Report :=
  { cls := 0x11, action := 1, part := part, kind := k.code, unit := unit, loc := pattern, detail := k.code }

/-- The request of a unit's test. -/
def testOf (k : UnitKind) (unit : Nat) : TestReq := ⟨BitVec.ofNat 3 k.code, BitVec.ofNat 10 unit⟩

/-- A test's result is kept, and a failure reported. -/
def State.testTold (s : State) (k : UnitKind) (unit : Nat) (pass : Bool) (pattern : Nat) : State :=
  let t := s.testScored (testOf k unit) pass
  if pass then t else t.report (testReport k unit pattern (t.unitPart k unit))

section TestEnd
variable (k : UnitKind) (unit : Nat) (pass : Bool) (pattern : Nat)

theorem State.testTold_kept (h : s.cask.state = 0) :
    (s.testTold k unit pass pattern).cask = s.cask ∧ (s.testTold k unit pass pattern).flt.tests = (s.testScored (testOf k unit) pass).flt.tests ∧
      (s.testTold k unit pass pattern).errCount 0x11 = s.errCount 0x11 + if pass then 0 else 1 := by
  cases pass with
  | true => exact ⟨rfl, rfl, (BitVec.add_zero _).symm⟩
  | false =>
    obtain ⟨honly, hcount⟩ := State.report_idle (s := s.testScored (testOf k unit) false) h
      (testReport k unit pattern ((s.testScored (testOf k unit) false).unitPart k unit))
    refine ⟨?_, State.tests_report (s := s.testScored (testOf k unit) false) h _, hcount⟩
    change (State.report _ _).cask = _
    rw [honly]
    rfl

theorem State.testEnd_of_running (hrun : testOf k unit ∈ s.flt.running) : s.testEnd k unit pass pattern =
    let v := (s.testTold k unit pass pattern).setData k unit (!pass)
    let w := (v.caskEvent (s.unitPart k unit) 4 (toLE 2 (k.rot unit) ++ [BitVec.ofNat 8 (b2n pass)])).testRelease k unit
    (if k == .core then w.waitedReset unit else w).kick := by
  have hcontains : (!s.flt.running.contains (testOf k unit)) = false := by rw [List.contains_iff_mem.mpr hrun]; rfl
  rw [State.testEnd]
  exact if_neg (ne_true_of_eq_false hcontains)

/-- A test that runs ends: its result is kept, a failure is reported, the data bit is set or cleared, and the unit released. -/
theorem State.testEnd_ends (hrun : testOf k unit ∈ s.flt.running) (h : s.cask.state = 0) : ∃ v : State,
    s.testEnd k unit pass pattern = (if k = .core then (v.testRelease k unit).waitedReset unit else v.testRelease k unit).kick ∧ v.dataBit k unit = !pass ∧
      v.flt.tests = (s.testScored (testOf k unit) pass).flt.tests ∧ v.errCount 0x11 = s.errCount 0x11 + if pass then 0 else 1 := by
  obtain ⟨hcask, htests, hcount⟩ := State.testTold_kept k unit pass pattern h
  have hset := State.dataSet_setData (s := s.testTold k unit pass pattern) (by rw [hcask, h]) k unit (!pass)
  refine ⟨_, ?_, hset.bit, hset.tests.trans htests, hset.count.trans hcount⟩
  rw [State.testEnd_of_running k unit pass pattern hrun]
  dsimp only
  rw [State.caskEvent_idle (by rw [hset.cask, hcask, h])]
  cases k <;> rfl

end TestEnd

/-! ### Watchdogs (R591, R592) -/

theorem State.watchdog_unused {k : UnitKind} {unit : Nat} (h : s.hungTag k unit = none) (addr us : Nat) : s.watchdog k unit addr us = s := by
  rw [State.watchdog, h]

/-- Work that has hung is reported once, and its unit fenced from the data path. -/
theorem State.watchdog_fences {k : UnitKind} {unit tag : Nat} (htag : s.hungTag k unit = some tag) (h : s.cask.state = 0) (addr us : Nat) :
    ∃ v : State, s.watchdog k unit addr us = (v.dataFence k unit).kick ∧ v.errCount 0x10 = s.errCount 0x10 + 1 ∧ OnlyReports s v := by
  let r : Report := { cls := 0x10, action := 1, part := s.unitPart k unit, kind := k.code, unit := unit, loc := addr, tag := tag, detail := us }
  have hreport := State.report_idle h { r with action := r.action + s.actionBits (s.dataFence k unit) }
  refine ⟨_, ?_, hreport.2, hreport.1⟩
  rw [State.watchdog, htag]
  rfl

/-- Settles O57, clause by clause: what FLT_TEST asks for, the start, the end, the rotation and the watchdog. -/
theorem selfTestsAndWatchdogs : Obligations.SelfTestsAndWatchdogs := by
  intro s
  refine ⟨?_, fun q rest k hq hk hready hroom hfree => ?_, fun q rest k hq hk hready => runs_settled (State.testStart_waits hq hk hready), ?_,
    fun n hperiod hlive hpow hn => runs_settled (State.testRotation_next hperiod hlive hpow hn), fun h => runs_settled (State.testRotation_off h), ?_⟩
  · intro path unit h asked queued refused n
    have hunit : BitVec.ofNat 10 unit.toNat = unit := by rw [BitVec.ofNat_toNat, BitVec.setWidth_eq]
    have hask (kind : Nat) (hk : kind < 8) : s.regVia path fltTestAt (fltTestWord kind unit) = (s.testAsked (BitVec.ofNat 3 kind) unit).requestTest kind n :=
      State.regVia_fltTest h path hk unit
    have haccept (k : UnitKind) : s.regVia path fltTestAt (fltTestWord k.code unit) = (s.testAsked (BitVec.ofNat 3 k.code) unit).acceptTest k n := by
      rw [hask k.code (by cases k <;> decide)]
      cases k <;> rfl
    have htold (kind : Nat) : (s.testAsked (BitVec.ofNat 3 kind) unit).testRefused kind n = refused (BitVec.ofNat 3 kind) := by
      change State.testRefused _ _ unit.toNat = _
      rw [State.testRefused, hunit]
      rfl
    have hrefused (k : UnitKind) (hno : k.count ≤ n ∨ s.unitEnabled k n = false ∨ (s.underTest k.code n = false ∧ 64 ≤ s.flt.queue.length)) :
        s.regVia path fltTestAt (fltTestWord k.code unit) = refused (BitVec.ofNat 3 k.code) := by
      rw [haccept, State.acceptTest_refused (s := s.testAsked (BitVec.ofNat 3 k.code) unit) hno, htold]
    have hqueued (k : UnitKind) (hn : n < k.count) (hen : s.unitEnabled k n = true) (hfree : s.underTest k.code n = false) (hroom : s.flt.queue.length < 64) :
        s.regVia path fltTestAt (fltTestWord k.code unit) = (queued (BitVec.ofNat 3 k.code)).holdForTest k n (s.arrayHeld (n / 4) (n % 4)) := by
      rw [haccept, State.acceptTest_queued (s := s.testAsked (BitVec.ofNat 3 k.code) unit) hn hen hfree hroom, hunit]
      rfl
    refine ⟨fun hn hen hfree hroom => runs_settled (hqueued .core hn hen hfree hroom),
      fun hn hen hwaits => runs_settled ((haccept .core).trans (State.acceptTest_merged (s := s.testAsked 1 unit) hn hen hwaits)),
      fun hno => runs_settled (hrefused .core hno), fun hn hen hfree hroom => runs_settled (hqueued .array hn hen hfree hroom),
      fun hno => runs_settled (hrefused .array (hno.imp_right .inl)), fun hn hen hfree hroom => runs_settled (hqueued .gather hn hen hfree hroom),
      fun hno => runs_settled (hrefused .gather (hno.imp_right .inl)), fun hn => runs_settled ((hask 4 (by decide)).trans (State.requestTest_retrain hn)),
      fun hn => runs_settled ((hask 4 (by decide)).trans ((State.requestTest_noStack hn).trans (htold 4))),
      fun hn hcal => runs_settled ((hask 5 (by decide)).trans (State.requestTest_calibrates (s := s.testAsked 5 unit) hn hcal)),
      fun hn => runs_settled ((hask 5 (by decide)).trans ((State.requestTest_noChannel hn).trans (htold 5)))⟩
  · rw [show exec .testStart s = settled s.testStart from rfl, State.testStart_starts hq hk hready hroom hfree]
    by_cases hcore : k = .core ∧ (s.core q.unit.toNat).st = .fenced
    · rw [if_pos hcore]
      refine runs_settled ⟨rfl, fun _ _ => ?_, fun hno => absurd hcore.1 hno⟩
      rw [State.core, State.setCore, SMap.get_set_same]
    · rw [if_neg hcore]
      exact runs_settled ⟨rfl, fun hk hst => absurd ⟨hk, hst⟩ hcore, fun _ => rfl⟩
  · intro unit pass pattern k n hrun h
    obtain ⟨v, hend, hbit, htests, hcount⟩ := State.testEnd_ends k n pass pattern.toNat hrun h
    have hfilter : s.flt.running.filter (· != testOf k n) = s.flt.running.filter (· ≠ testOf k n) := List.filter_congr fun x _ => by
      rw [bne, beq_eq_decide, decide_not]
    obtain ⟨hrunning, hkind, hunit, hresult⟩ := Flt.tests_eq.mp htests
    change RunsThen _ (settled (s.testEnd k n pass pattern.toNat)) _
    rw [hend]
    refine runsThen_settled (f := fun u => (if k = .core then u.waitedReset n else u).kick) ⟨v, rfl, hbit, hresult, hunit, hkind, hrunning.trans hfilter, ?_, ?_⟩
    · intro hpass
      rw [hcount, hpass]
      rfl
    · intro hpass
      rw [hcount, hpass]
      exact BitVec.add_zero _
  · intro unit addr us k n
    refine ⟨fun hnone => runs_settled (State.watchdog_unused hnone _ _), fun tag htag h => ?_⟩
    obtain ⟨v, hfence, hcount, honly⟩ := State.watchdog_fences htag h addr.toNat us.toNat
    change RunsThen _ (settled (s.watchdog k n addr.toNat us.toNat)) _
    rw [hfence]
    exact runsThen_settled ⟨v, rfl, hcount, honly⟩

end Sys2Proof.Machine
end

section
/-! PROOFS. The statement of 17_faults_test_and_replay about captures and replays. -/
namespace Sys2Proof.Machine

variable {s : State}

/-! ### CASK_CTRL and CASK_FEED (R615) -/

/-- CASK_CTRL keeps the mode that its word carries. -/
def State.caskMode (s : State) (mode : BitVec 2) : State := { s with cask := { s.cask with mode := mode } }

theorem State.caskCtrl_capture (h : s.cask.state = 0) : s.caskCtrl 5 = (s.caskMode 1).captureStart := by
  rw [State.caskCtrl, h]
  rfl

theorem State.caskCtrl_replay (h : s.cask.state = 0) : s.caskCtrl 6 = (s.caskMode 2).replayStart := by
  rw [State.caskCtrl, h]
  rfl

/-- STOP alone, with MODE as it stands. -/
theorem State.caskCtrl_stop : s.caskCtrl (BitVec.ofNat 32 (8 + s.cask.mode.toNat)) = s.caskStop := by
  have hmode := s.cask.mode.isLt
  have hkeep : (BitVec.ofNat 32 (8 + s.cask.mode.toNat)).extractLsb' 0 2 = s.cask.mode := by
    apply BitVec.eq_of_toNat_eq
    rw [BitVec.extractLsb'_toNat, BitVec.toNat_ofNat, Nat.shiftRight_zero]
    omega
  have hstart : (BitVec.ofNat 32 (8 + s.cask.mode.toNat)).getLsbD 2 = false := by
    rw [BitVec.getLsbD_ofNat, Nat.testBit_eq_decide_div_mod_eq]
    simp
    omega
  have hstop : (BitVec.ofNat 32 (8 + s.cask.mode.toNat)).getLsbD 3 = true := by
    rw [BitVec.getLsbD_ofNat, Nat.testBit_eq_decide_div_mod_eq]
    simp
    omega
  rw [State.caskCtrl, hkeep, hstart, hstop]
  rfl

theorem State.regWrite_caskCtrl (v : Word) (r : Reads) : s.regWrite caskCtrlAt v r = s.caskCtrl v := by
  have hv : BitVec.ofNat 32 v.toNat = v := by rw [BitVec.ofNat_toNat, BitVec.setWidth_eq]
  rw [State.regWrite_block (b := .cask) rfl]
  change s.caskCtrl (BitVec.ofNat 32 v.toNat) = _
  rw [hv]

theorem State.regWrite_caskFeed (r : Reads) : s.regWrite caskFeedAt 1 r = s.caskFeed r.buf := by
  rw [State.regWrite_block (b := .cask) rfl]
  rfl

/-- A write while no capture is on is performed, unrecorded. -/
theorem State.regVia_uncaptured (hlive : s.regsLive = true) (hcap : s.capturing 0xFF = false) (path : RegPath) (off v : Nat) (r : Reads) :
    s.regVia path off v r = s.regWrite off (BitVec.ofNat 32 v) r := by
  simp [State.regVia, State.spaceWrite, State.viaReg, State.caskRec, hlive, hcap]

section Stop
variable (hlive : s.regsLive = true) (path : RegPath)
include hlive

theorem exec_caskStop (hcap : s.capturing 0xFF = false) : exec (.caskStop path) s = settled s.caskStop := by
  change settled (s.regVia path caskCtrlAt (8 + s.cask.mode.toNat) _) = _
  rw [State.regVia_uncaptured hlive hcap, State.regWrite_caskCtrl, State.caskCtrl_stop]

theorem exec_caskFeed (hcap : s.capturing 0xFF = false) (buf : Option Bytes) : exec (.caskFeed path buf) s = settled (s.caskFeed buf) := by
  change settled (s.regVia path caskFeedAt 1 _) = _
  rw [State.regVia_uncaptured hlive hcap]
  exact congrArg settled (State.regWrite_caskFeed _)

end Stop

/-! ### A capture that ends with its last segment (R609) -/

/-- A state that a record went into, with its segment still open: only the capture moved, and by a segment at most. -/
structure RecordedIn (s u : State) : Prop where
  only : u = { s with cask := u.cask }
  state : u.cask.state = s.cask.state
  mode : u.cask.mode = s.cask.mode
  grown : s.cask.ring.length ≤ u.cask.ring.length ∧ u.cask.ring.length ≤ s.cask.ring.length + 1
  isOpen : u.cask.cur ≠ []

theorem State.caskPut_recorded (hroom : s.cask.ring.length + 1 < caskRingMax) (typ part source : Nat) (body : Bytes) :
    RecordedIn s (s.caskPut typ part source body) := by
  unfold State.caskPut
  extract_lets r used t gap u
  have hclose : s.caskClose = { s with cask := s.caskClose.cask } ∧ s.caskClose.cask.state = s.cask.state ∧ s.caskClose.cask.mode = s.cask.mode ∧
      s.cask.ring.length ≤ s.caskClose.cask.ring.length ∧ s.caskClose.cask.ring.length ≤ s.cask.ring.length + 1 := by
    unfold State.caskClose
    split
    · exact ⟨rfl, rfl, rfl, le_rfl, by omega⟩
    · exact ⟨rfl, rfl, rfl, by rw [List.length_append]; omega, by rw [List.length_append]; exact le_rfl⟩
  have ht : t = { s with cask := t.cask } ∧ t.cask.state = s.cask.state ∧ t.cask.mode = s.cask.mode ∧
      s.cask.ring.length ≤ t.cask.ring.length ∧ t.cask.ring.length ≤ s.cask.ring.length + 1 := by
    unfold t
    split
    · exact hclose
    · exact ⟨rfl, rfl, rfl, le_rfl, by omega⟩
  obtain ⟨honly, hstate, hmode, hlo, hhi⟩ := ht
  have hnot : (decide (t.cask.ring.length ≥ caskRingMax) && t.cask.state == 2) = false := by rw [decide_eq_false (by omega)]; rfl
  rw [if_neg (ne_true_of_eq_false hnot)]
  exact ⟨by rw [honly], hstate, hmode, ⟨hlo, hhi⟩, List.append_ne_nil_of_right_ne_nil _ (List.cons_ne_nil _ _)⟩

theorem State.capturing_of_proper (h : s.cask.state = 2) : s.capturing 0xFF = true := by
  rw [State.capturing, h]
  rfl

/-- An open segment is closed into the ring. -/
theorem State.caskClose_open (h : s.cask.cur ≠ []) : s.caskClose =
    { s with cask := { s.cask with ring := s.cask.ring ++ [caskSegment s], cur := [], segSeq := s.cask.segSeq + 1 } } := by
  rw [State.caskClose]
  exact if_neg (by simpa using h)

/-- The capture stopped: only the capture moved, its last segment stands in the ring. -/
structure CaptureStopped (s u : State) : Prop where
  state : u.cask.state = 5
  base : u.cask.base = []
  cur : u.cask.cur = []
  grown : s.cask.ring.length < u.cask.ring.length
  only : u = { s with cask := u.cask }

/-- The capture goes off, and what is left of its base with it. -/
def State.captureOff (s : State) : State := { s with cask := { s.cask with state := 5, base := [] } }

/-- A state with its last record in it, closed and stopped. -/
theorem RecordedIn.stopped {t : State} (h : RecordedIn s t) : CaptureStopped s t.caskClose.captureOff := by
  have honly := h.only
  have hgrown := h.grown.1
  rw [State.caskClose_open h.isOpen]
  refine ⟨rfl, rfl, rfl, ?_, ?_⟩
  · change s.cask.ring.length < (t.cask.ring ++ [caskSegment t]).length
    rw [List.length_append]
    exact Nat.lt_succ_of_le hgrown
  · exact congrArg (fun x : State => { x with cask := { t.cask with
      state := 5, base := [], ring := t.cask.ring ++ [caskSegment t], cur := [], segSeq := t.cask.segSeq + 1 } }) honly

/-- STOP ends a capture proper with its last segment closed. -/
theorem State.caskStop_closes (h : s.cask.state = 2) (hroom : s.cask.ring.length + 1 < caskRingMax) : ∃ u, s.caskStop = u.kick ∧ CaptureStopped s u := by
  refine ⟨_, ?_, (State.caskPut_recorded hroom 0x0D 0xFF 0xFFFF []).stopped⟩
  rw [State.caskStop, h]
  change State.kick (State.captureOff (if s.capturing 0xFF then _ else s)) = _
  rw [if_pos (State.capturing_of_proper h)]

/-- A write while a capture is on is recorded first. -/
theorem State.regVia_captured (hlive : s.regsLive = true) (hcap : s.capturing 0xFF = true) (path : RegPath) (off v : Nat) (r : Reads) :
    ∃ b, s.regVia path off v r = (s.caskPut 0x08 0xFF 0xFFFF b).regWrite off (BitVec.ofNat 32 v) r := by
  simp only [State.regVia, State.spaceWrite, State.viaReg, State.caskRec, hlive, hcap, if_true]
  exact ⟨_, rfl⟩

/-- The write that stops a capture proper is recorded before it. -/
theorem exec_caskStop_closes (hlive : s.regsLive = true) (h : s.cask.state = 2) (hroom : s.cask.ring.length + 2 < caskRingMax) (path : RegPath) :
    ∃ u : State, exec (.caskStop path) s = settled u.kick ∧ CaptureStopped s u := by
  obtain ⟨b, hvia⟩ := State.regVia_captured hlive (State.capturing_of_proper h) path caskCtrlAt (8 + s.cask.mode.toNat) {}
  have hput := State.caskPut_recorded (s := s) (by omega) 0x08 0xFF 0xFFFF b
  obtain ⟨hlo, hhi⟩ := hput.grown
  obtain ⟨u, hstop, hu⟩ := State.caskStop_closes (s := s.caskPut 0x08 0xFF 0xFFFF b) (by rw [hput.state, h]) (by omega)
  refine ⟨u, ?_, hu.state, hu.base, hu.cur, hlo.trans_lt hu.grown, ?_⟩
  · change settled (s.regVia path caskCtrlAt _ _) = _
    rw [hvia, State.regWrite_caskCtrl, ← hput.mode, State.caskCtrl_stop, hstop]
  · rw [hu.only, hput.only]

/-! ### The end of the memory base, and the stops of the other states (R605, R609) -/

theorem State.caskStop_before_cut (h : s.cask.state = 1) (hcut : s.cask.cut = false) :
    s.caskStop = State.kick { s with cask := { s.cask with state := 5, base := [] } } := by
  have hoff : s.capturing 0xFF = false := by rw [State.capturing, h, hcut]; rfl
  rw [State.caskStop, h, hoff]
  rfl

theorem State.caskStop_replay (h : s.cask.state = 4) : s.caskStop = { s with cask := { s.cask with state := 5, todo := [] } } := by
  rw [State.caskStop, h]
  rfl

theorem State.baseExportEnd_outside (h : s.cask.state ≠ 1) : s.baseExportEnd = s := by
  rw [State.baseExportEnd, if_pos (bne_iff_ne.mpr h)]

theorem State.baseExportEnd_cuts (h : s.cask.state = 1) (hcut : s.cask.cut = false) : s.baseExportEnd = s.captureCut := by
  rw [State.baseExportEnd, h, hcut]
  rfl

theorem State.baseExportEnd_proper (h : s.cask.state = 1) (hcut : s.cask.cut = true) (hbase : s.cask.base.any CaskBase.isMem = false) :
    s.baseExportEnd = State.kick { s with cask := { s.cask with state := 2 } } := by
  rw [State.baseExportEnd, h, hcut, hbase]
  rfl

/-- Where a capture starts: nothing is cut yet, and nothing recorded. -/
def State.captureBegun (s : State) : State :=
  { s with
    cask := { s.cask with
      mode := 1, state := 1, err := 0, capParts := s.cask.parts, capCollector := s.cask.collector, cut := false, segSeq := 0, cur := [], ring := [], base := [],
      todo := [] } }

theorem State.captureStart_begins (h : s.isCollector s.cask.collector.toNat = true) : (s.caskMode 1).captureStart = s.captureBegun.captureCut := by
  have hcollector : (!(s.caskMode 1).isCollector (s.caskMode 1).cask.collector.toNat) = false := by
    rw [show (s.caskMode 1).isCollector (s.caskMode 1).cask.collector.toNat = true from h]
    rfl
  rw [State.captureStart]
  exact if_neg (ne_true_of_eq_false hcollector)

theorem State.captureStart_uncollected (h : s.isCollector s.cask.collector.toNat = false) :
    (s.caskMode 1).captureStart = { s with cask := { s.cask with mode := 1, err := 5 } } := by
  have hcollector : (!(s.caskMode 1).isCollector (s.caskMode 1).cask.collector.toNat) = true := by
    rw [show (s.caskMode 1).isCollector (s.caskMode 1).cask.collector.toNat = false from h]
    rfl
  rw [State.captureStart]
  exact if_pos hcollector

/-- A cut waits for the captured partitions' work and for a stamp. -/
theorem State.captureCut_waits (h : s.caskParts.any s.partBusyWith = true ∨ s.canStamp = false) : s.captureCut = s := by
  rw [State.captureCut]
  refine if_pos ?_
  obtain hbusy | hstamp := h
  · rw [hbusy, Bool.or_true]
  · rw [hstamp, Bool.not_false, Bool.or_true, Bool.true_or]

/-! ### The feed of a replay (R610, R615) -/

/-- A replay that has ended with an error: nothing is left to replay, and the error is reported once. -/
structure ReplayEnded (s : State) (code : Nat) (u : State) : Prop where
  state : u.cask.state = 5
  err : u.cask.err = BitVec.ofNat 4 code
  todo : u.cask.todo = []
  count : u.errCount 0x15 = s.errCount 0x15 + 1

theorem State.replayError_ends (code : Nat) : ReplayEnded s code (s.replayError code) := by
  rw [State.replayError, State.report_noPartition _ (show 32 ≤ 0xFF by decide)]
  obtain ⟨honly, hcount⟩ := State.logRecord_eq { s with cask := { s.cask with state := 5, err := BitVec.ofNat 4 code, todo := [] } }
    { cls := 0x15, cause := code, kind := 10, loc := s.cask.nextSeg.toNat, detail := code }
  have hcask := congrArg State.cask honly
  exact ⟨congrArg Cask.state hcask, congrArg Cask.err hcask, congrArg Cask.todo hcask, hcount⟩

section Feed
variable (h : s.cask.state = 4)
include h

theorem State.caskFeed_unread : s.caskFeed none = s.replayError 3 := by
  rw [State.caskFeed, h]
  rfl

/-- A buffer that breaks R615 ends the replay. -/
theorem State.caskFeed_breaks {b : Bytes} (hbad : s.cask.hostLen.toNat % 65536 ≠ 0 ∨ s.cask.hostAddr.toNat % 64 ≠ 0 ∨ b.length ≠ s.cask.hostLen.toNat) :
    s.caskFeed (some b) = s.replayError 3 := by
  have hno : (s.cask.hostLen.toNat % 65536 == 0 && s.cask.hostAddr.toNat % 64 == 0 && b.length == s.cask.hostLen.toNat) = false := by
    obtain hlen | haddr | hread := hbad
    · rw [beq_false_of_ne hlen, Bool.false_and, Bool.false_and]
    · rw [beq_false_of_ne haddr, Bool.and_false, Bool.false_and]
    · rw [beq_false_of_ne hread, Bool.and_false]
  rw [State.caskFeed, h]
  exact (if_neg (by decide)).trans (if_neg (ne_true_of_eq_false hno))

/-- A buffer of one segment is fed, and the replay goes on. -/
theorem State.caskFeed_segment {b : Bytes} (hlen : s.cask.hostLen = 65536) (haddr : s.cask.hostAddr.toNat % 64 = 0) (hb : b.length = 65536) :
    s.caskFeed (some b) = (s.feedSegment b).replayOn := by
  have hone : segmentsOf b = [b] := by
    rw [segmentsOf, hb]
    change [slice b 0 65536] = [b]
    rw [slice, List.drop_zero, ← hb, List.take_length]
  have hlen' : s.cask.hostLen.toNat = 65536 := by rw [hlen]; rfl
  have hgo : (65536 % 65536 == 0 && s.cask.hostAddr.toNat % 64 == 0 && b.length == 65536) = true := by rw [haddr, hb]; rfl
  rw [State.caskFeed, h, hlen']
  refine (if_neg (by decide)).trans ((if_pos hgo).trans ?_)
  rw [hone]
  rfl

theorem State.feedSegment_format {b : Bytes} (hmagic : fieldAt b 0 4 ≠ 0x4B534143) : s.feedSegment b = s.replayError 3 := by
  have hbad : (fieldAt b 0 4 != 0x4B534143) = true := bne_iff_ne.mpr hmagic
  rw [State.feedSegment, h, hbad]
  rfl

theorem State.feedSegment_sequence {b : Bytes} (hmagic : fieldAt b 0 4 = 0x4B534143) (hver : fieldAt b 4 2 = 1) (hused : fieldAt b 12 4 ≤ 65472)
    (hseq : fieldAt b 8 4 ≠ s.cask.nextSeg.toNat) : s.feedSegment b = s.replayError 2 := by
  have hok : (fieldAt b 0 4 != 0x4B534143 || fieldAt b 4 2 != 1 || decide (fieldAt b 12 4 > 65472)) = false := by
    rw [hmagic, hver, decide_eq_false (by omega)]
    rfl
  rw [State.feedSegment, h]
  exact (if_neg (by decide)).trans ((if_neg (ne_true_of_eq_false hok)).trans (if_pos (bne_iff_ne.mpr hseq)))

end Feed

/-- Nothing is left to replay: the replay goes no further. -/
theorem State.replayOn_nothing (h : s.cask.todo = []) : s.replayOn = s := by
  rw [State.replayOn, h]
  rfl

theorem ReplayEnded.replayOn {code : Nat} {u : State} (h : ReplayEnded s code u) : ReplayEnded s code u.replayOn := by
  rwa [State.replayOn_nothing h.todo]

/-- Settles O58, state by state of the capture and of the replay. -/
theorem casksCaptureAndReplay : Obligations.CasksCaptureAndReplay := by
  intro s path
  refine ⟨fun h => ?_, fun hlive hstate hcut => ?_, fun hlive hstate hroom => ?_, fun hlive hstate => ?_, fun h => runs_settled (State.baseExportEnd_outside h),
    fun h hcut => runs_settled (State.baseExportEnd_cuts h hcut), fun h hcut hbase => ?_, fun hlive hstate => ?_⟩
  · obtain ⟨hlive, hidle⟩ := h
    have hcap : s.capturing 0xFF = false := by rw [State.capturing, hidle]; rfl
    intro begun
    have hstart : exec (.captureStart path) s = settled (s.caskMode 1).captureStart := by
      change settled (s.regVia path caskCtrlAt 5 _) = _
      rw [State.regVia_uncaptured hlive hcap, State.regWrite_caskCtrl]
      exact congrArg settled (State.caskCtrl_capture hidle)
    rw [hstart, exec_caskStop hlive path hcap]
    refine ⟨fun hcollector => runs_settled (State.captureStart_uncollected hcollector),
      fun hcollector hwaits => runs_settled ((State.captureStart_begins hcollector).trans (State.captureCut_waits hwaits)),
      fun hcollector _ _ => runs_settled (State.captureStart_begins hcollector), ?_, ?_, fun buf => ?_⟩
    · change Runs (settled (s.regVia path caskCtrlAt 6 _)) _
      rw [State.regVia_uncaptured hlive hcap, State.regWrite_caskCtrl]
      exact runs_settled (State.caskCtrl_replay hidle)
    · refine runs_settled ?_
      rw [State.caskStop, hidle]
      rfl
    · rw [exec_caskFeed hlive path hcap]
      refine runs_settled ?_
      rw [State.caskFeed, hidle]
      rfl
  · have hcap : s.capturing 0xFF = false := by rw [State.capturing, hstate, hcut]; rfl
    rw [exec_caskStop hlive path hcap, State.caskStop_before_cut hstate hcut]
    exact runsThen_settled rfl
  · obtain ⟨u, hexec, hu⟩ := exec_caskStop_closes hlive hstate hroom path
    rw [hexec]
    exact runsThen_settled ⟨hu.state, hu.base, hu.cur, hu.grown, hu.only⟩
  · have hcap : s.capturing 0xFF = false := by rw [State.capturing, hstate]; rfl
    rw [exec_caskStop hlive path hcap]
    exact runs_settled (State.caskStop_replay hstate)
  · change RunsThen _ (settled s.baseExportEnd) _
    rw [State.baseExportEnd_proper h hcut hbase]
    exact runsThen_settled rfl
  · have hcap : s.capturing 0xFF = false := by rw [State.capturing, hstate]; rfl
    have hended {code : Nat} {u : State} (hu : ReplayEnded s code u) :
        u.cask.state = 5 ∧ u.cask.err = BitVec.ofNat 4 code ∧ u.cask.todo = [] ∧ u.errCount 0x15 = s.errCount 0x15 + 1 := ⟨hu.state, hu.err, hu.todo, hu.count⟩
    have hthree := hended (s.replayError_ends 3)
    simp only [exec_caskFeed hlive path hcap]
    refine ⟨?_, fun b hbad => ?_, fun b hlen haddr hb => ?_⟩
    · rw [State.caskFeed_unread hstate]
      exact runs_settled hthree
    · rw [State.caskFeed_breaks hstate hbad]
      exact runs_settled hthree
    · rw [State.caskFeed_segment hstate hlen haddr hb]
      refine ⟨fun hmagic => ?_, fun hmagic hver hused hseq => ?_⟩
      · rw [State.feedSegment_format hstate hmagic]
        exact runs_settled (hended (State.replayError_ends 3).replayOn)
      · rw [State.feedSegment_sequence hstate hmagic hver hused hseq]
        exact runs_settled (hended (State.replayError_ends 2).replayOn)

end Sys2Proof.Machine
end

section
/-! PROOFS. The statement of 18_power about input loss, flush mode and the return of power. -/
namespace Sys2Proof.Machine

variable {s t : State}

/-! ### POWER records and stamps (R20, R588) -/

/-- A POWER record names no partition: it is a record of the log alone, counted in its class. -/
theorem State.reportPower_logs (cause kind unit : Nat) :
    OnlyReports s (s.reportPower cause kind unit) ∧ (s.reportPower cause kind unit).errCount 0x14 = s.errCount 0x14 + 1 := by
  rw [State.reportPower, State.report_noPartition _ (show 32 ≤ 0xFF by decide)]
  exact s.logRecord_eq _

/-- The stamp that is issued depends on the time base alone. -/
theorem State.stampOrZero_congr (h : t.time = s.time) : t.stampOrZero.1 = s.stampOrZero.1 := by
  simp only [State.stampOrZero, State.canStamp, State.takeStamp, State.zeroStamp, h]
  repeat' split
  all_goals rfl

/-! ### What a flush stops, and what it keeps (R627) -/

/-- Service stopped: no context, queue or lauter command is left; the staging buffers, the journal and the registers of power are as they were. -/
structure ServiceStopped (s u : State) : Prop where
  cores : u.cores = []
  queues : u.queues = []
  cmds : u.fls.cmds = []
  storage : u.fls.state = s.fls.state
  staged : u.staged = s.staged
  dur : u.dur = s.dur
  coreSram : u.coreSram = s.coreSram
  pwr : u.pwr = s.pwr
  pwrKept : u.pwrKept = s.pwrKept
  rst : u.rst = s.rst
  media : u.media = s.media
  pins : u.pins = s.pins

theorem State.loseLends_comp (s : State) (pick : MapLend → Bool) : ∃ c, s.loseLends pick = { s with comp := c } := by
  unfold State.loseLends
  split <;> exact ⟨_, rfl⟩

theorem State.stopService_stopped (s : State) : ServiceStopped s s.stopService := by
  obtain ⟨c, hlost⟩ := s.loseLends_comp fun _ => true
  unfold State.stopService
  rw [hlost]
  exact ⟨rfl, rfl, rfl, rfl, rfl, rfl, rfl, rfl, rfl, rfl, rfl, rfl⟩

/-- A record before the stop of service leaves what the stop keeps. -/
theorem ServiceStopped.of_onlyReports {u : State} (h : OnlyReports s t) (h' : ServiceStopped t u) : ServiceStopped s u := by
  rw [h] at h'
  exact ⟨h'.cores, h'.queues, h'.cmds, h'.storage, h'.staged, h'.dur, h'.coreSram, h'.pwr, h'.pwrKept, h'.rst, h'.media, h'.pins⟩

/-- The counts of errors stand through the stop of service. -/
theorem State.errCount_stopService (s : State) (cls : Nat) : s.stopService.errCount cls = s.errCount cls := by
  obtain ⟨c, hlost⟩ := s.loseLends_comp fun _ => true
  unfold State.stopService
  rw [hlost]
  rfl

/-- The state in which a flush begins: stamped, reported and stopped. -/
def State.flushStopped (s : State) : State := (s.stampOrZero.2.reportPower 0 10 0).stopService

theorem State.flushStopped_stopped (s : State) : ServiceStopped s s.flushStopped ∧ s.flushStopped.errCount 0x14 = s.errCount 0x14 + 1 := by
  obtain ⟨honly, hcount⟩ := State.reportPower_logs (s := s.stampOrZero.2) 0 10 0
  have hstamp : OnlyReports s s.stampOrZero.2 := by
    rw [OnlyReports, s.stampOrZero_eq]
  refine ⟨.of_onlyReports hstamp (.of_onlyReports honly (State.stopService_stopped _)), ?_⟩
  rw [State.flushStopped, State.errCount_stopService, hcount, s.stampOrZero_eq]
  rfl

/-! ### The flushed state and its end (R627, R630, R643) -/

/-- The carrier rails of a list switched off. -/
def State.railsOff (s : State) (l : List Nat) : State := l.foldl (fun (s : State) (c : Nat) => s.setEn c false) s

/-- Switching carrier rails off changes the carriers and the module's enables alone. -/
theorem State.railsOff_only (s : State) (l : List Nat) : s.railsOff l = { s with carriers := (s.railsOff l).carriers, mod := (s.railsOff l).mod } := by
  have hkept := foldl_keeps (fun x : State => { x with carriers := s.carriers, mod := s.mod }) (f := fun (s : State) (c : Nat) => s.setEn c false) (fun _ _ => rfl) l s
  exact congrArg (fun x : State => { x with carriers := (s.railsOff l).carriers, mod := (s.railsOff l).mod }) hkept

theorem State.railsOff_off (l : List Nat) (s : State) {c : Nat} (h : c ∈ l ∨ (s.carrier c).pwrEn = false) : ((s.railsOff l).carrier c).pwrEn = false := by
  induction l generalizing s with
  | nil => exact h.resolve_left List.not_mem_nil
  | cons d l ih =>
    refine ih (s.setEn d false) ?_
    by_cases hcd : c = d
    · subst hcd
      exact .inr (by rw [State.carrier_setEn_same])
    · rw [State.carrier_setEn_ne _ _ hcd]
      exact h.imp_left fun hmem => (List.mem_cons.mp hmem).resolve_left hcd

theorem State.enterFlushed_eq (s : State) : s.enterFlushed =
    { s with
      pwr := { s.pwr with state := 3 }
      carriers := (s.railsOff (List.range 8)).carriers
      mod := { (s.railsOff (List.range 8)).mod with kOn := 0 } } := by
  change (let t := s.railsOff (List.range 8); { t with pwr := { t.pwr with state := 3 }, mod := { t.mod with kOn := 0 } } : State) = _
  dsimp only
  rw [s.railsOff_only]

/-- In the flushed state every carrier rail is off. -/
theorem State.enterFlushed_off (s : State) {c : Nat} (hc : c < 8) : (s.enterFlushed.carrier c).pwrEn = false := by
  have hcarriers : s.enterFlushed.carriers = (s.railsOff (List.range 8)).carriers := by rw [State.enterFlushed_eq]
  rw [State.carrier, hcarriers, ← State.carrier]
  exact State.railsOff_off (List.range 8) s (.inl (List.mem_range.mpr hc))

/-- A flush whose input has not returned, and during which no reset was asked for, stays in the flushed state. -/
theorem State.afterFlush_stays (hreturned : s.pwr.returned = false) (hpend : s.rst.modPend = none) : s.afterFlush = s := by
  unfold State.afterFlush
  rw [hreturned, hpend]
  split <;> rfl

theorem State.afterFlush_outside (h : s.pwr.state.toNat < 2) : s.afterFlush = s := by
  have hno : (s.pwr.state != 3 || s.pwr.off) = true := by
    rw [bne_iff_ne.mpr fun h3 => by rw [h3] at h; exact absurd h (by decide)]
    rfl
  rw [State.afterFlush, if_pos hno]

theorem State.afterFlush_resets (hoff : s.pwr.off = false) (hstate : s.pwr.state = 3) (hreturned : s.pwr.returned = true) (hcool : s.pwr.tripped = [])
    (hpin : s.pins.pwrFailN = true) : s.afterFlush = s.resetNow 5 := by
  rw [State.afterFlush, hoff, hstate, hreturned, hcool, hpin]
  rfl

/-! ### The triggers (R625–R627) -/

/-- Storage can take a flush. -/
def State.takesFlush (s : State) : Bool := s.fls.state == .ready || s.fls.state == .degraded || s.fls.state == .rebuilding

/-- What stands in POWER once a flush has begun, before it is known whether storage can take it. -/
def State.flushing (s : State) (drill bus : Bool) : State :=
  let t := s.flushStopped
  { t with
    pwr := { t.pwr with
      state := 2, trigAt := t.time.up, drill := drill, trip := false, empty := !t.takesFlush, returned := !bus, flushStamp := s.stampOrZero.1 } }

/-- POWER and its kept record count a flush with nothing to write to. -/
def State.flushUnstored (s : State) (drill bus : Bool) : State :=
  let t := s.flushing drill bus
  { t with
    pwrKept := { t.pwrKept with cnt := t.pwrKept.cnt + 1, last := 3, us := 0, mib := 0, stamp := s.stampOrZero.1 }
    pwr := { t.pwr with flushCnt := t.pwr.flushCnt + 1, last := 3, lastUs := 0, lastMib := 0 } }

/-- A trigger begins a flush, and with no storage to take it the flushed state at once. -/
theorem State.flushTrigger_eq (hpow : Powered s) (drill bus : Bool) : s.flushTrigger drill false bus =
    if s.flushStopped.takesFlush then s.flushing drill bus else (s.flushUnstored drill bus).enterFlushed.afterFlush := by
  obtain ⟨hoff, hstate⟩ := hpow
  have hgo : (decide (s.pwr.state.toNat ≥ 2) || s.pwr.off) = false := by rw [decide_eq_false (by omega), hoff]; rfl
  rw [State.flushTrigger]
  exact if_neg (ne_true_of_eq_false hgo)

/-- A flush that runs: stamped, reported, service stopped, and what is staged kept. -/
structure FlushRuns (s : State) (drill bus : Bool) (u : State) : Prop where
  state : u.pwr.state = 2
  trip : u.pwr.trip = false
  empty : u.pwr.empty = false
  trigAt : u.pwr.trigAt = u.time.up
  stamp : u.pwr.flushStamp = s.stampOrZero.1
  drill : u.pwr.drill = drill
  returned : u.pwr.returned = !bus
  vin : u.pwr.vin = s.pwr.vin
  cores : u.cores = []
  queues : u.queues = []
  cmds : u.fls.cmds = []
  staged : u.staged = s.staged
  dur : u.dur = s.dur
  coreSram : u.coreSram = s.coreSram
  media : u.media = s.media
  pins : u.pins = s.pins
  count : u.errCount 0x14 = s.errCount 0x14 + 1

/-- Storage that is ready takes the flush. -/
theorem State.flushTrigger_runs (hpow : Powered s) (hready : s.fls.state = .ready) (drill bus : Bool) : FlushRuns s drill bus (s.flushTrigger drill false bus) := by
  obtain ⟨hstop, hcount⟩ := s.flushStopped_stopped
  have htakes : s.flushStopped.takesFlush = true := by rw [State.takesFlush, hstop.storage, hready]; rfl
  have hempty : (!s.flushStopped.takesFlush) = false := by rw [htakes]; rfl
  have hvin : s.flushStopped.pwr.vin = s.pwr.vin := congrArg Pwr.vin hstop.pwr
  rw [State.flushTrigger_eq hpow, if_pos htakes]
  exact ⟨rfl, rfl, hempty, rfl, rfl, rfl, rfl, hvin, hstop.cores, hstop.queues, hstop.cmds, hstop.staged, hstop.dur, hstop.coreSram,
    hstop.media, hstop.pins, hcount⟩

/-- With storage down the flushed state begins at once, with outcome 3. -/
theorem State.flushTrigger_unstored (hpow : Powered s) (hdown : s.fls.state = .down) (hpend : s.rst.modPend = none) (drill : Bool) :
    s.flushTrigger drill false true = (s.flushUnstored drill true).enterFlushed := by
  have hstop := s.flushStopped_stopped.1
  have htakes : s.flushStopped.takesFlush = false := by rw [State.takesFlush, hstop.storage, hdown]; rfl
  have hentered := (s.flushUnstored drill true).enterFlushed_eq
  have hreturned : (s.flushUnstored drill true).enterFlushed.pwr.returned = false := by rw [hentered]; rfl
  have hnone : (s.flushUnstored drill true).enterFlushed.rst.modPend = none := by
    rw [hentered]
    exact (congrArg Rst.modPend hstop.rst).trans hpend
  rw [State.flushTrigger_eq hpow, if_neg (ne_true_of_eq_false htakes), State.afterFlush_stays hreturned hnone]

/-- A loss of input power is counted when it begins a flush. -/
theorem State.countLoss_counts (hpow : Powered s) : s.countLoss = { s with media := { s.media with unsafeShutdowns := s.media.unsafeShutdowns + 1 } } := by
  obtain ⟨hoff, hstate⟩ := hpow
  have hgo : (decide (s.pwr.state.toNat < 2) && !s.pwr.off) = true := by rw [decide_eq_true hstate, hoff]; rfl
  rw [State.countLoss, if_pos hgo]

/-- The state in which the bus trigger begins a flush. -/
def State.busLost (s : State) (vin : BitVec 10) : State :=
  { s with pwr := { s.pwr with vin := vin, returned := false }, media := { s.media with unsafeShutdowns := s.media.unsafeShutdowns + 1 } }

theorem exec_busFlushTrigger {vin : BitVec 10} (hvin : vin.toNat < 680) (hpow : Powered s) :
    exec (.busFlushTrigger vin) s = settled ((s.busLost vin).flushTrigger false false true) := by
  let low : State := { s with pwr := { s.pwr with vin := vin, returned := false } }
  have hloss : low.countLoss = s.busLost vin := State.countLoss_counts (s := low) hpow
  change presented (decide (vin.toNat < 680)) (settled (low.countLoss.flushTrigger false false true)) = _
  rw [decide_eq_true hvin, hloss]
  rfl

/-- The state in which PWR_FAIL begins a flush. -/
def State.failPin (s : State) : State :=
  { s with pins := { s.pins with pwrFailN := false }, media := { s.media with unsafeShutdowns := s.media.unsafeShutdowns + 1 } }

theorem exec_pwrFail (hpow : Powered s) : exec .pwrFail s = settled (s.failPin.flushTrigger false false false) := by
  let low : State := { s with pins := { s.pins with pwrFailN := false } }
  have hloss : low.countLoss = s.failPin := State.countLoss_counts (s := low) hpow
  change settled (low.countLoss.flushTrigger false false false) = _
  rw [hloss]

/-- The key of PWR_CTRL begins a drill. -/
theorem exec_drill (h : Live s) (hpow : Powered s) (hrec : s.recovering = false) (path : RegPath) : exec (.drill path) s = settled (s.flushTrigger true false false) := by
  have hgo : ((0x464C : BitVec 16) == 0x464C && decide (s.pwr.state.toNat < 2) && !s.recovering) = true := by rw [decide_eq_true hpow.2, hrec]; rfl
  change settled (s.regVia path pwrCtrlAt 0x464C) = _
  rw [State.regVia_block (b := .power) h path rfl (by decide)]
  exact congrArg settled (if_pos hgo)

/-! ### The end record and the collapse (R627, R630) -/

/-- The end record is written: the flush is counted, and its outcome kept in the system area. -/
def State.flushEnded (s : State) : State :=
  let us := BitVec.ofNat 32 ((s.time.up - s.pwr.trigAt) / 1000)
  let mib := BitVec.ofNat 16 (ceilDiv s.flushBytes (2 ^ 20))
  let last : BitVec 3 := if s.pwr.drill then 4 else 1
  { s with
    pwrKept := { s.pwrKept with cnt := s.pwrKept.cnt + 1, last := last, us := us, mib := mib, stamp := s.pwr.flushStamp }
    pwr := { s.pwr with flushCnt := s.pwr.flushCnt + 1, last := last, lastUs := us, lastMib := mib }
    flt := { s.flt with savedTo := s.flt.head }
    media := { s.media with stripes := s.media.stripes.filter fun e => e.2.programmed }
    dur := { s.dur with flushed := some (s.pwr.flushStamp, true), flushStaged := s.staged.map fun (e : Nat × Staged) => e.1 } }

theorem State.flushComplete_ends (hoff : s.pwr.off = false) (hstate : s.pwr.state = 2) (hreturned : s.pwr.returned = false) (hpend : s.rst.modPend = none) :
    s.flushComplete = s.flushEnded.enterFlushed := by
  have hgo : (s.pwr.state != 2 || s.pwr.off) = false := by rw [hstate, hoff]; rfl
  have hentered := s.flushEnded.enterFlushed_eq
  have hstays : s.flushEnded.enterFlushed.afterFlush = s.flushEnded.enterFlushed :=
    State.afterFlush_stays (by rw [hentered]; exact hreturned) (by rw [hentered]; exact hpend)
  rw [State.flushComplete]
  exact (if_neg (ne_true_of_eq_false hgo)).trans hstays

/-- A collapse during a flush leaves it incomplete: what the flush area does not hold is lost. -/
theorem State.collapse_incomplete (hoff : s.pwr.off = false) (hstate : s.pwr.state = 2) : s.collapse =
    let us := BitVec.ofNat 32 ((s.time.up - s.pwr.trigAt) / 1000)
    let t := State.loseReserve { s with
      pwrKept := { s.pwrKept with cnt := s.pwrKept.cnt + 1, last := 2, us := us, mib := 0, stamp := s.pwr.flushStamp }
      dur := { s.dur with flushed := some (s.pwr.flushStamp, false) } }
    { t with pwr := { t.pwr with off := true }, clk := { t.clk with phase := .held } } := by
  rw [State.collapse, hoff, hstate]
  rfl

/-- A collapse in the flushed state with an end record loses nothing. -/
theorem State.collapse_whole (hoff : s.pwr.off = false) (hstate : s.pwr.state = 3) (hempty : s.pwr.empty = false) :
    s.collapse = { s with pwr := { s.pwr with off := true }, clk := { s.clk with phase := .held } } := by
  rw [State.collapse, hoff, hstate, hempty]
  rfl

/-! ### The statement -/

/-- A record after a change of POWER and of MODULE leaves what was changed. -/
theorem OnlyReports.power {p : Pwr} {m : Mod} (h : OnlyReports { s with pwr := p, mod := m } t) : t.pwr = p ∧ t.mod = m ∧
    t = { s with pwr := t.pwr, mod := t.mod, flt := t.flt, time := t.time, out := t.out } := by
  have hpwr : t.pwr = p := by rw [h]
  have hmod : t.mod = m := by rw [h]
  refine ⟨hpwr, hmod, ?_⟩
  rw [hpwr, hmod]
  exact h

/-- A low input is flagged and reported. -/
theorem exec_inputLow {vin : BitVec 10} (hvin : vin.toNat < 700) (hoff : s.pwr.off = false) (hstate : s.pwr.state = 0) : exec (.inputLow vin) s =
    settled (State.reportPower { s with pwr := { s.pwr with vin := vin, state := 1, errLow := true } } 0 10 0) := by
  have hgo : (s.pwr.off || s.pwr.state != 0) = false := by rw [hoff, hstate]; rfl
  change presented (decide (vin.toNat < 700)) _ = _
  rw [decide_eq_true hvin]
  exact if_neg (ne_true_of_eq_false hgo)

theorem exec_inputReturn_reset {vin : BitVec 10} (hvin : 740 < vin.toNat) (hoff : s.pwr.off = false) (hstate : s.pwr.state = 3) (hcool : s.pwr.tripped = [])
    (hpin : s.pins.pwrFailN = true) : exec (.inputReturn vin) s = settled (State.resetNow { s with pwr := { s.pwr with vin := vin, returned := true } } 5) := by
  have hgo : (s.pwr.off || decide (s.pwr.state.toNat < 2)) = false := by rw [hoff, hstate]; rfl
  change presented (decide (740 < vin.toNat)) _ = _
  rw [decide_eq_true hvin]
  refine (if_neg (ne_true_of_eq_false hgo)).trans (congrArg settled ?_)
  exact State.afterFlush_resets (s := { s with pwr := { s.pwr with vin := vin, returned := true } }) hoff hstate rfl hcool hpin

theorem exec_inputReturn_up {vin : BitVec 10} (hvin : 740 < vin.toNat) (hstate : s.pwr.state.toNat < 2) : exec (.inputReturn vin) s = settled (s.setVin vin) := by
  have hstay : (s.pwr.off || decide (s.pwr.state.toNat < 2)) = true := by rw [decide_eq_true hstate, Bool.or_true]
  change presented (decide (740 < vin.toNat)) _ = _
  rw [decide_eq_true hvin]
  exact if_pos hstay

/-- A bus that is too high is flagged and reported. -/
theorem exec_busHigh {vin : BitVec 10} (hvin : 870 < vin.toNat) (hoff : s.pwr.off = false) : exec (.busHigh vin) s =
    settled (State.reportPower { s with pwr := { s.pwr with vin := vin }, mod := { s.mod with err := bput s.mod.err 5 true } } 5 10 0) := by
  change presented (decide (870 < vin.toNat)) _ = _
  rw [decide_eq_true hvin]
  exact if_neg (ne_true_of_eq_false hoff)

/-- Settles O59: each clause is one event of the input, of the flush, or of the return of power. -/
theorem inputLossFlushesAndReturns : Obligations.InputLossFlushesAndReturns := by
  intro s vin low flushing
  have hflushing {t u : State} {drill bus : Bool} (htime : t.time = s.time) (hstaged : t.staged = s.staged) (hdur : t.dur = s.dur)
      (hsram : t.coreSram = s.coreSram) (hflt : t.flt = s.flt) (h : FlushRuns t drill bus u) : flushing u :=
    ⟨h.state, h.trip, h.empty, h.trigAt, h.stamp.trans (State.stampOrZero_congr htime), h.cores, h.queues, h.cmds, h.staged.trans hstaged, h.dur.trans hdur,
      h.coreSram.trans hsram, h.count.trans (by rw [State.errCount, hflt, State.errCount])⟩
  refine ⟨fun hvin hoff hstate => ?_, fun hvin hstate => ?_, fun hvin hpow hready => ?_, fun hpow hready => ?_, fun path h hpow hrec hready => ?_,
    fun hvin hpow hdown hpend => ?_, fun hoff hstate hreturned hpend => ?_, fun hvin hoff hstate hcool hpin => ?_, fun hvin hstate => ?_,
    fun hoff hstate hreturned hcool => ?_, fun hstate => runs_settled (State.afterFlush_outside hstate), fun hvin hoff hstate => ?_,
    fun hvin hoff hstate hempty => ?_, fun hvin hoff => ?_, fun hvin hoff => ?_⟩
  · obtain ⟨honly, hcount⟩ := State.reportPower_logs (s := { s with pwr := { s.pwr with vin := vin, state := 1, errLow := true } }) 0 10 0
    obtain ⟨hpwr, hmod, hframe⟩ := OnlyReports.power (m := s.mod) honly
    rw [hmod] at hframe
    rw [exec_inputLow hvin hoff hstate]
    exact runs_settled ⟨hpwr, hcount, hframe⟩
  · change Runs (presented (decide (720 < vin.toNat)) _) _
    rw [decide_eq_true hvin]
    exact runs_settled (if_pos (beq_iff_eq.mpr hstate))
  · have hruns := State.flushTrigger_runs (s := s.busLost vin) hpow hready false true
    rw [exec_busFlushTrigger hvin hpow]
    exact runs_settled ⟨hflushing (t := s.busLost vin) rfl rfl rfl rfl rfl hruns, hruns.drill, hruns.returned, hruns.vin, congrArg Media.unsafeShutdowns hruns.media⟩
  · have hruns := State.flushTrigger_runs (s := s.failPin) hpow hready false false
    rw [exec_pwrFail hpow]
    exact runs_settled ⟨hflushing (t := s.failPin) rfl rfl rfl rfl rfl hruns, hruns.drill, congrArg Pins.pwrFailN hruns.pins,
      congrArg Media.unsafeShutdowns hruns.media⟩
  · have hruns := State.flushTrigger_runs hpow hready true false
    rw [exec_drill h hpow hrec]
    exact runs_settled ⟨hflushing rfl rfl rfl rfl rfl hruns, hruns.drill, congrArg Media.unsafeShutdowns hruns.media⟩
  · have hstop := (s.busLost vin).flushStopped_stopped.1
    rw [exec_busFlushTrigger hvin hpow, State.flushTrigger_unstored (s := s.busLost vin) hpow hdown hpend, State.enterFlushed_eq]
    exact runs_settled ⟨rfl, rfl, congrArg (·.flushCnt + 1) hstop.pwr, congrArg (·.cnt + 1) hstop.pwrKept, rfl⟩
  · have hoffRails (c : Nat) (hc : c < 8) := s.flushEnded.enterFlushed_off hc
    change Runs (settled s.flushComplete) _
    rw [State.flushComplete_ends hoff hstate hreturned hpend]
    refine runs_settled ?_
    have hentered := s.flushEnded.enterFlushed_eq
    refine ⟨?_, ?_, ?_, ?_, ?_, ?_, ?_, ?_, ?_, ?_, hoffRails⟩
    all_goals rw [hentered]
    all_goals rfl
  · have hheld := State.resetNow_held { s with pwr := { s.pwr with vin := vin, returned := true } } 5
    have hpwr : (if s.pwr.state == 1 then (1 : BitVec 3) else 0) = 0 := by rw [hstate]; rfl
    rw [exec_inputReturn_reset hvin hoff hstate hcool hpin]
    exact runs_settled ⟨hheld.phase, congrArg Rst.cause hheld.rst, (congrArg Pwr.state hheld.pwr).trans hpwr, congrArg Pwr.vin hheld.pwr⟩
  · rw [exec_inputReturn_up hvin hstate]
    exact runs_settled rfl
  · have hheld := State.resetNow_held { s with pins := { s.pins with pwrFailN := true } } 5
    change Runs (settled (State.afterFlush _)) _
    rw [State.afterFlush_resets (s := { s with pins := { s.pins with pwrFailN := true } }) hoff hstate hreturned hcool rfl]
    exact runs_settled ⟨hheld.phase, congrArg Rst.cause hheld.rst, congrArg Pins.pwrFailN hheld.pins⟩
  · change Runs (presented (decide (vin.toNat ≤ 400)) (settled (s.setVin vin).collapse)) _
    rw [decide_eq_true hvin, State.collapse_incomplete (s := s.setVin vin) hoff hstate]
    exact runs_settled ⟨rfl, rfl, rfl, rfl, rfl, rfl, rfl⟩
  · change Runs (presented (decide (vin.toNat ≤ 400)) (settled (s.setVin vin).collapse)) _
    rw [decide_eq_true hvin, State.collapse_whole (s := s.setVin vin) hoff hstate hempty]
    exact runs_settled rfl
  · change Runs (presented (decide (740 < vin.toNat)) (settled (if s.pwr.off then (s.setVin vin).powerOn else s.setVin vin))) _
    rw [decide_eq_true hvin, if_pos hoff]
    exact runs_settled ⟨rfl, rfl, rfl, rfl, rfl, rfl, rfl, rfl⟩
  · obtain ⟨honly, hcount⟩ := State.reportPower_logs (s := { s with pwr := { s.pwr with vin := vin }, mod := { s.mod with err := bput s.mod.err 5 true } }) 5 10 0
    obtain ⟨hpwr, hmod, hframe⟩ := OnlyReports.power honly
    rw [hpwr] at hframe
    rw [exec_busHigh hvin hoff]
    exact runs_settled ⟨congrArg (·.err) hmod, hcount, hframe⟩

end Sys2Proof.Machine
end
